-- ==== Sys2Proof/Word.lean ====
section
/-! DEFINITION. The word types of the model and their plainest arithmetic. -/

namespace Sys2Proof

/-- A byte of a memory or a packet. -/
abbrev Byte := BitVec 8
/-- A 64-bit register or memory word. -/
abbrev W64 := BitVec 64
/-- A 32-bit word. -/
abbrev W32 := BitVec 32
/-- A 16-bit word. -/
abbrev W16 := BitVec 16
/-- A two's-complement field of a neuron record, 24 bits. -/
abbrev S24 := BitVec 24

/-- A context, 0 to 7. -/
abbrev Ctx := Fin 8
/-- A tile, 0 to 31. -/
abbrev Tile := Fin 32
/-- An engine of a tile, E0 to E8. -/
abbrev Eng := Fin 9
/-- An Event-link port, 0 to 5. -/
abbrev Port := Fin 6

end Sys2Proof
end

