-- ==== Sys2Proof/Syntax.lean ====
section
/-! DEFINITION. The commands of the block, one constructor for each row of spec/opcode_table.json. A row whose step reads
what the outside supplies (a finding of a code check, a packet, data read by DMA, a timebase edge) carries it as an
operand. -/

namespace Sys2Proof

/-- The part of a register that a write covers (R18): the low four bytes, the high four, or all of it. -/
inductive Half where
  | low | high | whole
  deriving DecidableEq, Repr

/-- A micro-op with the fields it uses (R66, R71): destination, sources, constant, predicate control. -/
inductive MicroOp where
  | ld (dst pred : Fin 4)
  | st (dst pred : Fin 4)
  | add (dst : Fin 4) (a b : Fin 8) (k : S24) (pred : Fin 4)
  | sub (dst : Fin 4) (a b : Fin 8) (k : S24) (pred : Fin 4)
  | mulk (dst : Fin 4) (a : Fin 8) (k : S24) (pred : Fin 4)
  | shr (dst : Fin 4) (a : Fin 8) (k : S24) (pred : Fin 4)
  | decay (dst : Fin 4) (a : Fin 8) (k : S24) (pred : Fin 4)
  | slot (pred : Fin 4)
  | cmpge (a b : Fin 8) (k : S24) (pred : Fin 4)
  | cmplt (a b : Fin 8) (k : S24) (pred : Fin 4)
  | sel (dst : Fin 4) (a b : Fin 8) (k : S24) (pred : Fin 4)
  | clr (dst : Fin 4) (k : S24) (pred : Fin 4)
  | noise (dst : Fin 4) (a : Fin 8) (k : S24) (pred : Fin 4)
  | refr (k : S24) (pred : Fin 4)
  | emit (a : Fin 8) (k : S24) (pred : Fin 4)
  | fin (pred : Fin 4)
  deriving DecidableEq, Repr

/-- A learning word with its fields (R178, R180). -/
inductive LrnOp where
  | add (dst : Fin 4) (a b : Fin 8) (k : BitVec 16) (pred : Fin 8)
  | sub (dst : Fin 4) (a b : Fin 8) (k : BitVec 16) (pred : Fin 8)
  | mul (dst : Fin 4) (a b : Fin 8) (k : BitVec 16) (pred : Fin 8)
  | mulk (dst : Fin 4) (a : Fin 8) (k : BitVec 16) (pred : Fin 8)
  | shr (dst : Fin 4) (a : Fin 8) (k : BitVec 16) (pred : Fin 8)
  | min (dst : Fin 4) (a b : Fin 8) (k : BitVec 16) (pred : Fin 8)
  | max (dst : Fin 4) (a b : Fin 8) (k : BitVec 16) (pred : Fin 8)
  | cmpge (a b : Fin 8) (k : BitVec 16) (pred : Fin 8)
  | cmplt (a b : Fin 8) (k : BitVec 16) (pred : Fin 8)
  | sel (dst : Fin 4) (a b : Fin 8) (k : BitVec 16) (pred : Fin 8)
  | srnd (dst : Fin 4) (a : Fin 8) (k : BitVec 16) (pred : Fin 8)
  | mov (dst : Fin 4) (a : Fin 8) (k : BitVec 16) (pred : Fin 8)
  | fin (pred : Fin 8)
  deriving DecidableEq, Repr

/-- What Tumbler finds uncorrectable on its way to a word and in it (R130, R194, R412): the synapse word, a 64-bit word of trace memory, a
pre-count byte, a source-index entry, a scale line, a learning running order, a 64-bit word of the dirty bitmap; `lost` says that the
good copy is uncorrectable too. -/
inductive SweepFinding where
  | synapse (lost : Bool)
  | trace (e : Eng) (word : Fin 16384)
  | pre (e : Eng) (row : Fin 8192)
  | index (e : Eng) (row : Fin 8192) (lost : Bool)
  | scale (e : Eng) (line : Fin 512)
  | rule (slot : Fin 4)
  | dirty (word : Fin 1024)
  deriving DecidableEq, Repr

/-- Core cycles of a synapse pipeline that its clock counts since it last took an event (R121, R123, R126, R128): both queues empty or a
lookup pending; denied its synapse-memory bank; held by a refetch, a flush, a SLOT that goes first or credit; waiting for a spill
fetch; and whether the row stream has run dry when the event is looked up. -/
structure SynStall where
  front : Nat
  smem : Nat
  back : Nat
  spill : Nat
  dry : Bool
  deriving DecidableEq, Repr

/-- Who reads and writes registers (R18): a PCIe function, a submission queue's READ_REG, a remote sender, a firmware
agent. -/
inductive Requester where
  | pf
  | vf (c : Ctx)
  | sq (q : Fin 24)
  | remote (chip : Nat) (agent : Fin 64)
  | agent (a : Fin 64)
  deriving DecidableEq, Repr


/-- What a router finds in a flit that enters an input (R238, R270): nothing, a corrected header, an uncorrectable header or
failed parity, an uncorrectable event word or data flit. -/
inductive FlitFinding where
  | clean | corrected | badHeader | badWord
  deriving DecidableEq, Repr

/-- When a word leaves the lookup stage of a tile (R239, R244): in the core cycle of the word before it, in the next, or later. -/
inductive LookupAt where
  | same | next | later
  deriving DecidableEq, Repr

/-- What a read of a memory finds (R410, R539, R551): no error, one corrected by the LPDDR5X link, one corrected by the in-line or
memory code, an uncorrectable one. -/
inductive MemFinding where
  | clean | linkFixed | fixed | uncorrectable
  deriving DecidableEq, Repr

/-- Where a word or packet enters the rim switch (R295): a port with the class, a gateway, the sensor ingress, the host
rings, or a packet of this chip. -/
inductive RimSource where
  | port (p : Port) (cls : Fin 4)
  | gateway (g : Fin 8)
  | sensor
  | host
  | packet
  deriving DecidableEq, Repr

/-- An engine block of a placement (R208): the population's record ID, the block's first neuron in it and its size, its tile and
engine, and the descriptor index, BASE, SLOT_BASE, running-order slot and decay tables that Usher gives it. -/
structure Block where
  pop : Nat
  first : Nat
  size : Nat
  tile : Nat
  eng : Nat
  desc : Nat
  base : Nat
  slotBase : Nat
  routine : Nat
  dtab : List Nat
  deriving DecidableEq, Repr

/-- What Usher decides for a placement or for the target of a migration (R207 to R211, R219, R224): the blocks; NE_PROJ words
(tile, engine, index, word, PROJ record ID); decay tables (tile, engine, table, DECAY record ID); bounds entries (tile, engine,
entry, word); engine images (tile, engine, 64-byte unit); plastic regions (tile, engine, BASE, WORDS, projection mask); scales,
rows and source-index entries as bytes in the device physical map; fan-out entries (tile, index, entry); rim entries (index,
entry); the first unit above the spilled rows; Usher's estimate of the share of each population's neurons touched per tick (POP
record ID, 2^-16; R233); the marker hops to chips beyond the neighbours (R163); and for a lead chip the blocks of other chips with
their chip, and the shares it sends (chip, queue, message; R232). -/
structure Plan where
  blocks : List Block := []
  projs : List (Nat × Nat × Nat × W64 × Nat) := []
  decays : List (Nat × Nat × Nat × Nat) := []
  bounds : List (Nat × Nat × Nat × W64) := []
  homes : List (Nat × Nat × Nat) := []
  plastic : List (Nat × Nat × Nat × Nat × Nat) := []
  mem : List (Nat × List Byte) := []
  fan : List (Nat × Nat × Nat) := []
  rim : List (Nat × Nat) := []
  used : Nat := 0
  touched : List (Nat × Nat) := []
  hops : List (Nat × Nat) := []
  away : List (Nat × Block) := []
  shares : List (Nat × Nat × List Byte) := []
  deriving DecidableEq, Repr

/-- An INFEASIBLE outcome as USH_REASON_c names it (R212): the reason, record, tile, engine, link. -/
structure Reason where
  code : Nat
  record : Nat := 0xFFFF
  tile : Nat := 0
  eng : Nat := 0
  link : Nat := 0
  deriving DecidableEq, Repr

/-- A promotion or a demotion of one row (R221, R222): tile, engine, source-index entry, and the row's new ADDR; a demotion names the
entry of the row it makes room for. -/
structure RowMove where
  tile : Nat
  eng : Nat
  index : Nat
  addr : Nat
  roomFor : Nat := 0
  deriving DecidableEq, Repr

/-- A migration that Usher starts (R224): the context, the population record and first neuron of the block, the plan whose first
block is its target, and the other chip when the block moves to a chip (R232). -/
structure Move where
  ctx : Nat
  pop : Nat
  first : Nat
  plan : Plan
  chip : Option Nat := none
  deriving DecidableEq, Repr

/-- What bring-up meets (R457 to R461): a boot A, a boot B, a firmware slot A or B found bad; licence records that fail; an
invalid calibration set; a boot configuration record that fails its check; LPDDR5X training that fails; rows that the self-test repairs; engines that it leaves unrepairable
(tile × 9 + engine); tiles whose controller does not start. -/
structure BootFind where
  bootABad : Bool := false
  bootBBad : Bool := false
  slotABad : Bool := false
  slotBBad : Bool := false
  badLics : List Nat := []
  calBad : Bool := false
  cfgBad : Bool := false
  lpFail : Bool := false
  rows : List Nat := []
  badEngines : List Nat := []
  badTiles : List Nat := []
  deriving DecidableEq, Repr

/-- What wakes (R489, R490): the voltages, in µV, that comparator `n` finds on its ball in the next always-on cycles; a match of a timer
channel; the WAKE_N ball held low for 1 µs; a signal on a lane of a port; an edge of a GPIO. -/
inductive WakeInput
  | comparator (n : Fin 2) (volts : List Nat)
  | timer (ch : Fin 8)
  | wakePin
  | signal (p : Fin 6)
  | gpio (g : Fin 16) (falling : Bool)
  deriving DecidableEq, Repr

/-- Source number of R492. -/
def WakeInput.source : WakeInput → Nat
  | .comparator n _ => n
  | .timer ch => 2 + ch
  | .wakePin => 10
  | .signal p => 11 + p
  | .gpio _ _ => 17

/-- The commands: the steps of the table of operations and events. -/
inductive Instr where
  /-- REGISTER_WRITE (R15): A host or firmware write of a register that has no behaviour row of its own sets its fields by their access codes. -/
  | registerWrite (who : Requester) (off : BitVec 26) (bytes : Fin 9) (v : W64) (poisoned : Bool) (now : Nat) (x : BootFind)
  /-- LOW_HALF_READ (R18): A 4-byte read of the low half of a 64-bit register fills the requester's latch with the high half. -/
  | lowHalfRead (who : Requester) (off : BitVec 26) (bytes : Fin 9)
  /-- HIGH_HALF_READ (R18): A 4-byte read of a high half returns and empties the latch when it was filled from the same register; otherwise it returns the current high half. -/
  | highHalfRead (who : Requester) (off : BitVec 26)
  /-- TICK_DUE (R153): A Calliope generator counts from P-1 to 0, and the next tick of its context becomes due. -/
  | tickDue (c : Ctx) (now : Nat)
  /-- TICK_START (R145): Tick n+1 starts on the first timebase edge at which it is due and tick n meets its late policy, marker, drain-token and sweep-hold conditions. -/
  | tickStart (c : Ctx) (now : Nat)
  /-- UPDATE_PHASE_BEGIN (R146): An engine takes the tick start at its next update-phase boundary, sets U to n+1 and begins the update phase. -/
  | updatePhaseBegin (t : Tile) (e : Eng) (bad : W32) (touchBad : List (Fin 8192)) (idle : Nat)
  /-- LD (R71): Micro-op LD loads field DST of each enabled lane's record into its register. -/
  | ld (t : Tile) (e : Eng) (dst : Fin 4) (pred : Fin 4) (sbe bad : W32)
  /-- ST (R71): Micro-op ST stores register DST into the lane's record field. -/
  | st (t : Tile) (e : Eng) (dst : Fin 4) (pred : Fin 4)
  /-- ADD (R71): Micro-op ADD writes the saturated sum of sources A and B to DST. -/
  | add (t : Tile) (e : Eng) (dst : Fin 4) (a b : Fin 8) (k : S24) (pred : Fin 4)
  /-- SUB (R71): Micro-op SUB writes the saturated difference of sources A and B to DST. -/
  | sub (t : Tile) (e : Eng) (dst : Fin 4) (a b : Fin 8) (k : S24) (pred : Fin 4)
  /-- MULK (R71): Micro-op MULK multiplies source A by the constant K ÷ 2^16 with rounding and saturation. -/
  | mulk (t : Tile) (e : Eng) (dst : Fin 4) (a : Fin 8) (k : S24) (pred : Fin 4)
  /-- SHR (R71): Micro-op SHR shifts source A right arithmetically by K[4:0]. -/
  | shr (t : Tile) (e : Eng) (dst : Fin 4) (a : Fin 8) (k : S24) (pred : Fin 4)
  /-- DECAY (R77): Micro-op DECAY decays source A toward the selected table's rest value over Δt, with the long path when enabled. -/
  | decay (t : Tile) (e : Eng) (dst : Fin 4) (a : Fin 8) (k : S24) (pred : Fin 4)
  /-- SLOT (R74): Micro-op SLOT reads the lane's Carousel slot for tick n into T, scaled by SLOT_SHIFT, and clears it. -/
  | slot (t : Tile) (e : Eng) (pred : Fin 4) (bad : Byte) (hold : Fin 5)
  /-- CMPGE (R69): Micro-op CMPGE sets predicate P to a ≥ b in enabled lanes and 0 in other lanes of the mask. -/
  | cmpge (t : Tile) (e : Eng) (a b : Fin 8) (k : S24) (pred : Fin 4)
  /-- CMPLT (R69): Micro-op CMPLT sets predicate P to a < b in enabled lanes and 0 in other lanes of the mask. -/
  | cmplt (t : Tile) (e : Eng) (a b : Fin 8) (k : S24) (pred : Fin 4)
  /-- SEL (R71): Micro-op SEL writes a or b to DST by predicate P. -/
  | sel (t : Tile) (e : Eng) (dst : Fin 4) (a b : Fin 8) (k : S24) (pred : Fin 4)
  /-- CLR (R71): Micro-op CLR writes the constant K to DST. -/
  | clr (t : Tile) (e : Eng) (dst : Fin 4) (k : S24) (pred : Fin 4)
  /-- NOISE (R72): Micro-op NOISE adds shifted bits of the lane LFSR to source A and steps the LFSR. -/
  | noise (t : Tile) (e : Eng) (dst : Fin 4) (a : Fin 8) (k : S24) (pred : Fin 4)
  /-- REFR (R79): Micro-op REFR sets or tests the refractory count, updates Q and sets the re-touch bit. -/
  | refr (t : Tile) (e : Eng) (k : S24) (pred : Fin 4)
  /-- EMIT (R82): Micro-op EMIT places one event per enabled lane in its emit-queue section, in ascending lane order. -/
  | emit (t : Tile) (e : Eng) (a : Fin 8) (k : S24) (pred : Fin 4)
  /-- EMIT_CONTINUE (R82): A held EMIT writes further lanes' events as emit-queue entries free, until every enabled lane is written. -/
  | emitContinue (t : Tile) (e : Eng) (stall : Nat)
  /-- END (R71): Micro-op END writes LAST_TICK, REFR, FLAGS and always-active touch bits, and finishes the line. -/
  | endLine (t : Tile) (e : Eng) (pred : Fin 4) (bad : W32)
  /-- RUNNING_ORDER_FAULT (R75): An illegal OP or a missing END at word 63 ends the line, records the fault and writes no pending results. -/
  | runningOrderFault (t : Tile) (e : Eng) (damaged : Bool) (bad : W32)
  /-- STATE_WRITEBACK (R84): A single-bit error corrected by LD is written back through the write port in the next free write-port cycle. -/
  | stateWriteback (t : Tile) (e : Eng)
  /-- POST_COUNT_WRITE (R174): A queued post-count increment is written to trace memory in a free trace-memory cycle. -/
  | postCountWrite (t : Tile) (e : Eng)
  /-- UPDATE_COMPLETE (R142): Once every engine of a context has ended its phase and passed its stamped events through lookup, tick n is update-complete. -/
  | updateComplete (c : Ctx) (now : Nat)
  /-- DESCRIPTOR_WRITE (R56): A write of NE_POP_LO_n commits the descriptor, or rejects it and sets DESC_ERR. -/
  | descriptorWrite (t : Tile) (e : Eng) (n : Fin 64) (half : Half) (v : W64)
  /-- DESCRIPTOR_TAKE_EFFECT (R57): A written population descriptor takes effect at the next boundary between update phases. -/
  | descriptorTakeEffect (t : Tile) (e : Eng)
  /-- NE_NOISE_SEED_WRITE (R72): A write of NE_NOISE_SEED reseeds all 32 lane LFSRs. -/
  | neNoiseSeedWrite (t : Tile) (e : Eng) (v : W32)
  /-- NE_SR_SEED_WRITE (R111): A write of NE_SR_SEED reseeds all 32 rounding LFSRs. -/
  | neSrSeedWrite (t : Tile) (e : Eng) (v : W32)
  /-- NE_DBG_REC_LO_READ (R93): A read of NE_DBG_REC_LO captures all 16 bytes of the selected record between lines. -/
  | neDbgRecLoRead (t : Tile) (e : Eng)
  /-- NE_DBG_REC_HI_WRITE (R93): A write of NE_DBG_REC_HI is held until the next write of NE_DBG_REC_LO. -/
  | neDbgRecHiWrite (t : Tile) (e : Eng) (half : Half) (v : W64)
  /-- NE_DBG_REC_LO_WRITE (R93): A write of NE_DBG_REC_LO commits all 16 bytes of the record between lines, after any line being updated. -/
  | neDbgRecLoWrite (t : Tile) (e : Eng) (half : Half) (v : W64)
  /-- RUNNING_ORDER_WRITE (R88): A direct write through the running-order aperture is applied between lines, unchecked. -/
  | runningOrderWrite (t : Tile) (e : Eng) (w : Fin 512) (half : Half) (v : W64)
  /-- NE_PROJ_WRITE (R134): A write of NE_PROJ_p takes effect between rows, after flushing any held gather state of the projection. -/
  | neProjWrite (t : Tile) (e : Eng) (p : Fin 32) (half : Half) (v : W64)
  /-- SPILL_MAX_WRITE (R129): A write of SPILL_MAX takes effect as the largest count that stays clear of the plastic region, setting SPILL_CLIP if limited. -/
  | spillMaxWrite (t : Tile) (e : Eng) (v : W32)
  /-- EVENT_TAKE (R120): The synapse pipeline takes an event from a delivery queue, looks up its rows and integrates them. -/
  | eventTake (t : Tile) (e : Eng) (bad : Option Nat) (corrected : List (BitVec 48)) (slotBad : List (Fin 65536)) (touchBad : List (Fin 8192)) (stall : SynStall)
  /-- GATHER_FLUSH_IDLE (R116): The held gather state is flushed when both delivery queues are empty and no spill fetch has returned. -/
  | gatherFlushIdle (t : Tile) (e : Eng) (bad : Option Nat)
  /-- GATHER_FLUSH_AGE (R116): The held gather state is flushed when it has been held FLUSH_AGE × 16 core cycles. -/
  | gatherFlushAge (t : Tile) (e : Eng) (bad : Option Nat)
  /-- SPILL_ROW_LAND (R128): A fetched spilled row lands, has its contents checked and is integrated after waiting express events. -/
  | spillRowLand (t : Tile) (e : Eng) (k : Nat) (bad : Option Nat)
  /-- REFETCH_RETURN (R130): The refetched unit is written back and the pipeline resumes at the failed word. -/
  | refetchReturn (t : Tile) (e : Eng) (ok : Bool) (bad : Option Nat)
  /-- CLP_PERIOD_WRITE (R154): A write of CLP_PERIOD_n is accepted and scheduled for the fourth timebase edge. -/
  | clpPeriodWrite (c : Ctx) (v : W32) (now : Nat)
  /-- CLP_PERIOD_EFFECT (R154): On the fourth edge the new period takes effect, stopping, clamping, continuing or making a tick due. -/
  | clpPeriodEffect (c : Ctx) (now : Nat)
  /-- CLP_SYNC_WRITE (R156): A write of CLP_SYNC schedules phase loads of the selected generators. -/
  | clpSyncWrite (v : W32) (now : Nat)
  /-- CLP_SYNC_LOAD (R156): On the fourth edge each selected generator loads (P - φ) mod P, or holds the load to its tick start. -/
  | clpSyncLoad (now : Nat)
  /-- CLP_STAGGER_WRITE (R157): A write of CLP_STAGGER with GO sets evenly spread phases and synchronises, or sets STAGGER_ERR. -/
  | clpStaggerWrite (v : W32) (now : Nat)
  /-- CLP_STEP_WRITE (R158): A write of CLP_STEP_n adds stepped ticks while the period is 0, or sets STEP_ERR. -/
  | clpStepWrite (c : Ctx) (v : W32)
  /-- STEPPED_TICK_DUE (R158): A stepped tick becomes due on the edge after the previous tick is update-complete. -/
  | steppedTickDue (c : Ctx) (now : Nat)
  /-- STRETCH_FALLBACK (R148): Under Stretch, MAXSTRETCH past the due edge lets the next tick start undrained and counts a fall-back. -/
  | stretchFallback (c : Ctx) (now : Nat)
  /-- DRAIN_WAVE (R144): A wave sums all in-flight counters by context, parity and version and delivers them to Calliope. -/
  | drainWave (now : Nat)
  /-- INTERMISSION_REQUEST (R159): The Ringmaster requests an Intermission after tick n for a sweep, migration copy or table switch. -/
  | intermissionRequest (c : Ctx) (tick : Nat) (work : Fin 3) (est now : Nat)
  /-- INTERMISSION_OPEN (R159): Once tick n is update-complete and drained, the Intermission opens, gather states flush and inbound events of the context stall. -/
  | intermissionOpen (c : Ctx) (now : Nat)
  /-- INTERMISSION_DONE (R160): The work reports done and the next tick starts on the following edge if due; length and overrun are counted. -/
  | intermissionDone (c : Ctx) (now : Nat)
  /-- TICK_MARKER_RECEIVE (R161): A tick marker arriving on a port updates the marker condition for starting the next tick. -/
  | tickMarkerReceive (p : Port) (now : Nat)
  /-- DRAIN_TOKEN_SEND (R304): The rim sends DRAIN(n) on marker ports once tick n is update-complete and gateway-bound copies are zero. -/
  | drainTokenSend (c : Ctx) (p : Port)
  /-- DRAIN_TOKEN_RECEIVE (R305): A received drain token updates RIM_DT_c_p for the drain-token condition. -/
  | drainTokenReceive (p : Port)
  /-- TUM_EPOCH_LEN_WRITE (R173): A write of TUM_EPOCH_LEN_c arms epoch length, base and mode. -/
  | tumEpochLenWrite (t : Tile) (c : Ctx) (v : W32)
  /-- TUM_PL_WRITE (R197): A write of TUM_PL_e sets the plastic region, or is ignored with CFG_ERR when it breaks limits. -/
  | tumPlWrite (t : Tile) (e : Eng) (v : W32)
  /-- TUM_SEED_WRITE (R180): A write of TUM_SEED reseeds the 16 Tumbler lane LFSRs. -/
  | tumSeedWrite (t : Tile) (v : W32)
  /-- RULE_APERTURE_WRITE (R182): A direct write of a learning rule word is accepted unchecked for application between sweeps. -/
  | ruleApertureWrite (t : Tile) (c : Ctx) (r : Fin 4) (w : Fin 16) (v : W32)
  /-- RULE_WRITE_APPLY (R182): A held rule-aperture write is applied between sweeps. -/
  | ruleWriteApply (t : Tile)
  /-- TUM_PRE_RECORD (R174): Tumbler takes a pre record from its queue and adds 1 to the pre count of its epoch. -/
  | tumPreRecord (t : Tile)
  /-- TUM_MODULATOR (R184): A modulator event presented to Tumbler is added into matching channel accumulators. -/
  | tumModulator (t : Tile)
  /-- SWEEP_WORD_READ (R187): Tumbler reads one plastic word and runs each lane's rule through its pipeline. -/
  | sweepWordRead (t : Tile) (found : List SweepFinding) (corrected : List (BitVec 48))
  /-- LRN_ADD (R180): Learning op ADD writes sat16(a + b). -/
  | lrnAdd (t : Tile) (lane : Fin 16) (dst : Fin 4) (a b : Fin 8) (k : BitVec 16) (pred : Fin 8)
  /-- LRN_SUB (R180): Learning op SUB writes sat16(a - b). -/
  | lrnSub (t : Tile) (lane : Fin 16) (dst : Fin 4) (a b : Fin 8) (k : BitVec 16) (pred : Fin 8)
  /-- LRN_MUL (R180): Learning op MUL writes the rounded product a × b ÷ 256. -/
  | lrnMul (t : Tile) (lane : Fin 16) (dst : Fin 4) (a b : Fin 8) (k : BitVec 16) (pred : Fin 8)
  /-- LRN_MULK (R180): Learning op MULK writes the rounded product a × K ÷ 256. -/
  | lrnMulk (t : Tile) (lane : Fin 16) (dst : Fin 4) (a : Fin 8) (k : BitVec 16) (pred : Fin 8)
  /-- LRN_SHR (R180): Learning op SHR shifts a right by K[3:0]. -/
  | lrnShr (t : Tile) (lane : Fin 16) (dst : Fin 4) (a : Fin 8) (k : BitVec 16) (pred : Fin 8)
  /-- LRN_MIN (R180): Learning op MIN writes min(a, b). -/
  | lrnMin (t : Tile) (lane : Fin 16) (dst : Fin 4) (a b : Fin 8) (k : BitVec 16) (pred : Fin 8)
  /-- LRN_MAX (R180): Learning op MAX writes max(a, b). -/
  | lrnMax (t : Tile) (lane : Fin 16) (dst : Fin 4) (a b : Fin 8) (k : BitVec 16) (pred : Fin 8)
  /-- LRN_CMPGE (R180): Learning op CMPGE sets P to a ≥ b. -/
  | lrnCmpge (t : Tile) (lane : Fin 16) (a b : Fin 8) (k : BitVec 16) (pred : Fin 8)
  /-- LRN_CMPLT (R180): Learning op CMPLT sets P to a < b. -/
  | lrnCmplt (t : Tile) (lane : Fin 16) (a b : Fin 8) (k : BitVec 16) (pred : Fin 8)
  /-- LRN_SEL (R180): Learning op SEL writes a or b by P. -/
  | lrnSel (t : Tile) (lane : Fin 16) (dst : Fin 4) (a b : Fin 8) (k : BitVec 16) (pred : Fin 8)
  /-- LRN_SRND (R180): Learning op SRND rounds a stochastically by the lane LFSR and steps it. -/
  | lrnSrnd (t : Tile) (lane : Fin 16) (dst : Fin 4) (a : Fin 8) (k : BitVec 16) (pred : Fin 8)
  /-- LRN_MOV (R180): Learning op MOV writes a to DST. -/
  | lrnMov (t : Tile) (lane : Fin 16) (dst : Fin 4) (a : Fin 8) (k : BitVec 16) (pred : Fin 8)
  /-- LRN_END (R181): Learning op END commits clamped CODE, eligibility and delay of each enabled lane. -/
  | lrnEnd (t : Tile) (lane : Fin 16) (pred : Fin 8)
  /-- SWEEP_WORD_WRITE (R181): A changed plastic word is written back 17 core cycles after its read, when its bank grants it, and marked dirty. -/
  | sweepWordWrite (t : Tile)
  /-- SWEEP_END (R188): A tile's sweep ends when its last write and last scale line are done. -/
  | sweepEnd (t : Tile) (cycles hold wait : Nat)
  /-- WRITE_THROUGH_COMPLETE (R192): When the last write-through packet completes, TUM_WT_c advances to the epoch. -/
  | writeThroughComplete (t : Tile) (packets : Nat)
  /-- LOAD_DESCRIPTION (R206): Command LOAD_DESCRIPTION checks and accepts a Bilbex description for a context, or refuses it. -/
  | loadDescription (id : Nat) (data : Option (List Byte))
  /-- PLACE (R207): Command PLACE splits, places, schedules and expands a context's network and flips to the new version. -/
  | place (id : Nat) (plan : Plan)
  /-- PIN_HINT (R218): Command PIN_HINT replaces a population's pin and migrates blocks that break it. -/
  | pinHint (id : Nat)
  /-- REBALANCE_PERIOD (R223): Every USH_PERIOD Usher reads the latest dump and decides migrations and promotions. -/
  | rebalancePeriod (moves : List Move) (promotions demotions : List RowMove)
  /-- BACKGROUND_COPY_DONE (R224): The background copy of a migration completes and the final-copy Intermission is requested. -/
  | backgroundCopyDone (c : Ctx) (ok : Bool) (est now : Nat) (moves : List Move)
  /-- HOLD_OVER_END (R226): After twice USH_INFLIGHT_MAX the old engine's memory is freed and it becomes spare or goes Out. -/
  | holdOverEnd (c : Ctx) (now own : Nat) (moves : List Move)
  /-- DEMOTE_FREE (R222): A demoted row's on-die words are freed once a tick of each parity has drained. -/
  | demoteFree 
  /-- SCHEDULE_REBUILD (R217): Usher rebuilds the class-0 schedule in the inactive version after a lane degrade, unit loss or migration. -/
  | scheduleRebuild (c : Ctx) (est now : Nat)
  /-- LOAD_SUMMARY_EXCHANGE (R232): Neighbouring chips exchange load summaries over class-3 messages once per USH_PERIOD. -/
  | loadSummaryExchange (q : Fin 16) (payload : List Byte)
  /-- FABRIC_INTERMISSION_ANNOUNCE (R307): The lead chip names tick n and sends the work to every chip of the context. -/
  | fabricIntermissionAnnounce (c : Ctx) (tick dist est now : Nat) (chips : List (BitVec 15)) (q : Fin 16) (payload : List Byte)
  /-- FABRIC_INTERMISSION_DONE (R307): A chip reports its fabric Intermission work done, or late, to the lead chip. -/
  | fabricIntermissionDone (c : Ctx) (late : Bool) (lead : BitVec 15) (q : Fin 16) (payload : List Byte)
  /-- FABRIC_INTERMISSION_GO (R307): After all chips report done, the lead chip sends go and tick n+1 may start. -/
  | fabricIntermissionGo (c : Ctx) (chips : List (BitVec 15)) (q : Fin 16) (payload : List Byte)
  /-- FANOUT_LOOKUP (R38): The tile looks up an emitted event's key in the selected fan-out version and builds tile and gateway flits. -/
  | fanoutLookup (t : Tile) (w : LookupAt) (bad : Bool)
  /-- POLICER_REFILL (R254): At each frame start of the half, each class-0 bucket gains RATE tokens up to BURST. -/
  | policerRefill (h : Fin 2)
  /-- GATEWAY_ENTRY (R40): An inbound word enters the mesh at a gateway and is looked up in that tile's fan-out table. -/
  | gatewayEntry (g : Fin 8) (w : LookupAt) (bad : Bool)
  /-- FLIT_ROUTE (R249): A flit entering a router input is checked, corrected, combined and split by its mask along the dimension-ordered tree. -/
  | flitRoute (t : Tile) (inp : Fin 6) (found : FlitFinding) (wake : Nat) (entryBad : Bool)
  /-- OUTPUT_GRANT (R247): An output port grants a waiting flit its class-0 slot or an arbitrated cycle, given a credit. -/
  | outputGrant (t : Tile) (out : Fin 6) (cycles : Fin 64) (badSlot : Option (Fin 2))
  /-- CREDIT_RETURN (R248): A returned credit arrives at the upstream output one core cycle after the flit left the buffer. -/
  | creditReturn (t : Tile) (out : Fin 6) (cls : Fin 4)
  /-- COMBINE_RELEASE (R260): A held combining entry leaves as a class-1 flit with HELD = 1 when its TIMEOUT passes. -/
  | combineRelease (t : Tile) (k : Fin 16) (bad : Bool)
  /-- LOCAL_PORT_PRESENT (R250): A local port presents a spike word to every engine holding its context when each has a free queue entry. -/
  | localPortPresent (t : Tile) (cls : Fin 4)
  /-- MID_FT_LO_READ (R273): A read of MID_FT_LO captures all 128 bits of the selected fan-out entry. -/
  | midFtLoRead (t : Tile)
  /-- MID_FT_HI_WRITE (R273): A write of MID_FT_HI is held until the next write of MID_FT_LO. -/
  | midFtHiWrite (t : Tile) (half : Half) (v : W64)
  /-- MID_FT_LO_WRITE (R263): A write of MID_FT_LO commits the whole entry if its version is deselected and drained, else sets WR_BUSY. -/
  | midFtLoWrite (who : Requester) (t : Tile) (half : Half) (v : W64)
  /-- SLOT_TABLE_WRITE (R263): A slot-table aperture write is accepted only into a deselected, drained version. -/
  | slotTableWrite (t : Tile) (ver : Fin 2) (p : Fin 4) (sl : Fin 64) (v : W16)
  /-- MID_FT_REGION_WRITE (R274): A write of MID_FT_REGION_c sets a context's fan-out range, or is ignored with CFG_ERR. -/
  | midFtRegionWrite (t : Tile) (c : Ctx) (v : W32)
  /-- MID_COMB_WRITE (R260): A write of MID_COMB sets the combining timeout; a write of 0 releases every held entry. -/
  | midCombWrite (t : Tile) (v : W32)
  /-- MID_C0POL_WRITE (R254): A write of MID_C0POL_i configures a policer and fills its bucket in the next cycle. -/
  | midC0polWrite (t : Tile) (i : Fin 16) (v : W32)
  /-- FANOUT_ENTRY_REWRITE (R270): The tile controller rewrites an uncorrectable fan-out entry from Usher's copy within 1 ms. -/
  | fanoutEntryRewrite (t : Tile) (ver : Fin 2) (i : BitVec 12)
  /-- TABLE_UPDATE (R384): Command TABLE_UPDATE writes fan-out, rim or slot-table entries into the context's inactive version. -/
  | tableUpdate (id : Nat) (data : Option (List Byte))
  /-- TABLE_SWITCH (R384): Command TABLE_SWITCH flips a context's tile and rim versions, in an Intermission when running. -/
  | tableSwitch (id est now : Nat)
  /-- ELK_CTRL_WRITE (R289): A write of ELK_CTRL_p sets enable and timeouts; EN on a licensed DOWN port starts TRAINING. -/
  | elkCtrlWrite (p : Port) (v : W32)
  /-- ELK_RETRAIN (R289): A write of ELK_CTRL_p.RETRAIN takes the port down and trains it again. -/
  | elkRetrain (p : Port)
  /-- LANE_TRAINING_DONE (R289): Both lanes report training done and the port moves to LOCKING. -/
  | laneTrainingDone (p : Port) (lane : Fin 2)
  /-- TRAIN_TIMEOUT (R289): ELK_TRAIN_TO expires: with one lane done the port locks on one lane; with none it goes DOWN and trains again. -/
  | trainTimeout (p : Port)
  /-- CODEWORD_RECEIVE (R279): A received codeword is FEC-decoded and its header checked for lock gain or loss. -/
  | codewordReceive (p : Port) (lane0 lane1 : List (BitVec 10)) (ms : Bool)
  /-- FRAME_RECEIVE (R291): A received frame is checked and its flits, credits, ACK, NAK and CAP nibble are taken by the replay rules. -/
  | frameReceive (p : Port)
  /-- FRAME_TRANSMIT (R282): Each frame period the port assembles and sends a frame of class-0, head and data flits, or a replayed frame. -/
  | frameTransmit (p : Port) (prefer : Fin 3) (stall : Nat)
  /-- REPLAY_TIMEOUT (R290): The oldest stored frame unacknowledged for REPLAY_TO starts a replay. -/
  | replayTimeout (p : Port)
  /-- LINK_DOWN (R292): Loss of lock, DOWN_TO, twelve bad frames or four fruitless replays take the port down. -/
  | linkDown (p : Port)
  /-- LANE_FAIL (R294): A lane losing signal or exceeding ELK_LANE_SER fails; the port changes to one lane and comes up DEGRADED. -/
  | laneFail (p : Port) (lane : Fin 2)
  /-- RIM_LOOKUP (R296): A word entering the rim switch is looked up and copied to ports and gateways with failover, U-turn and hop rules. -/
  | rimLookup (src : RimSource) (found : FlitFinding) (joins entryBad : Bool)
  /-- RIM_GATEWAY_INGRESS (R357): A word entering the rim from a gateway goes to matching output ring and AERO, and to the rim switch when passed. -/
  | rimGatewayIngress (g : Fin 8) (found : FlitFinding)
  /-- OUTPUT_RING_TIMER (R359): TIMER_US after the first unsignalled entry, the output ring signals its vector. -/
  | outputRingTimer (c : Ctx) (j : Fin 4)
  /-- AERO_SEND (R325): AERO drives A from the next buffered word and raises REQ once ACK is low. -/
  | aeroSend (ackLow : Bool)
  /-- AERO_ACK_RISE (R325): ACK rising on AERO lets it lower REQ and finish the word. -/
  | aeroAckRise 
  /-- AERO_HS_TIMEOUT (R325): ACK not rising HS_TO after REQ drops the word at DP-SNS-AEROHS and lowers REQ. -/
  | aeroHsTimeout 
  /-- AERO_STUCK (R325): ACK held high HS_TO after REQ fell sets AERO_STUCK and stops AERO until ACK falls. -/
  | aeroStuck 
  /-- XPT_RETRANSMIT (R309): An unacknowledged packet is retransmitted after RIM_XPT.TO with RETRY raised. -/
  | xptRetransmit (chip : BitVec 15) (c : Ctx) (cls : Fin 2) (tseq : BitVec 16)
  /-- XPT_RECEIVE_BULK (R310): A class-2 packet at its destination is written, or dropped as duplicate or outside the window. -/
  | xptReceiveBulk 
  /-- BULK_WRITE (R549): A class-2 DATA packet writes LPDDR5X or SRAM, ignoring bytes an endpoint may not write and flagging the counter. -/
  | bulkWrite (loc : Fin 33)
  /-- XPT_RECEIVE_MESSAGE (R311): A class-3 packet is taken only when its TSEQ equals E; others are dropped as duplicate or out of order. -/
  | xptReceiveMessage 
  /-- XPT_SKIP (R311): After 5 × TO of packets ahead of E, the receiver skips E to the lowest remembered TSEQ. -/
  | xptSkip (chip : BitVec 15) (c : Ctx)
  /-- ACK_SEND (R312): A receiver sends an ACK after ACK_DELAY, after 16 unacknowledged packets, or at once on a duplicate. -/
  | ackSend (chip : BitVec 15) (c : Ctx) (cls : Fin 2)
  /-- ACK_RECEIVE (R312): A sender takes every packet up to B and every bit set in the ACK as acknowledged. -/
  | ackReceive 
  /-- RIM_RESET (R314): A write of RST_CTRL.RIM idles transmitters, drops rim flits, clears the rim table and resets the rim domain. -/
  | rimReset 
  /-- RIM_TAB_LO_READ (R317): A read of RIM_TAB_LO captures all 128 bits of the selected rim entry. -/
  | rimTabLoRead 
  /-- RIM_TAB_HI_WRITE (R317): A write of RIM_TAB_HI is held until the next write of RIM_TAB_LO. -/
  | rimTabHiWrite (half : Half) (v : W64)
  /-- RIM_TAB_LO_WRITE (R318): A write of RIM_TAB_LO commits the entry when its version is deselected and drained, else sets WR_BUSY. -/
  | rimTabLoWrite (who : Requester) (half : Half) (v : W64)
  /-- RIM_TAB_REGION_WRITE (R318): A write of RIM_TAB_REGION_c sets a context's rim range, or is ignored with CFG_ERR. -/
  | rimTabRegionWrite (c : Ctx) (v : W32)
  /-- RIM_TABLE_REWRITE (R412): The Ringmaster rewrites an uncorrectable rim-table entry from Usher's copy within 1 ms. -/
  | rimTableRewrite (ver : Fin 2) (i : BitVec 14)
  /-- CSI_PACKET_RECEIVE (R320): A CSI-2 packet is checked for header ECC, type, length, CRC and trailer, then its words decoded and checked. -/
  | csiPacketReceive (n : Fin 4) (hdr : W32) (bytes : List Byte) (nows : List Nat)
  /-- AERI_REQ_RISE (R322): REQ rising on an AERI input takes the 24-bit address and raises ACK when the buffer has room. -/
  | aeriReqRise (i : Fin 2) (a : BitVec 24) (now : Nat)
  /-- AERI_ACK_RAISE (R323): A full AERI buffer gaining room lets the PMZ1 raise the held ACK. -/
  | aeriAckRaise (i : Fin 2) (now : Nat)
  /-- AERI_REQ_FALL (R322): REQ falling on an AERI input lowers ACK. -/
  | aeriReqFall (i : Fin 2)
  /-- AERI_HS_TIMEOUT (R323): REQ high HS_TO after ACK rose sets HS_ERR and keeps ACK high. -/
  | aeriHsTimeout (i : Fin 2)
  /-- PIXEL_SCAN (R331): The background scan clears VALID of pixel entries 16,384 µs old or more, visiting each every 8 ms. -/
  | pixelScan (now : Nat)
  /-- SNS_IN_CFG_WRITE (R329): A write of SNS_IN_CFG_i sets the input; EN from 0 to 1 restarts anchor, t_max and ALIVE. -/
  | snsInCfgWrite (i : Fin 18) (half : Half) (v : W64)
  /-- SNS_CSI_CTRL_WRITE (R321): A write of SNS_CSI_CTRL_n applies LANES and TRAILER when EN changes from 0 to 1. -/
  | snsCsiCtrlWrite (n : Fin 4) (v : W32)
  /-- CRC_PARAM_WRITE (R339): A write of CRC_PARAM_n is held until the next CRC_CFG_n write. -/
  | crcParamWrite (n : Fin 4) (half : Half) (v : W64)
  /-- CRC_CFG_WRITE (R339): A write of CRC_CFG_n arms the configuration and held parameters, or is ignored with CFG_ERR for a bad width. -/
  | crcCfgWrite (n : Fin 4) (half : Half) (v : W64)
  /-- PERST_ASSERT (R350): PERST_N asserted resets the PCIe endpoint and Box Office and stops every ring and queue. -/
  | perstAssert 
  /-- PERST_DEASSERT (R350): PERST_N deasserted lets configuration space respond as bring-up gives. -/
  | perstDeassert (x : BootFind)
  /-- HOT_RESET (R350): A PCIe hot reset starts a warm reset of the device. -/
  | hotReset (x : BootFind)
  /-- PF_FLR (R350): A PF FLR starts a warm reset of the device. -/
  | pfFlr (x : BootFind)
  /-- VF_FLR (R350): A VF FLR resets context n and returns VF n's registers and rings to reset values. -/
  | vfFlr (c : Ctx)
  /-- INJ_TAIL_WRITE (R355): A TAIL doorbell write of an injection ring is taken, or ignored with ERR when out of range. -/
  | injTailWrite (c : Ctx) (v : W32)
  /-- INJ_CTRL_WRITE (R362): A write of HST_INJ_CTRL sets the ring; EN from 0 to 1 sets HEAD and TAIL to 0. -/
  | injCtrlWrite (c : Ctx) (v : W32)
  /-- INJ_FETCH (R355): The device issues a read of up to 512 injection-ring entries below TAIL. -/
  | injFetch (c : Ctx)
  /-- INJ_FETCH_COMPLETE (R354): Fetched entries are checked and handed to the rim switch and HEAD advances; an error stops the ring. -/
  | injFetchComplete (c : Ctx) (data : Option (List Byte))
  /-- OUT_HEAD_WRITE (R358): A HEAD doorbell write of an output ring frees entries, or is ignored with ERR when out of range. -/
  | outHeadWrite (c : Ctx) (j : Fin 4) (v : W32)
  /-- OUT_CTRL_WRITE (R362): A write of HST_OUT_CTRL_j sets the ring; EN from 0 to 1 resets HEAD, TAIL and PHASE. -/
  | outCtrlWrite (c : Ctx) (j : Fin 4) (half : Half) (v : W64)
  /-- SMB_STATUS_READ (R363): SMBus code 0x00 returns READY, FAULT_N, alert latch, STALE and power state. -/
  | smbStatusRead (pec : Bool)
  /-- SMB_HOTTEST_READ (R363): SMBus code 0x01 returns the hottest thermal sensor. -/
  | smbHottestRead (pec : Bool)
  /-- SMB_SENSOR_READ (R363): SMBus codes 0x02 to 0x11 return one thermal sensor after calibration. -/
  | smbSensorRead (n : Fin 16) (pec : Bool)
  /-- SMB_POWER_READ (R363): SMBus code 0x20 returns package power. -/
  | smbPowerRead (pec : Bool)
  /-- SMB_RAIL_READ (R363): SMBus codes 0x21 to 0x24 return a rail voltage. -/
  | smbRailRead (k : Fin 4) (pec : Bool)
  /-- SMB_RECORDS_READ (R363): SMBus code 0x30 returns the Barker records held. -/
  | smbRecordsRead (pec : Bool)
  /-- SMB_SERIAL_READ (R363): SMBus code 0x40 returns the device serial number. -/
  | smbSerialRead (pec : Bool)
  /-- SMB_FW_VERSION_READ (R363): SMBus code 0x41 returns the firmware version in use. -/
  | smbFwVersionRead (pec : Bool)
  /-- SMB_CLEAR_ALERT (R566): SMBus code 0xF0 clears the THERM_ALERT_N latch when the hottest reading is below the hysteresis. -/
  | smbClearAlert (pec : Option (BitVec 8))
  /-- SMB_UNKNOWN_CODE (R363): Any other SMBus code is NACKed. -/
  | smbUnknownCode (code : BitVec 8)
  /-- SMB_CLOCK_LOW_TIMEOUT (R363): After 35 ms of clock-low the SMBus target releases the bus. -/
  | smbClockLowTimeout 
  /-- EXTEST (R365): JTAG EXTEST drives boundary pins, in DEPLOYED only while RESET_N is low. -/
  | extest (resetLow : Bool)
  /-- SAMPLE_PRELOAD (R364): JTAG SAMPLE/PRELOAD samples and preloads the boundary register. -/
  | samplePreload (sampled shifted : List Bool)
  /-- IDCODE (R364): JTAG IDCODE selects the identification register 0x1A71_5F3D. -/
  | idcode 
  /-- CLAMP (R365): JTAG CLAMP holds outputs from the boundary register with bypass selected. -/
  | clamp (resetLow : Bool)
  /-- HIGHZ (R365): JTAG HIGHZ places outputs in high impedance. -/
  | highz (resetLow : Bool)
  /-- EXTEST_PULSE (R365): JTAG EXTEST_PULSE tests AC-coupled lanes under IEEE 1149.6. -/
  | extestPulse (resetLow : Bool)
  /-- EXTEST_TRAIN (R365): JTAG EXTEST_TRAIN tests AC-coupled lanes with a pulse train under IEEE 1149.6. -/
  | extestTrain (resetLow : Bool)
  /-- BYPASS (R364): JTAG BYPASS, or any unlisted code, selects the bypass register. -/
  | bypass 
  /-- PRIVATE_TAP_INSTRUCTION (R445): A private TAP code acts only under debug SCOPE bit 3, otherwise as BYPASS. -/
  | privateTapInstruction (code : BitVec 8)
  /-- TAP_RESET (R364): TRST_N resets the TAP asynchronously. -/
  | tapReset 
  /-- SQ_TAIL_WRITE (R367): An SQ TAIL doorbell write is taken, or ignored with ERR when out of range. -/
  | sqTailWrite (q : Fin 24) (v : W32)
  /-- SQ_CTRL_WRITE (R374): A write of HST_SQ_CTRL_q sets the SQ; EN from 0 to 1 resets HEAD, TAIL and the alive value. -/
  | sqCtrlWrite (q : Fin 24) (v : W32)
  /-- CQ_CTRL_WRITE (R370): A write of HST_CQ_CTRL_q sets the CQ; EN from 0 to 1 resets pointers and releases held records. -/
  | cqCtrlWrite (n : Fin 24) (half : Half) (v : W64)
  /-- CQ_HEAD_WRITE (R368): A CQ HEAD doorbell write frees records, or is ignored with ERR when out of range. -/
  | cqHeadWrite (n : Fin 24) (v : W32)
  /-- COMMAND_TAKE (R373): The Box Office fetches a command packet, checks CRC, alive, opcode, length and licence, and executes or passes it. -/
  | commandTake (q : Fin 24) (packet : Option (List Byte))
  /-- CQ_RECORD_WRITE (R368): A completed command's status record is written at the CQ's TAIL in take order once there is room. -/
  | cqRecordWrite (q : Fin 25) (ok : Bool)
  /-- CQ_SIGNAL_TIMER (R368): TIMER_US after the first unsignalled record, the CQ signals its vector. -/
  | cqSignalTimer (n : Fin 24)
  /-- REMOTE_COMMAND (R388): A 64-byte message to agent 0x00 queue 15 is taken as a remote command and its record sent back as a message. -/
  | remoteCommand 
  /-- NOP (R382): Command NOP does nothing and completes OK. -/
  | nopCmd (id : Nat)
  /-- IDENTIFY (R382): Command IDENTIFY returns serial, firmware version, licences, capacity, lifecycle and grade. -/
  | identify (id : Nat)
  /-- READ_REG (R383): Command READ_REG acts as a load of WIDTH bytes at OFFSET of the queue's view. -/
  | readReg (id : Nat)
  /-- WRITE_REG (R383): Command WRITE_REG acts as a store of WIDTH bytes at OFFSET of the queue's view. -/
  | writeReg (id : Nat) (now : Nat) (x : BootFind)
  /-- READ_COUNTERS (R383): Command READ_COUNTERS writes COUNT 64-bit counters to host memory, from one freeze when FREEZE is set. -/
  | readCounters (id : Nat) (now : Nat) (ok : Bool)
  /-- START_CONTEXT (R383): Command START_CONTEXT sets the tick counter, touches always-active neurons and releases a placed context. -/
  | startContext (id : Nat) (now : Nat)
  /-- STOP_CONTEXT (R383): Command STOP_CONTEXT starts no further tick and completes when the last tick drains. -/
  | stopContext (id : Nat)
  /-- SET_TICK_PERIOD (R383): Command SET_TICK_PERIOD writes phase and period and optionally synchronises the generator. -/
  | setTickPeriod (id : Nat) (now : Nat)
  /-- STEP (R383): Command STEP adds stepped ticks to a stopped generator and completes when the last is update-complete. -/
  | step (id : Nat)
  /-- SNAPSHOT (R383): Command SNAPSHOT writes part of a context's image to host memory. -/
  | snapshot (id : Nat) (ok : Bool)
  /-- RESTORE (R383): Command RESTORE takes image chunks that commit together at LAST. -/
  | restore (id : Nat) (data : Option (List Byte))
  /-- INJECT_EVENTS (R383): Command INJECT_EVENTS hands a host buffer of event words to the rim switch as an injection ring would. -/
  | injectEvents (id : Nat) (data : Option (List Byte))
  /-- ATTACH_OUTPUT (R383): Command ATTACH_OUTPUT writes base, size and enable of an output ring. -/
  | attachOutput (id : Nat)
  /-- RETIRE_UNIT (R229): Command RETIRE_UNIT drains a unit and evacuates it until it is Out. -/
  | retireUnit (id : Nat) (spare : Bool) (moves : List Move)
  /-- REINSTATE_UNIT (R384): Command REINSTATE_UNIT tests an Out unit and makes it Available. -/
  | reinstateUnit (id : Nat)
  /-- LEARN_CONFIG (R385): Command LEARN_CONFIG writes a rule, traces, homeostasis and modulator key into every tile of the context. -/
  | learnConfig (id : Nat) (data : Option (List Byte))
  /-- EPOCH_CONTROL (R385): Command EPOCH_CONTROL arms epoch length, mode and base in every tile. -/
  | epochControl (id : Nat)
  /-- POWER_STATE (R484): Command POWER_STATE checks refusers and moves the device between Run, Doze, Nap and Hibernate or changes half steps. -/
  | powerState (id : Nat) (wake : Option WakeInput)
  /-- FW_STAGE (R467): Command FW_STAGE writes chunks into the inactive firmware slot and verifies the image at LAST. -/
  | fwStage (id : Nat) (data : Option (List Byte))
  /-- FW_ACTIVATE (R467): Command FW_ACTIVATE marks the staged slot TRYING and restarts the Ringmaster on it now or at warm reset. -/
  | fwActivate (id : Nat) (x : BootFind)
  /-- LICENCE_INSTALL (R451): Command LICENCE_INSTALL verifies a licence, unlock token or RMA record and applies it. -/
  | licenceInstall (id : Nat) (data : Option (List Byte))
  /-- ATTEST (R453): Command ATTEST reserves a signature index and writes a signed measurement report. -/
  | attest (id : Nat) (ok : Bool)
  /-- CAL_READ (R471): Command CAL_READ writes the calibration set, or the defaults, to host memory. -/
  | calRead (id : Nat) (ok : Bool)
  /-- CAL_WRITE (R471): Command CAL_WRITE checks and overwrites the calibration set and retakes M4. -/
  | calWrite (id : Nat) (data : Option (List Byte))
  /-- RECORDER_READ (R528): Command RECORDER_READ returns held and staged Barker records, oldest first. -/
  | recorderRead (id : Nat) (ok : Bool)
  /-- RECORDER_CLEAR (R528): Command RECORDER_CLEAR erases the log, clears FULL and writes 0x3E02 first. -/
  | recorderClear (id : Nat)
  /-- MQ_SEND (R386): Command MQ_SEND sends a message from the host agent and completes when it is in the receiver's ring or acknowledged. -/
  | mqSend (id : Nat) (data : Option (List Byte))
  /-- FIRMWARE_SEND (R395): A firmware agent sends a message through its send port as one class-3 packet. -/
  | firmwareSend (a : Fin 64) (hdr : W64) (payload : List Byte)
  /-- MESSAGE_ARRIVE (R401): A message arriving at a receiving endpoint is written into its queue, staged, bounced or dropped. -/
  | messageArrive (loc : Fin 33) (bad : Bool)
  /-- STAGED_MESSAGE_WRITE (R402): A staged message is written when space appears in its queue. -/
  | stagedMessageWrite (a : Fin 64) (k : Fin 8)
  /-- STALL_TIMEOUT (R402): A staged message waiting STALL_US is bounced FULL, or dropped at DP-MQ-FULL without RET. -/
  | stallTimeout (a : Fin 64) (k : Fin 8)
  /-- MQ_DATA_READ (R399): A read of MQ_DATA pops the word at HEAD, skipping a pad, or returns all ones when empty. -/
  | mqDataRead (who : Requester) (a : Fin 64) (q : Fin 16) (bad : Bool)
  /-- MQ_CFG_WRITE (R403): A write of MQ_CFG opens or closes a queue, dropping held messages at DP-MQ-FLUSH on close. -/
  | mqCfgWrite (who : Requester) (a : Fin 64) (q : Fin 16) (v : W32)
  /-- ENGINE_WATCHDOG (R411): An engine with work but no retired lane-slot for ENG_US is reset and may be retired. -/
  | engineWatchdog (t : Tile) (e : Eng) (moves : List Move)
  /-- TC_WATCHDOG (R411): A missed tile-firmware heartbeat for TC_MS restarts the tile controller. -/
  | tcWatchdog (t : Tile)
  /-- RM_WATCHDOG (R411): A missed management-firmware heartbeat for RM_MS restarts the Ringmaster. -/
  | rmWatchdog 
  /-- LPDDR_READ_TIMEOUT (R411): An LPDDR5X read unanswered for 100 µs completes in error as uncorrectable. -/
  | lpddrReadTimeout (addr : BitVec 36) (row : Option (Tile × Eng × Fin 8))
  /-- ENGINE_RESET (R425): An engine reset by RST_UNIT or watchdog clears queues, slots and traces, dropping held events at DP-TILE-RESET. -/
  | engineReset (t : Tile) (e : Eng)
  /-- ENGINE_RESET_END (R425): At the end of an engine reset it reports pending ticks update-complete, sets U and touches active neurons. -/
  | engineResetEnd (t : Tile) (e : Eng)
  /-- TILE_RESET (R426): RST_UNIT with KIND 0 resets a tile's engines, Tumbler and controller, not its router. -/
  | tileReset (t : Tile)
  /-- RINGMASTER_RESTART_END (R430): Held commands are released, uncommitted ones rerun and committed ones get their records. -/
  | ringmasterRestartEnd (outcome : Fin 3)
  /-- CONTEXT_RESET_WINDOW_END (R424): 2 × USH_INFLIGHT_MAX after the drop step, local ports stop dropping the context's arriving words. -/
  | contextResetWindowEnd (c : Ctx)
  /-- SCRUB_COMPLETE (R441): The confidential scrub writes its last zero and SCRUBBING and CONFIDENTIAL clear. -/
  | scrubComplete (c : Ctx)
  /-- UNIT_TEST_COMPLETE (R421): A unit's test ends and the unit becomes Available or returns to Out. -/
  | unitTestComplete (type : Fin 8) (index : BitVec 48) (pass : Bool)
  /-- ROUSTABOUT_REGION_TEST (R431): Every PERIOD_MS, or out of turn, Roustabout saves, redirects, March-tests and restores one 4 KiB region. -/
  | roustaboutRegionTest (r : Fin 33) (rows : List (Fin 4)) (spare : Bool)
  /-- RUNNING_ORDER_REWRITE (R412): The tile controller rewrites an uncorrectable running-order word from the Ringmaster's copy within 1 ms. -/
  | runningOrderRewrite (t : Tile) (e : Eng) (w : Fin 4096)
  /-- PAGE_COPY_DONE (R544): A retired page's copy to a spare completes and the remap takes effect. -/
  | pageCopyDone (page : BitVec 48)
  /-- SEC_CTX_CNF_WRITE (R438): A write of SEC_CTX_CNF.ENABLE puts a stopped context in confidential mode, or sets CNF_ERR. -/
  | secCtxCnfWrite (c : Ctx) (v : W32)
  /-- SEC_DBG_LOCK (R446): A write of SEC_DBG_CTRL.LOCK ends the debug unlock at once. -/
  | secDbgLock (v : W32)
  /-- DEBUG_RAW_ACCESS (R447): A raw device-address access through the DBG block acts, or reads zero inside a confidential context. -/
  | debugRawAccess (addr : BitVec 48) (n : Fin 65) (data : Option (List Byte))
  /-- DEBUG_HALT (R445): A debug halt stops the Ringmaster under SCOPE bit 0 and moves timers to the always-on clock. -/
  | debugHalt (tile : Option Tile)
  /-- POWER_ON_RESET (R557): PWR_GOOD low for 200 ns or more, or VDD_AON applied, puts the device in POR. -/
  | powerOnReset 
  /-- COLD_RESET (R482): RESET_N low for 1 µs or more resets everything except Keep A fields and runs bring-up. -/
  | coldReset (x : BootFind)
  /-- WARM_RESET (R457): A write of RST_CTRL.WARM resets all but the always-on island, flash and retention region and runs bring-up from step 2. -/
  | warmReset (x : BootFind)
  /-- NET_BOOT_SERVE (R465): A READY neighbour sends a matching image as class-2 packets and replies, or replies LENGTH 0. -/
  | netBootServe (image : List Byte)
  /-- NET_BOOT_TIMEOUT (R465): A net-boot request unanswered in 20 ms moves on to the next neighbour. -/
  | netBootTimeout 
  /-- NET_BOOT_SLOT_WRITE (R465): After READY the Ringmaster writes the net-booted image into the failed slot. -/
  | netBootSlotWrite 
  /-- PORT_WAIT_END (R459): Step 9 ends when every port is UP, silent 50 ms, or ELK_WAIT_MS has passed. -/
  | portWaitEnd (silent : BitVec 6) (waited : Bool) (ms : BitVec 16) (x : BootFind)
  /-- KEEP_F_REGISTER_WRITE (R473): A write of a Keep F register takes effect at once and is saved in the boot configuration record. -/
  | keepFRegisterWrite (topo : Bool) (v : W32)
  /-- REFERENCE_CLOCK_LOSS (R475): A reference clock or PLL lost for 10 µs takes ports or PCIe down, or stops clocks and asserts FAULT_N. -/
  | referenceClockLoss (k : Fin 10)
  /-- SYSCLK_RECOVERY (R475): SYSCLK present again for 1 ms makes the device run a cold reset. -/
  | sysclkRecovery (x : BootFind)
  /-- TILE_CLOCK_GATE (R485): In Doze, a tile idle for 64 core cycles is clock-gated. -/
  | tileClockGate (t : Tile)
  /-- WAKE_EVENT (R489): An enabled wake source fires and returns the device from Nap or starts bring-up from Hibernate. -/
  | wakeEvent (w : WakeInput) (x : BootFind)
  /-- PAD_RELEASE (R491): A write of PWR_PAD_RELEASE releases the pad latches. -/
  | padRelease (v : W32)
  /-- THERMAL_SENSOR_READ (R565): Every 10 µs the thermal sensors are read and the hottest compared with alert and trip thresholds. -/
  | thermalSensorRead (raw : List W16) (power : Option W16) (rails : List W16)
  /-- THERMAL_TRIP_RELEASE (R567): When every reading falls below TRIP_C - 20 °C the device leaves reset and runs bring-up. -/
  | thermalTripRelease (x : BootFind)
  /-- THERM_ALERT_CLEAR (R566): A write of 1 to PWR_THERM_STATUS.ALERT clears the latch when below the hysteresis. -/
  | thermAlertClear 
  /-- PKG_POWER_READ (R570): A read of PWR_PKG_POWER returns and clears the peak 1 ms average. -/
  | pkgPowerRead 
  /-- TIMER_STEP (R500): On each timer clock a channel applies due writes, steps its count, wraps and matches. -/
  | timerStep (x : BootFind)
  /-- TMR_PERIOD_WRITE (R506): A write of TMR_PERIOD_n is scheduled to take effect on the fourth timer clock. -/
  | tmrPeriodWrite (n : Fin 8) (v : W32)
  /-- TMR_COUNT_WRITE (R502): A write of TMR_COUNT_n is scheduled to take effect on the fourth timer clock. -/
  | tmrCountWrite (n : Fin 8) (v : W32)
  /-- TMR_CMP_WRITE (R503): A write of TMR_CMP_n is scheduled to take effect on the fourth timer clock. -/
  | tmrCmpWrite (n : Fin 8) (v : W32)
  /-- TMR_CMP_REL_WRITE (R505): A write of TMR_CMP_REL_n sets the compare relative to the count at effect. -/
  | tmrCmpRelWrite (n : Fin 8) (v : W32)
  /-- TMR_SYNC_WRITE (R509): A write of TMR_SYNC loads selected channels from their phases in one clock of effect. -/
  | tmrSyncWrite (v : W32)
  /-- TMR_STAGGER_WRITE (R510): A write of TMR_STAGGER with GO spreads phases over channels of equal period, or sets STAGGER_ERR. -/
  | tmrStaggerWrite (v : W32)
  /-- HEADCOUNT_FREEZE (R515): Every PERIOD_MS Headcount freezes all counters at one instant and starts a dump. -/
  | headcountFreeze (now : Nat)
  /-- HC_NOW_WRITE (R517): A write of HC_CTRL.NOW freezes at once, or is skipped while a dump runs. -/
  | hcNowWrite (v : W32) (now : Nat)
  /-- HEADCOUNT_DUMP_COMPLETE (R519): The dump's sections and then its header are written, updating SEQ and the context counter copies. -/
  | headcountDumpComplete (ok : Bool)
  /-- HC_CHAIN_WRITE (R513): A write of HC_CHAIN_DATA chains or unchains counter pairs and zeroes the odd members. -/
  | hcChainWrite (v : W32)
  /-- BARKER_PROGRAM (R527): A staged record is programmed into the recorder partition when the next opens or 1 s passes. -/
  | barkerProgram 
  /-- OPTIME_ADVANCE (R525): Each second of the always-on clock advances the operating-time count. -/
  | optimeAdvance 
  /-- OPTIME_SAVE (R525): Every 600 s the operating-time count is saved to the recorder partition. -/
  | optimeSave 
  /-- MIRROR_PACKET_SEND (R530): 32 staged mirror records, or any after 10 µs, leave in a class-2 packet to the session's destination. -/
  | mirrorPacketSend (place : Fin 33) (h : Fin 8)
  /-- HOM_SESS_WRITE (R532): A write of HOM_SESS_s configures a session; EN from 0 to 1 resets its write point and PHASE. -/
  | homSessWrite (h : Fin 8) (half : Half) (v : W64)
  /-- MEM_CTX_WRITE (R542): A write of MEM_CTX_c sets a context region, or is ignored with CFG_ERR. -/
  | memCtxWrite (c : Ctx) (half : Half) (v : W64)
  /-- MEM_RET_WRITE (R543): A write of MEM_RET sets the retention region for the next Hibernate or warm reset. -/
  | memRetWrite (v : W32)
  /-- APERTURE_ACCESS (R548): An access through a PF memory aperture reaches the device physical map within one 64-byte unit. -/
  | apertureAccess (who : Requester) (off : BitVec 26) (n : Fin 65) (data : Option (List Byte)) (found : MemFinding) (poisoned : Bool)
  /-- FLASH_WRITE (R550): A write into the flash host range is buffered and programmed, or ignored with ERR while busy. -/
  | flashWrite (off : BitVec 27) (bytes : List Byte)
  /-- FLASH_ERASE (R550): A write of MEM_FLASH_CTRL.ERASE erases one 64 KiB sector, or is ignored with ERR while busy. -/
  | flashErase (v : W32)
  /-- FLASH_BUSY_END (R550): A flash program or erase completes and BUSY clears. -/
  | flashBusyEnd 
  /-- PWR_GOOD_RISE (R557): PWR_GOOD rising ends POR and starts bring-up, which R457 times from that rise. -/
  | pwrGoodRise (sel : Fin 4) (x : BootFind)
  /-- POWER_LOSS (R562): VDD_AON falls below 0.3 V and the device is Off, losing staged Barker records and any partly written flash. -/
  | powerLoss 
  /-- REFERENCE_CLOCK_RETURN (R475): ELREFCLK or PE_REFCLK returns after a loss, and the Event-link ports train again or the PCIe link may return. -/
  | referenceClockReturn (k : Fin 3)
  /-- PCIE_LINK_DOWN (R348): The PCIe link goes down, so every function stops DMA, injection rings stop fetching and output words drop at DP-HST-NOBUS. -/
  | pcieLinkDown 
  /-- PCIE_LINK_UP (R348): The PCIe link comes up again, so functions may issue DMA and rings and queues resume. -/
  | pcieLinkUp (vfs : Fin 9) (busMaster d3hot msix : BitVec 9) (masked : List (Fin 9 × Fin 64))
  /-- TILE_CONTROLLER_RESTART_END (R428): The reloaded tile firmware starts, so Usher's writes and waiting migration steps and Intermissions for the tile proceed. -/
  | tileControllerRestartEnd (t : Tile)
  /-- DEBUG_HALT_RELEASE (R498): The Ringmaster leaves debug halt and the timers return to the timebase clock. -/
  | debugHaltRelease (tile : Option Tile)
  /-- SLOT_TABLE_REWRITE (R270): Usher rewrites an uncorrectable slot-table entry, ending the demotion of the flow there. -/
  | slotTableRewrite (t : Tile) (ver : Fin 2) (p : Fin 4) (sl : Fin 64)
  deriving DecidableEq, Repr

end Sys2Proof
end

