-- ==== Sys2Proof/Decode.lean ====
section
/-! DEFINITION. Commands as words. No row of spec/opcode_table.json gives bits, so no word spells a command. -/

namespace Sys2Proof

/-- The command that a word spells by the table's bits: none, since no row has any. DESIGN CHOICE, log entry 8. -/
def decodeTableWord (_nbits _w : Nat) : Option Instr := none

end Sys2Proof
end

