-- ==== Sys2Proof/Config.lean ====
section
/-! DEFINITION. What one part fixes, and the free values: constants without a body, of which nothing can be proved. -/

namespace Sys2Proof.Config

/-- A value that the manual leaves undefined or does not state; the step reads it at the free-value counter. DESIGN CHOICE, log entry 4. -/
opaque freeBits : (w : Nat) → Nat → BitVec w

/-- The words of the library routines 1 to 7 of R85, whose listings the manual does not print: routine, word. DESIGN CHOICE, log entry 2. -/
opaque libraryWord : Nat → Nat → BitVec 64

/-- The relative deviation of the long DECAY factor from the exact power, before it is held to its bound, in units of
2^-32 (R77): entry 0, entry r, q. DESIGN CHOICE, log entry 4. -/
opaque decayDeviation : Nat → Nat → Nat → Int

/-- The reference voltages, signatures, hashes and random numbers that the manual names without giving the function:
kind, argument. DESIGN CHOICE, log entry 26. -/
opaque freeHash : Nat → List (BitVec 8) → BitVec 256

/-- The bytes of the licence record that a part is shipped with. DESIGN CHOICE, log entry 26. -/
opaque factoryLicence : List (BitVec 8)

/-- The bytes of the device's identity public key (R453). -/
opaque identityKey : Nat → BitVec 8

/-- The bytes of the identity key's signature: signature index, message, byte (R453). DESIGN CHOICE, log entry 26. -/
opaque identitySignature : Nat → List (BitVec 8) → Nat → BitVec 8

/-- Tiles of the ordered part (R1): the modelled part is a PMZ1-32-64-6-C. DESIGN CHOICE, log entry 7. -/
def partTiles : Nat := 32
/-- In-package memory of the ordered part, in GB (R1). -/
def partMemoryGb : Nat := 64
/-- Ports of the ordered part (R1). -/
def partPorts : Nat := 6

end Sys2Proof.Config
end

