-- ==== Sys2Proof/Machine/State.lean ====
section
/-! DEFINITION. The state of the machine: plain data holding every register, memory, queue, buffer, mode and pin that the
manual gives the PMZ1, the queue of waiting commands, and the state after reset. -/

namespace Sys2Proof.Machine

/-- Access codes of R15. -/
inductive Acc where
  | ro | rw | w1c | w1s | wo | rc | rp
  deriving DecidableEq, Repr

/-- Keep letters of R17; `none` is the dash of a field that no reset concerns. -/
inductive Keep where
  | a | b | c | d | f | none
  deriving DecidableEq, Repr

/-- One field of a register: its bits, access code, reset value and Keep letter. -/
structure Fld where
  hi : Nat
  lo : Nat
  acc : Acc
  reset : Nat
  keep : Keep
  deriving DecidableEq, Repr

/-- Instances of a register in BAR0: base address, (stride, count) per index, and the flat index of the first. -/
structure Win where
  base : Nat
  dims : List (Nat × Nat)
  off : Nat
  deriving DecidableEq, Repr

/-- Instances of a register in the window of virtual function c (R352); the flat index adds `mul` × c. -/
structure VWin where
  base : Nat
  dims : List (Nat × Nat)
  off : Nat
  mul : Nat
  deriving DecidableEq, Repr

/-- One register heading of the manual (R14). -/
structure Reg where
  id : Nat
  width : Nat
  pf : List Win
  vf : List VWin
  fields : List Fld
  deriving DecidableEq, Repr

/-- A sparse table: (key, value) pairs, keys strictly rising, what is not listed holds its default. -/
abbrev Tab (α : Type) := List (Nat × α)

/-- A Barker record of R523 without its CRC. -/
structure BrkRec where
  code : Nat
  sev : Nat
  ctx : Nat
  source : Nat
  rep : Nat
  optime : Nat
  pwrcyc : Nat
  detail : BitVec 96
  deriving DecidableEq, Repr

/-- The Barker recorder (R523 to R528): the log held in flash, the staged records (oldest first), and per code the
second of its last records, how many it made in that second and how many it suppressed since its last record. -/
structure Barker where
  log : List BrkRec := []
  staged : List BrkRec := []
  rate : Tab (Nat × Nat × Nat) := []
  deriving DecidableEq, Repr

/-- A requester's latch (R18): the register whose low half filled it, and the high half it holds. -/
structure Latch where
  who : Requester
  reg : Nat
  high : W32
  deriving DecidableEq, Repr

/-- One lane of the line being run (R67, R68, R70): the lane registers, T, the predicates, the refractory count, FLAGS,
Δt, whether it has emitted, and the record fields as ST leaves them until END (R75). -/
structure Lane where
  v : S24 := 0
  a : S24 := 0
  i : S24 := 0
  x : S24 := 0
  t : S24 := 0
  p : Bool := false
  q : Bool := false
  refr : Byte := 0
  flags : Byte := 0
  dt : W16 := 0
  emitted : Bool := false
  stV : Option S24 := none
  stA : Option S24 := none
  stI : Option S24 := none
  stX : Option S24 := none
  deriving DecidableEq, Repr

/-- A line waiting for its routine: descriptor, line number in neuron state memory, lane mask (R59). -/
structure LineJob where
  pop : Nat
  line : Nat
  mask : W32
  deriving DecidableEq, Repr

/-- The line being run: its job, the routine word the sequencer issues next, its 32 lanes, whether SLOT and a long DECAY
ran, the core cycles it has taken, and the lanes of a held EMIT that are still to be written (R82). -/
structure Line where
  job : LineJob
  word : Nat := 0
  lanes : List Lane
  slotDone : W32 := 0
  long : Bool := false
  cycles : Nat := 0
  held : W32 := 0
  heldPost : Bool := false
  deriving DecidableEq, Repr

/-- An entry of an emit queue: the event word, its context, whether it is express, and the population's descriptor. -/
structure Emitted where
  word : W64
  ctx : Nat
  express : Bool
  deriving DecidableEq, Repr

/-- The population descriptor pair LO, HI. -/
structure Desc where
  lo : W64 := 0
  hi : W64 := 0
  deriving DecidableEq, Repr

/-- An event in a delivery queue: its word, context, the class it arrived in, the version of its header, the number of
its copy in the tile's in-flight accounting, whether it was taken from the express queue's section (R42). -/
structure Delivered where
  word : W64
  ctx : Nat
  cls : Nat
  ver : Nat
  copy : Nat
  deriving DecidableEq, Repr

/-- The gather accumulation state (R115, R116). -/
structure Gather where
  ctx : Nat
  proj : Nat
  sgrp : Nat
  tick : Nat
  window : Nat
  express : Bool
  events : Nat
  partials : Tab Int
  copies : List Nat
  deriving DecidableEq, Repr

/-- A row of an event that is still to be read: the row descriptor, its index in the source index, the word to read
next. -/
structure RowJob where
  desc : BitVec 128
  index : Nat
  word : Nat := 0
  begun : Bool := false
  deriving DecidableEq, Repr

/-- A parked spilled row (R128): the event it belongs to and, once it has landed, the bytes that landed. -/
structure Parked where
  ev : Delivered
  express : Bool
  job : RowJob
  issued : Bool := true
  landed : Option (List Byte) := none
  bad : Option Nat := none
  deriving DecidableEq, Repr

/-- A refetch in progress (R130): the 64-byte unit, the event, the rows still to do (none for an event whose lookup has not
ended), the landed bytes when the row is a spilled one, whether a flush of the held gather state is to be done first, and whether
nothing but that flush waits. -/
structure Refetch where
  unit : Nat
  ev : Delivered
  express : Bool
  rows : Option (List RowJob)
  landed : Option (List Byte) := none
  flush : Bool := false
  alone : Bool := false
  deriving DecidableEq, Repr

/-- A post-count increment waiting for a trace-memory cycle (R174). -/
structure PostInc where
  ctx : Nat
  tick : Nat
  neuron : Nat
  odd : Bool
  deriving DecidableEq, Repr

/-- What an engine holds beside its memories and registers. -/
structure Engine where
  u : Tab Nat := []
  startQ : List (Nat × Nat) := []
  phase : Option (Nat × Nat) := none
  updDone : Tab Nat := []
  jobs : List LineJob := []
  line : Option Line := none
  popEff : List (Nat × Desc) := []
  popHeld : Tab W64 := []
  popLow : Tab W64 := []
  noise : List W32 := []
  sr : List W16 := []
  emitX : List Emitted := []
  emitO : List Emitted := []
  qX : List Delivered := []
  qO : List Delivered := []
  gather : Option Gather := none
  pieces : Tab Nat := []
  parked : List Parked := []
  refetch : Option Refetch := none
  projDue : List (Nat × Half × W64) := []
  postQ : List PostInc := []
  writeback : Nat := 0
  dbgHeld : W64 := 0
  dbgCap : Option W64 := none
  dbgDue : List (Nat × W64 × W64) := []
  dbgWant : Bool := false
  scan : Tab Nat := []
  roDue : List (Nat × W64) := []
  roBad : List Nat := []
  ageAt : Tab Nat := []
  resetting : Bool := false
  deriving DecidableEq, Repr

/-- A copy that a tile still owes its in-flight counter: context, parity, version, and the engines that have not yet
handled it (R143). -/
structure CopyRec where
  ctx : Nat
  par : Nat
  ver : Nat
  left : Nat
  deriving DecidableEq, Repr

/-- A Calliope generator (R153 to R160), kept by timebase edges: whether its context runs; the edge from which the count is
reckoned and the count there, the period in effect, scheduled period writes with their edge of effect, the edges of scheduled
phase loads, whether a load is held to the next start; the due edge of a due tick, whether it is a stepped one, the policy in
effect; whether the last tick is update-complete and drained, and when; whether the due tick may fall back, what held it at its
due edge, and whether START_CONTEXT released it; stepped ticks remaining; requested Intermissions (tick, work, edge), the
Intermission open, its work, the edge its length counts from, and whether a fabric-wide one has its go; the edge at which the
marker wait ended, the last marker by port, the last drain token sent by port, the chips whose report of the fabric-wide
Intermission it leads is awaited (R307); the last ticks' start edges (R334). -/
structure Gen where
  running : Bool := false
  edge : Nat := 0
  count : Nat := 0
  period : Nat := 0
  periodDue : List (Nat × Nat) := []
  loadDue : List Nat := []
  heldLoad : Bool := false
  due : Option Nat := none
  stepped : Bool := false
  policy : Nat := 0
  upd : Bool := true
  updEdge : Nat := 0
  drained : Bool := true
  drainEdge : Nat := 0
  fallback : Bool := false
  heldUpd : Bool := false
  fellAt : Nat := 0
  first : Bool := false
  markHeld : Bool := false
  relink : List Nat := []
  stepRemain : Nat := 0
  uncounted : Bool := false
  interReq : List (Nat × Nat × Nat) := []
  interOpen : Bool := false
  interWork : Nat := 0
  interFrom : Nat := 0
  interGo : Bool := true
  markAt : Nat := 0
  marks : Tab Nat := []
  tokSent : Tab Nat := []
  reports : List Nat := []
  starts : List (Nat × Nat) := []
  deriving DecidableEq, Repr

/-- Tumbler's setting of one context in one tile (R172, R173): the epoch length, base and mode in effect, the tick at
which they took effect, the armed setting, and the last epoch of the setting whose sweep has begun. -/
structure TumCtx where
  len : Nat := 0
  base : Nat := 0
  mode : Nat := 0
  since : Nat := 0
  armed : Option (Nat × Nat × Nat) := none
  begun : Option Nat := none
  deriving DecidableEq, Repr

/-- A pre record on its way to Tumbler (R174): engine, descriptor index, context, tick stamp. -/
structure PreRec where
  eng : Nat
  index : Nat
  ctx : Nat
  tick : Nat
  cls : Nat
  deriving DecidableEq, Repr

/-- One lane of the plastic word being swept (R178, R179): its rule slot, the word it executes next, its registers and
flags, what it was read as, and whether it is done (committed, faulted or without a rule). -/
structure LrnLane where
  rule : Nat := 0
  pc : Nat := 0
  w : Int := 0
  e : Int := 0
  dl : Int := 0
  tt : Int := 0
  x : Int := 0
  y : Int := 0
  m : Int := 0
  p : Bool := false
  pre : Bool := false
  post : Bool := false
  oldD : Nat := 0
  maxD : Nat := 0
  done : Bool := true
  deriving DecidableEq, Repr

/-- A sweep of an epoch in a tile (R186, R187): the engine it is in, the engines and source-index entries still to do, the
row being read with its next word, the row's pre-trace and PRE flag, the modulator values, the word in the lanes, and the rule slots
whose words were found uncorrectable. -/
structure Sweep where
  ctx : Nat
  epoch : Nat
  since : Nat
  eng : Option Nat := none
  engines : List Nat
  rows : List Nat := []
  row : Option (Nat × Nat) := none
  x : Nat := 0
  pre : Bool := false
  mods : List Int
  word : Option (Nat × List LrnLane) := none
  ruleBad : List Nat := []
  deriving DecidableEq, Repr

/-- What a tile's Tumbler holds: ended epochs waiting for their sweep (context, epoch, the tick their setting took effect),
the sweep that runs, the 16 lane generators, held rule writes, modulators presented, the modulator accumulators, the
64-byte units changed since their last write-through, and the write-through that runs with its epochs. -/
structure TumTile where
  sweepQ : List (Nat × Nat × Nat) := []
  sweep : Option Sweep := none
  lfsr : List W16 := []
  ruleDue : List (Nat × W32) := []
  modQ : List Delivered := []
  acc : Tab Int := []
  changed : List Nat := []
  ended : List (Nat × Nat) := []
  wt : Option (List Nat × List (Nat × Nat)) := none
  deriving DecidableEq, Repr

/-- An admitted express flow (R203, R213 to R216): the FLOW record's population, its first key and number of keys, flow
identifier, slots k, first slot s, bound, SEAM_TOL, RATE, BURST, and whether its path crosses the seam. -/
structure Flow where
  pop : Nat
  key : Nat
  keys : Nat
  id : Nat
  slots : Nat
  first : Nat
  bound : Nat
  tol : Bool
  rate : Nat
  burst : Nat
  crosses : Bool
  pols : List (Nat × Nat) := []
  ports : List Nat := []
  deriving DecidableEq, Repr

/-- An open migration (R224): its context, the block that moves, its target block and plan, the step, whether the background copy
has ended, the unit it evacuates (TYPE, index), the edge of its flip, whether a sweep of the context has ended in its tile since step 2
began (R225), and the chip it moves to or comes from (R232). -/
structure Migr where
  ctx : Nat
  src : Block
  dst : Block
  plan : Plan
  step : Nat
  copied : Bool := false
  evac : Option (Nat × Nat) := none
  flipAt : Nat := 0
  swept : Bool := false
  dstChip : Option Nat := none
  srcChip : Option Nat := none
  deriving DecidableEq, Repr

/-- The evacuation of a unit (R229): its TYPE and index, the RETIRE_UNIT command (0 for an automatic retirement) and the blocks
moved so far. -/
structure Evac where
  type : Nat
  index : Nat
  cmd : Nat
  moved : Nat := 0
  deriving DecidableEq, Repr

/-- On-die words of a demoted row not yet freed (R222): context, tile, engine, first word, words, and the parities of ticks
drained since (bit 0 even, bit 1 odd). -/
structure Demoted where
  ctx : Nat
  tile : Nat
  eng : Nat
  word : Nat
  words : Nat
  seen : Nat := 0
  deriving DecidableEq, Repr

/-- A flit (R235, R236): a head flit with its route header and up to three 64-bit words, or a data flit of a class-2 or
class-3 packet with its packet's header and its bytes; `via` is 1 when its packet came through a port whose peer is an
endpoint (R549); `cross` is the slot in which a class-0 flit left the near side of the Trapeze it crosses (R255). -/
structure Flit where
  hdr : W64
  words : List W64 := []
  isData : Bool := false
  data : List Byte := []
  via : Nat := 0
  cross : Option Nat := none
  deriving DecidableEq, Repr

/-- A packet of class 2 or 3 (R282, R308): its header, its words (word 1 the transport header) its data flits, and `via` as its flits
carry it. -/
structure Packet where
  hdr : W64
  words : List W64
  data : List (List Byte) := []
  via : Nat := 0
  deriving DecidableEq, Repr

/-- A flit at a router input; `pack` is 2 while the packing stage holds it in the cycle of its first word, 1 in the next, and 0 once
no word may join it (R239). -/
structure Arriving where
  flit : Flit
  pack : Nat := 0
  deriving DecidableEq, Repr

/-- A copy that waits for an output of a router: the output (0 north, 1 south, 2 east, 3 west, 4 local, 5 rim), the flit
with its part of the mask, the input and class whose buffer it holds, and the buffered flit it belongs to. -/
structure Waiting where
  out : Nat
  flit : Flit
  inp : Nat
  cls : Nat
  seq : Nat
  deriving DecidableEq, Repr

/-- A combining entry (R258): the head flit with the merged VALUE and COUNT. -/
structure CombEntry where
  flit : Flit
  deriving DecidableEq, Repr

/-- A tile's router: flits at each input not yet routed; routed copies waiting for an output; the copies each buffered
flit still owes and its input and class; the buffers used downstream of each output and class (output × 4 + class; 24 to
27 are the tile's own input, 28 to 31 the rim-port input); class-2 and class-3 flits that wait for a buffer of the tile's own input
(4) or the rim-port input (5); credits on their way back (output, class); the packet whose data flits follow at an input
and class (its outputs, the data flits left, and 1 or 2 where they are dropped with a bad header or word); the packet that holds a
class at an output (its input + 1 and the data flits left); the round robin states of R247 and of the lookup stage (R244), with the
engines served in its latest cycle; combining entries, oldest first; policer tokens; flits at the local port by class; flits that reached the tile's
bulk and message endpoints; the held half of a fan-out write; entries found uncorrectable. -/
structure Router where
  arr : Tab (List Arriving) := []
  wait : List Waiting := []
  nextSeq : Nat := 1
  owed : Tab (Nat × Nat × Nat) := []
  used : Tab Nat := []
  credits : List (Nat × Nat) := []
  feedQ : Tab (List Flit) := []
  follow : Tab (List Nat × Nat × Nat) := []
  hold : Tab (Nat × Nat) := []
  lastX : Nat := 8
  lastO : Nat := 8
  served : List Nat := []
  lastIn : Tab Nat := []
  turn : Tab Nat := []
  comb : List CombEntry := []
  tokens : Tab Nat := []
  local_ : Tab (List Flit) := []
  ends : List Flit := []
  ftHeld : W64 := 0
  ftBad : List Nat := []
  slotBad : List Nat := []
  deriving DecidableEq, Repr

/-- A word handed over by the rim at a gateway: the word, its context, the class it arrived in, the version and the hop
budget (R40, R261). -/
structure Inbound where
  word : W64
  ctx : Nat
  cls : Nat
  ver : Nat
  hops : Nat
  deriving DecidableEq, Repr

/-- A staged mirror record (R530): the event word, its full stamp, the tap, the tile, port or source bit. -/
structure Mirror where
  word : W64
  stamp : Nat
  tap : Nat
  src : Nat
  deriving DecidableEq, Repr

/-- An item of a port's transmit queue: the flits to send and the rim's in-flight records that its words settle when it
leaves (R303). -/
structure TxItem where
  flits : List Flit
  owners : List Nat := []
  deriving DecidableEq, Repr

/-- A link frame (R281): SEQ, its four slots (none idle), whether it is replayable. -/
structure Frame where
  seq : Nat
  slots : List (Option Flit)
  deriving DecidableEq, Repr

/-- An Event-link port (R275 to R294): lanes trained, lanes that send; codeword lock counts and the last CWI; nibbles of the
capability round and the record of the last round; the receiver's EXPECT, NAK and consecutive bad frames; the sender's next
SEQ, replay buffer, frames still to resend, the ACK of the replay last started, replays in a row without ACK moving, whether
ACK moved since the replay began, the last ACK received; credits held, the last totals received, the totals returned; the
class-0 queue, the queues of classes 1 to 3, the rest of a packet part-sent; receive buffers by class and the packet being
received; the position of the next frame sent. Of the line: the lanes that have failed, corrected symbols by lane in the present
millisecond; payload bytes received and not yet taken as frames, their place in the superframe, the uncorrectable codewords among
them, the next codeword's CWI; payload bytes formed and not yet sent, the next codeword's CWI, and the lanes that send the present
superframe. -/
structure PortSt where
  trained : Nat := 0
  txLanes : Nat := 3
  lock : Nat := 0
  badCw : Nat := 0
  lastCwi : Option Nat := none
  nibs : List Nat := []
  prevCap : Option Nat := none
  expect : Nat := 0
  ackTo : Nat := 4095
  nak : Bool := false
  badRun : Nat := 0
  seq : Nat := 0
  stored : List Frame := []
  replay : List Frame := []
  replayAck : Option Nat := none
  fruitless : Nat := 0
  moved : Bool := false
  peerAck : Nat := 4095
  credit : Tab Nat := []
  crLast : Tab Nat := []
  crRet : Tab Nat := []
  c0 : List TxItem := []
  q : Tab (List TxItem) := []
  part : List Flit := []
  rx : Tab (List Flit) := []
  rxPart : Option (Packet × Nat) := none
  rxPk : Tab (List Packet) := []
  txJ : Nat := 0
  failed : Nat := 0
  laneErrs : Tab Nat := []
  rxBytes : List Byte := []
  rxPos : Nat := 0
  rxErr : List Nat := []
  rxCwi : Nat := 0
  txBytes : List Byte := []
  txCwi : Nat := 0
  txOn : Nat := 3
  deriving DecidableEq, Repr

/-- A word waiting to enter the rim switch: the word, its context, the class it arrived in, the version it names (none
before RIM_VER_SEL is read), its hop budget, and a sensor word's input and local time (R334). -/
structure RimWord where
  word : W64
  ctx : Nat
  cls : Nat
  ver : Option Nat
  hops : Nat
  sns : Option (Nat × Nat) := none
  deriving DecidableEq, Repr

/-- The rim's in-flight record of a word with copies still queued (R303). -/
structure RimOwner where
  left : Nat := 0
  ctx : Nat := 0
  par : Nat := 0
  ver : Nat := 0
  deriving DecidableEq, Repr

/-- Sender of a transport sequence space (R309): the next TSEQ, unacknowledged packets with their TSEQ and RETRY, packets
that wait for the window. -/
structure XptTx where
  next : Nat := 0
  unacked : List (Nat × Nat × Packet) := []
  waiting : List Packet := []
  deriving DecidableEq, Repr

/-- Receiver of a sequence space (R310 to R312): B or E, the TSEQs received at or beyond B, the lowest remembered ahead of
E, packets received since the last ACK, whether an ACK is due. -/
structure XptRx where
  base : Nat := 0
  got : List Nat := []
  lowest : Option Nat := none
  since : Nat := 0
  due : Bool := false
  deriving DecidableEq, Repr

/-- A bulk write accepted at this chip: the packet's context, counter, length, address, bytes, the source chip, and whether
it came through a port whose peer is an endpoint (R308, R549). -/
structure Bulk where
  ctx : Nat
  compl : Nat
  addr : Nat
  bytes : List Byte
  endpoint : Bool
  deriving DecidableEq, Repr

/-- A sensor input (R326 to R332): TBASE, the anchor offset in half nanoseconds, t_max in nanoseconds, consecutive drops at
DP-SNS-TSBACK, whether an ALIVE has been accepted since enable, and the Turnstile bucket in 1/6,400 tokens with the edge it was
reckoned at (none: full). -/
structure SnsIn where
  tbase : Nat := 0
  off : Option Int := none
  tmax : Option Nat := none
  back : Nat := 0
  alive : Bool := false
  bucket : Option (Nat × Nat) := none
  deriving DecidableEq, Repr

/-- An address-event input's handshake (R322, R323): REQ, ACK, and the address of a word not yet taken. -/
structure Aeri where
  req : Bool := false
  ack : Bool := false
  held : Option Nat := none
  deriving DecidableEq, Repr

/-- The address-event output's pins and word (R325): A, REQ, the word being sent, and whether it waits for ACK to fall after
AERO_STUCK. -/
structure Aero where
  a : Nat := 0
  req : Bool := false
  word : Option (Nat × Nat × Nat) := none
  stuck : Bool := false
  deriving DecidableEq, Repr

/-- What the host has configured and the state of the PCIe link (R344 to R350): the link, PERST_N asserted, the number of
VFs enabled, Bus Master Enable, D3hot and MSI-X Enable by function (0 the PF, 1 + c VF c), the vectors that the host has masked, and
those held pending. -/
structure Pcie where
  link : Bool := true
  perst : Bool := false
  numVfs : Nat := 8
  busMaster : Nat := 511
  d3hot : Nat := 0
  msix : Nat := 511
  masked : List (Nat × Nat) := []
  waiting : List (Nat × Nat) := []
  deriving DecidableEq, Repr

/-- An output ring (R358, R359): its PHASE and the entries written since its last signal. -/
structure OutRing where
  phase : Bool := true
  since : Nat := 0
  deriving DecidableEq, Repr

/-- What a taken command still waits for before its record can be written (R383 to R386). -/
inductive CmdWait where
  | none
  | drained (c : Nat)
  | stepped (c last : Nat)
  | message
  | evacuate (type index : Nat)
  | test (type index : Nat)
  | flip (c : Nat)
  | place (c : Nat)
  | edge (c at_ : Nat)
  | power
  deriving DecidableEq, Repr

/-- A command that the Box Office has taken (R372 to R378): its number, the queue (0 to 7 the physical function's, 8 + 2c + q
VF c's, 24 a remote sender's), the CQ named when it was taken, the packet's fields, SQ_HEAD, ALIVE_GAP and HELD, the remote
sender with its reply queue (chip, agent, queue), its stage (0 taken, 1 running, 2 done), and its record's fields. -/
structure Cmd where
  id : Nat
  sq : Nat
  cq : Nat := 0
  opcode : Nat := 0
  flags : Nat := 0
  cid : Nat := 0
  ctx : Nat := 0
  plen : Nat := 0
  params : List Byte := []
  head : Nat := 0
  gap : Bool := false
  held : Bool := false
  remote : Option (Nat × Nat × Nat) := none
  stage : Nat := 0
  wait : CmdWait := .none
  status : Nat := 0
  detail : Nat := 0
  result : List Byte := []
  deriving DecidableEq, Repr

/-- A completion queue's PHASE and the records written since its last signal (R368). -/
structure CqState where
  phase : Bool := true
  since : Nat := 0
  deriving DecidableEq, Repr

/-- A receive queue's ring (R397): HEAD and TAIL as byte offsets, words held, messages held, words of the message being
read that are still to be popped. -/
structure Ring where
  head : Nat := 0
  tail : Nat := 0
  words : Nat := 0
  msgs : Nat := 0
  left : Nat := 0
  deriving DecidableEq, Repr

/-- A message waiting in an endpoint's staging buffer (R401): its queue, its header as delivered and as sent, its payload,
the chip it came from, and the MQ_SEND command that sent it (0 none). -/
structure Staged where
  q : Nat
  hdr : Nat
  payload : List Byte
  src : Nat
  cmd : Nat
  deriving DecidableEq, Repr

/-- The 56 drop points, in the order of R415. -/
inductive DropPt where
  | engEmitDup
  | engSynRange | engBadDesc | engBounds | engRowLost | engSidxErr
  | engLate | engEarly
  | tumStale | tumModMiss
  | midNullMask | midHopZero | midHdrErr | midBufErr | midBadKind | midFtErr | seamStopped | tileReset
  | elkUncorr | elkLinkDown
  | rimNullMask | rimPortDown | rimHops | rimHdrErr | rimReset
  | xptDup | xptOrder | xptWindow | xptRetry
  | snsHdrEcc | snsDtype | snsPktLen | snsPktCrc | snsTrailer | snsAliveRep | snsWordType | snsRange | snsHotPix
  | snsTsBack | snsStale | snsRefr | snsCtxStop | snsPolice | snsOverflow | snsAeroFull | snsAeroHs
  | hstBadKind | hstCtxStop | hstOutFull | hstNoBus
  | mqBadHdr | mqNoReader | mqFull | mqFlush | mqBounceLost
  | rimBufErr
  deriving DecidableEq, Repr

/-- What the block has sent to the outside beside host-memory writes: an MSI-X message, an SMBus reply, a NACK or a
release of the SMBus clock, a link frame formed or a codeword sent on a port's lanes, a port's transmitter at electrical idle, a class-2 read or configuration request to LPDDR5X, and AER log entries. -/
inductive Out where
  | msix (fn : Nat) (vec : Nat)
  | aer (fn : Nat) (fatal : Bool)
  | smb (bytes : List Byte)
  | smbNack
  | smbRelease
  | frame (port : Nat) (bytes : List Byte)
  | codeword (port : Nat) (lane0 lane1 : List Nat)
  | idle (port : Nat)
  deriving DecidableEq, Repr

/-- A fused key slot (R449): the digest of one public key, whether its purpose is licence or firmware, whether it is revoked. -/
structure KeySlot where
  digest : BitVec 256
  licence : Bool
  revoked : Bool := false
  deriving DecidableEq, Repr

/-- What the device knows of a firmware image that passed its checks (R449, R452, R464): FW_VERSION, SVN, RATCHET, the digest of the
image (M1) and of its TILE and LIB sections (M2). -/
structure FwImage where
  version : Nat
  svn : Nat
  ratchet : Bool
  digest : BitVec 256
  sections : BitVec 256
  deriving DecidableEq, Repr

/-- The image that a part is shipped with. -/
def factoryImage : FwImage := ⟨1, 0, false, Config.freeHash 1 [], Config.freeHash 2 []⟩

/-- A firmware or boot slot of flash (R463, R466): STATE (0 EMPTY, 1 STAGED, 2 ACTIVE, 3 TRYING, 4 FAILED), SEQ, the image that
passed its checks, and the bytes that FW_STAGE wrote, by offset. -/
structure FwSlot where
  state : Nat := 0
  seq : Nat := 0
  image : Option FwImage := none
  bytes : Tab Byte := []
  deriving DecidableEq, Repr

/-- A licence record of the licence partition (R450, R451): FEATURES, TILES, PORTS and its bytes. -/
structure LicRec where
  features : Nat
  tiles : Nat
  ports : Nat
  bytes : List Byte
  deriving DecidableEq, Repr

/-- The calibration set of a part as shipped (R469): no offsets, no presets, no seeds; its CRC is held apart. -/
def factoryCal : List Byte :=
  [0x5A, 0x43, 0x41, 0x4C, 1, 0, 0x8C, 4, 0x7A, 0x1F, 0, 0] ++ List.replicate 1148 0

/-- A net boot that runs (R465): the ports still to be asked, the port whose neighbour was asked last, and the reply
received (FW_VERSION, LENGTH). -/
structure NetBoot where
  left : List Nat
  asked : Option Nat := none
  reply : Option (Nat × Nat) := none
  deriving DecidableEq, Repr

/-- A scheduled timer write (R502). -/
inductive TmrWrite where
  | period (v : Nat)
  | count (v : Nat)
  | compare (v : Nat)
  | compareRel (v : Nat)
  | sync
  deriving DecidableEq, Repr

/-- The boundary-scan side of the TAP (R364, R365): the instruction in effect, the data register it selects (0 bypass, 1
identification, 2 boundary), what holds the pins (0 the device, 1 the boundary register, 2 high impedance), and whether an
IEEE 1149.6 pulse (1) or train (2) is applied; the boundary register, and what the selected data register captured. -/
structure Tap where
  ir : Nat := 2
  dr : Nat := 1
  pins : Nat := 0
  pulse : Nat := 0
  boundary : List Bool := []
  data : List Bool := []
  deriving DecidableEq, Repr

/-- Where the device stands between power and READY (R457, R462, R482): no VDD_AON; held in POR or in a cold reset; stopped for want of
SYSCLK; waiting at step 9; asking neighbours for an image; in recovery; READY; in Hibernate. -/
inductive BootPhase where
  | off | held | stopped | ports | net | recovery | ready | hibernate
  deriving DecidableEq, Repr

/-- Faults that stop the machine. Every mapped effect of this block completes, so the one reason is a command that names
a unit the die does not have. -/
inductive Fault where
  /-- Raised by no meaning: every index operand is bounded by its type. Kept so that the type is not empty. Safe. -/
  | noSuchUnit
  deriving DecidableEq, Repr

/-- Why a command is refused. -/
inductive Refusal where
  /-- Raised by an arm of `exec` that has no meaning yet. Safe: the model stops. -/
  | notModelled (mnemonic : String)
  /-- Raised by PRIVATE_TAP_INSTRUCTION while the debug scope opens the private TAP (R445), whose codes' effects the
  manual does not give. Safe: the model stops. -/
  | privateTap
  deriving DecidableEq, Repr

/-- The fuse record (R449, R460), blown at wafer and final test; no command changes it. -/
structure Fuses where
  serial : W64 := 0
  badEngines : Tab Nat := []
  badElkLanes : Nat := 0
  badPcieLanes : Nat := 0
  repairs : List Nat := []
  keys : List KeySlot := (List.range 8).map (fun k => ⟨Config.freeHash 10 [BitVec.ofNat 8 k], decide (4 ≤ k), false⟩)
  deriving DecidableEq, Repr

set_option maxRecDepth 2048 in
/-- The device: everything a command can change. The default of each field is its value after reset. -/
structure Dev where
  /-- Registers whose value is not their reset value. -/
  regs : Tab W64 := []
  /-- The device physical memory (R545), in canonical form. -/
  mem : List Host.Cell := []
  /-- Bytes the device has written into host memory. -/
  host : Tab Byte := []
  /-- What the device has sent to the outside, oldest first. -/
  outs : List Out := []
  /-- The model's own counter of free values read; no statement rests on its value. -/
  free : Nat := 0
  /-- The requesters' latches (R18). -/
  latches : List Latch := []
  /-- The Barker recorder (R523 to R528). -/
  barker : Barker := {}
  /-- The value that the latest register read returned. -/
  ret : W64 := 0
  /-- Engine t × 9 + e. -/
  engs : Tab Engine := []
  /-- Copies that tiles still owe their in-flight counters (R143), by copy number. -/
  copies : Tab CopyRec := []
  /-- The next copy number. -/
  nextCopy : Nat := 0
  /-- In-flight counters: ((tile × 8 + context) × 2 + parity) × 2 + version; tile 32 is the rim (R143, R303). -/
  inflight : Tab Int := []
  /-- Calliope generators by context (R153). -/
  gens : Tab Gen := []
  /-- Waves per context × 2 + parity: the last non-zero sum, how often it has repeated, waves since that found no word (R271). -/
  waves : Tab (Int × Nat × Nat) := []
  /-- Tumbler settings, tile × 8 + context. -/
  tumCtx : Tab TumCtx := []
  /-- Pre records waiting in each tile's 64-entry Tumbler queue, oldest first (R174). -/
  preQ : Tab (List PreRec) := []
  /-- Tumbler of each tile. -/
  tums : Tab TumTile := []
  /-- Accepted descriptions, by context (R206). -/
  descs : Tab (List Byte) := []
  /-- Blocks of each context's placement. -/
  blocks : Tab (List Block) := []
  /-- Admitted flows of each context's placement. -/
  flows : Tab (List Flow) := []
  /-- Pins that PIN_HINT set, by context: population and tile mask, 0 for no pin (R218). -/
  pins : Tab (List (Nat × Nat)) := []
  /-- PROJ record ID + 1 of each NE_PROJ_p, engine × 32 + p. -/
  projRec : Tab Nat := []
  /-- Open migrations. -/
  migrs : List Migr := []
  /-- Evacuations that run. -/
  evacs : List Evac := []
  /-- Demoted rows whose on-die words are still held. -/
  demoted : List Demoted := []
  /-- Usher's estimate of the share of each population's neurons touched per tick, by context: POP record ID, 2^-16 (R233). -/
  touched : Tab (List (Nat × Nat)) := []
  /-- Blocks of a fabric placement that lie on other chips, by context: chip, block (R232). -/
  away : Tab (List (Nat × Block)) := []
  /-- Counter values of the last three Headcount dumps, the latest first (R223). -/
  dumps : List (Tab Nat) := []
  /-- Spill fetches of each tile modulo 64 (R223). -/
  fetched : Tab Nat := []
  /-- Sampled spill fetches of each source-index entry in the present period (R223). -/
  samples : Tab Nat := []
  /-- Schedules built in the inactive version, by context, that take effect at its next flip (R217). -/
  newFlows : Tab (List Flow) := []
  /-- Routers of the tiles. -/
  routers : Tab Router := []
  /-- Inbound words waiting in each gateway's rim-port input, by gateway. -/
  gwIn : Tab (List Inbound) := []
  /-- Flits that left a gateway's rim port and wait in the rim, by gateway. -/
  rimIn : Tab (List Flit) := []
  /-- Staged mirror records, place × 8 + session; place 32 is the rim (R530). -/
  mirrors : Tab (List Mirror) := []
  /-- Frame counters of the west and the east half (R251). -/
  frames : Nat × Nat := (0, 0)
  /-- Frames of the slower half until the frame counters are realigned after a step change (R255). -/
  reclock : Nat := 0
  /-- Tiles under a tile reset (R269, R426). -/
  tileRst : List Nat := []
  /-- Tiles whose engines are clock-gated in Doze (R485). -/
  gated : List Nat := []
  /-- Event-link ports. -/
  ports : Tab PortSt := []
  /-- The rim table: version × 16,384 + entry, 128 bits each (R295). -/
  rimTab : Tab Nat := []
  /-- Rim-table entries found uncorrectable, not yet rewritten (R412). -/
  rimBad : List Nat := []
  /-- Rim-table entries that a rim reset has cleared, as Usher's copy holds them, until the Ringmaster rewrites them (R314). -/
  rimLost : Tab Nat := []
  /-- The held half of a rim-table write. -/
  rimHeld : W64 := 0
  /-- Words waiting to enter the rim switch: 6 the sensor ingress, 7 the host rings, 8 + g gateway g. -/
  swIn : Tab (List RimWord) := []
  /-- In-flight records of words with copies queued at ports. -/
  owners : Tab RimOwner := []
  /-- The next such record's number. -/
  nextOwner : Nat := 1
  /-- Tick markers and drain tokens received, by port (R302). -/
  marksIn : Tab (List (Nat × W64)) := []
  /-- Packets of this chip waiting for the rim to route them. -/
  pkIn : List Packet := []
  /-- Packets for this chip from other chips, waiting for transport (R310 to R312). -/
  xptIn : List Packet := []
  /-- Transport senders by (chip × 8 + context) × 4 + class. -/
  xptTx : Tab XptTx := []
  /-- Transport receivers by (chip × 8 + context) × 4 + class. -/
  xptRx : Tab XptRx := []
  /-- Packets that have reached an endpoint: 0 the rim side (LPDDR5X, Ringmaster SRAM, Box Office), 1 + t tile t. -/
  endIn : Tab (List Packet) := []
  /-- Words in AERO's 256-word buffer, oldest first: key, context, class (R325). -/
  aero : List (Nat × Nat × Nat) := []
  /-- AERO's handshake. -/
  aeroPin : Aero := {}
  /-- Sensor inputs. -/
  sns : Tab SnsIn := []
  /-- LANES and TRAILER in effect in each CSI-2 receiver (R321). -/
  csi : Tab (Nat × Nat) := []
  /-- AERI inputs, by input − 16. -/
  aeri : Tab Aeri := []
  /-- Held CRC_PARAM values, half-written CRC_CFG values, and configurations committed at the next packet start, by engine (R339). -/
  crcHeld : Tab W64 := []
  crcLow : Tab W64 := []
  crcDue : Tab (W64 × W64) := []
  /-- The PCIe endpoint as configured. -/
  pcie : Pcie := {}
  /-- Output rings, context × 4 + ring. -/
  outRings : Tab OutRing := []
  /-- Entries of an injection ring's read in flight, by context, and contexts whose ring R349 stopped. -/
  injOut : Tab Nat := []
  injStopped : List Nat := []
  /-- Commands taken whose records are not yet written, oldest first. -/
  cmds : List Cmd := []
  /-- The next command's number. -/
  nextCmd : Nat := 1
  /-- Completion queues: PHASE and records not signalled. -/
  cqs : Tab CqState := []
  /-- ALIVE of remote senders, most recently heard first: chip, agent, value (R388). -/
  remoteAlive : List (Nat × Nat × Nat) := []
  /-- The Ringmaster is restarting, so slow-path commands are held (R381). -/
  rmRestart : Bool := false
  /-- Submission and completion queues that R369 stopped. -/
  sqStopped : List Nat := []
  cqStopped : List Nat := []
  /-- Receive queues: agent × 16 + queue. -/
  mqs : Tab Ring := []
  /-- Staging buffers of the endpoints, by agent, oldest first. -/
  staged : Tab (List Staged) := []
  /-- Units whose state is not In service, by TYPE × 2^48 + index: STATE and REASON (R417, R418). -/
  units : Tab (Nat × Nat) := []
  /-- Where the device stands between power and READY. -/
  phase : BootPhase := .held
  /-- Lifecycle as fused: 0 MANUFACTURE, 1 DEPLOYED, 2 RMA (R443); an accepted RMA record blows it forward. -/
  lifecycle : Nat := 1
  /-- The fused minimum SVN (R449). -/
  svnMin : Nat := 0
  /-- Firmware slots A and B, boot slot B as staged, and the image that runs. -/
  slotA : FwSlot := { state := 2, seq := 1, image := some factoryImage }
  slotB : FwSlot := {}
  bootB : FwSlot := { state := 2, image := some factoryImage }
  fw : FwImage := factoryImage
  /-- The image that bring-up tries, not yet READY, and whether it came by net boot and is still to be written to a slot. -/
  netImage : Option (Nat × Nat) := none
  /-- A net boot that runs. -/
  netBoot : Option NetBoot := none
  /-- The licence partition, in storage order. -/
  lics : List LicRec := [⟨7, 32, 6, Config.factoryLicence⟩]
  /-- The calibration set held in flash without its CRC; none when absent or invalid (R470). -/
  cal : Option (List Byte) := some factoryCal
  /-- Whether flash holds no boot configuration record, the user area having been erased (R16, R438, R473). -/
  cfgGone : Bool := false
  /-- The calibration set in effect since step 3 of the latest bring-up (R470). -/
  trims : List Byte := factoryCal
  /-- Whether the identity partition is present (R454). -/
  identity : Bool := true
  /-- The operating-time count saved in the recorder partition (R525). -/
  savedTime : Nat := 0
  /-- Rows of the soft-repair list, by device physical address (R432). -/
  softRows : List Nat := []
  /-- Regions of 4 KiB on the die that are to be tested out of turn, by address (R413, R431). -/
  testDue : List Nat := []
  /-- The next region of each Roustabout's pass (R431). -/
  rabNext : Tab Nat := []
  /-- Corrected errors of the last 24 hours: address and operating time (R420). -/
  ceLog : List (Nat × Nat) := []
  /-- Rows that spare rows stand in for, by device physical address (R432). -/
  rowRepairs : List Nat := []
  /-- Bytes that the latest read through an aperture or of the debug block returned, and whether it was a poisoned completion. -/
  retData : List Byte := []
  retPoison : Bool := false
  /-- FAULT_N and WAKE_N driven low; the VID code driven on GPIO3 to GPIO0 (R479). -/
  faultN : Bool := true
  wakeN : Bool := false
  vid : Nat := 0
  /-- AERO A and REQ as latched while PADS_HELD is set (R491). -/
  padAero : Nat × Bool := (0, false)
  /-- Levels of GPIO15 to GPIO0 and which of them are outputs, as latched while PADS_HELD is set (R491). -/
  padGpio : Nat × Nat := (0, 0)
  /-- Comparators of WAKE_A0 and WAKE_A1: whether the output is asserted, and for how many always-on cycles (R490). -/
  cmps : Tab (Bool × Nat) := []
  /-- The SMBus address, sampled at POR (R363). -/
  smbAddr : Nat := 0x60
  /-- Rail voltages last measured, in mV (R363). -/
  rails : Tab Nat := []
  /-- Consecutive thermal reads at or above TRIP_C, and whether a trip holds the reset (R567). -/
  tripReads : Nat := 0
  tripped : Bool := false
  /-- The power states that Nap and that a Hibernate entry under way were entered from (R487, R494). -/
  napFrom : Nat × Nat := (0, 0)
  /-- Power-gated halves: the groups retained, as PWR_NAP_RET counts them, and 8 for a stopped half or 16 for one that Nap gates
  (R481, R486). -/
  halfGated : Tab Nat := []
  /-- Tiles whose controller restarts (R428). -/
  tcRestart : List Nat := []
  /-- Contexts whose reset window of R424 step 3 is open. -/
  ctxReset : List Nat := []
  /-- The Ringmaster is in debug halt; tile controllers in debug halt (R445). -/
  dbgHalt : Bool := false
  dbgTiles : List Nat := []
  /-- RESTORE chunks that wait for LAST, by context × 4 + PART: byte offset and byte (R383). -/
  restore : Tab (Tab Byte) := []
  /-- A Ringmaster restart is on a newly staged image, from slot; the FW_ACTIVATE command (R467). -/
  fwTry : Option (Nat × Nat) := none
  /-- Such a restart has failed and the Ringmaster restarts on the other slot: the FW_ACTIVATE command, and the status and detail that
  end it (R467). -/
  fwBack : Option (Nat × Nat × Nat) := none
  /-- Tiles whose controllers are still to switch to the running image's firmware, the one that restarts for it first (R467). -/
  fwTiles : List Nat := []
  /-- The TAP. -/
  tap : Tap := {}
  /-- Drops at the sensor points by context and class, (point × 8 + context) × 4 + class, and as of the latest freeze (R522). -/
  snsLoss : Tab Nat := []
  snsLossAt : Tab Nat := []
  /-- Scheduled timer writes by channel: timer clocks left, write (R502). -/
  tmr : Tab (List (Nat × TmrWrite)) := []
  /-- Headcount's values as of the latest freeze, by register key: raw count, extended value (R520). -/
  hcExt : Tab (Nat × Nat) := []
  /-- Units, as KIND × 2^16 + TILE × 2^8 + SUB, a reset of which returned counters to default since the latest freeze. -/
  hcRst : List Nat := []
  /-- Contexts whose window's counters have returned to zero since the latest freeze (R17, R495, R522). -/
  ctxZero : List Nat := []
  /-- Units whose sections carry RESET in the dump being written. -/
  hcMark : List Nat := []
  /-- Dumps written since POR (R519). -/
  hcSeq : Nat := 0
  /-- The dump being written: its instant in timebase cycles and operating seconds. -/
  hcDump : Option (Nat × Nat) := none
  /-- PHASE of each Hall of Mirrors session, inverted (R532). -/
  homLap : Tab Bool := []
  /-- 64-byte units of LPDDR5X that hold the poison code (R539), by address. -/
  poison : List Nat := []
  deriving DecidableEq, Repr

/-- The machine: the fuse record, the device, and the commands that wait, first in first out. -/
structure State where
  fuses : Fuses := {}
  dev : Dev := {}
  pending : List Instr := []
  deriving DecidableEq, Repr

/-- The machine right after reset: every register at its Reset column, no command waiting. -/
def State.reset : State := {}

end Sys2Proof.Machine
end

