-- ==== Sys2Proof/Machine/RegTable.lean ====
section
/-! DEFINITION. The register tables of the manual: one `Fld` per field (bits, access code of R15, reset value of R16,
Keep letter of R17) and one `Reg` per register heading (width, where its instances lie in the physical function's BAR0
(R547) and in a virtual function's window (R352), fields). Reserved bits are in no field, so they read zero and ignore
writes (R13). -/

namespace Sys2Proof.Machine

def NE_CTRL_AGE_SWEEP : Fld := ⟨0, 0, .rw, 1, .c⟩
/-- NE_CTRL, R92. -/
def NE_CTRL : Reg := ⟨0, 32, [⟨0x220000, [(0x40000, 32), (0x2000, 9)], 0⟩], [], [NE_CTRL_AGE_SWEEP]⟩

def NE_STATUS_UPDATING : Fld := ⟨31, 31, .ro, 0, .d⟩
def NE_STATUS_PHASE_CTX : Fld := ⟨30, 28, .ro, 0, .d⟩
def NE_STATUS_FAULT_ROUTINE : Fld := ⟨27, 22, .ro, 0, .d⟩
def NE_STATUS_FAULT_WORD : Fld := ⟨21, 16, .ro, 0, .d⟩
def NE_STATUS_RO_FAULT : Fld := ⟨15, 15, .w1c, 0, .d⟩
def NE_STATUS_DESC_ERR : Fld := ⟨14, 14, .w1c, 0, .d⟩
def NE_STATUS_DESC_ERR_IDX : Fld := ⟨13, 8, .ro, 0, .d⟩
def NE_STATUS_SPILL_CLIP : Fld := ⟨7, 7, .w1c, 0, .d⟩
/-- NE_STATUS, R92. -/
def NE_STATUS : Reg := ⟨1, 32, [⟨0x220008, [(0x40000, 32), (0x2000, 9)], 0⟩], [], [NE_STATUS_UPDATING, NE_STATUS_PHASE_CTX, NE_STATUS_FAULT_ROUTINE, NE_STATUS_FAULT_WORD, NE_STATUS_RO_FAULT, NE_STATUS_DESC_ERR, NE_STATUS_DESC_ERR_IDX, NE_STATUS_SPILL_CLIP]⟩

def NE_NOISE_SEED_SEED : Fld := ⟨31, 0, .rw, 1, .c⟩
/-- NE_NOISE_SEED, R92. -/
def NE_NOISE_SEED : Reg := ⟨2, 32, [⟨0x220010, [(0x40000, 32), (0x2000, 9)], 0⟩], [], [NE_NOISE_SEED_SEED]⟩

def NE_RO_BASE_PAGE : Fld := ⟨2, 0, .rw, 0, .d⟩
/-- NE_RO_BASE, R92. -/
def NE_RO_BASE : Reg := ⟨3, 32, [⟨0x220018, [(0x40000, 32), (0x2000, 9)], 0⟩], [], [NE_RO_BASE_PAGE]⟩

def NE_DBG_IDX_NEURON : Fld := ⟨12, 0, .rw, 0, .d⟩
/-- NE_DBG_IDX, R92. -/
def NE_DBG_IDX : Reg := ⟨4, 32, [⟨0x220020, [(0x40000, 32), (0x2000, 9)], 0⟩], [], [NE_DBG_IDX_NEURON]⟩

def NE_DBG_REC_LO_REC_LO : Fld := ⟨63, 0, .rw, 0, .d⟩
/-- NE_DBG_REC_LO, R92. -/
def NE_DBG_REC_LO : Reg := ⟨5, 64, [⟨0x220028, [(0x40000, 32), (0x2000, 9)], 0⟩], [], [NE_DBG_REC_LO_REC_LO]⟩

def NE_DBG_REC_HI_REC_HI : Fld := ⟨63, 0, .rw, 0, .d⟩
/-- NE_DBG_REC_HI, R92. -/
def NE_DBG_REC_HI : Reg := ⟨6, 64, [⟨0x220030, [(0x40000, 32), (0x2000, 9)], 0⟩], [], [NE_DBG_REC_HI_REC_HI]⟩

def NE_NPCNT_COUNT : Fld := ⟨47, 0, .ro, 0, .d⟩
/-- NE_NPCNT_n, R93. -/
def NE_NPCNT : Reg := ⟨7, 64, [⟨0x220100, [(0x40000, 32), (0x2000, 9), (0x8, 12)], 0⟩], [], [NE_NPCNT_COUNT]⟩

def NE_DP_EMITDUP_COUNT : Fld := ⟨47, 0, .ro, 0, .d⟩
/-- NE_DP_EMITDUP_c_k, R93. -/
def NE_DP_EMITDUP : Reg := ⟨8, 64, [⟨0x220180, [(0x40000, 32), (0x2000, 9), (0x10, 8), (0x8, 2)], 0⟩], [], [NE_DP_EMITDUP_COUNT]⟩

def NE_DECAY_REST_REST : Fld := ⟨23, 0, .rw, 0, .c⟩
/-- NE_DECAY_REST_t, R93. -/
def NE_DECAY_REST : Reg := ⟨9, 32, [⟨0x220300, [(0x40000, 32), (0x2000, 9), (0x4, 16)], 0⟩], [], [NE_DECAY_REST_REST]⟩

def NE_POP_LO_VALID : Fld := ⟨63, 63, .rw, 0, .c⟩
def NE_POP_LO_CONTEXT : Fld := ⟨62, 60, .rw, 0, .c⟩
def NE_POP_LO_GRADED : Fld := ⟨59, 59, .rw, 0, .c⟩
def NE_POP_LO_SIGNED : Fld := ⟨58, 58, .rw, 0, .c⟩
def NE_POP_LO_EXPRESS : Fld := ⟨57, 57, .rw, 0, .c⟩
def NE_POP_LO_EXACT_LONG : Fld := ⟨56, 56, .rw, 0, .c⟩
def NE_POP_LO_AA_RESET : Fld := ⟨55, 55, .rw, 0, .c⟩
def NE_POP_LO_DEPTH_CODE : Fld := ⟨54, 52, .rw, 0, .c⟩
def NE_POP_LO_ROUTINE : Fld := ⟨51, 46, .rw, 0, .c⟩
def NE_POP_LO_SLOT_SHIFT : Fld := ⟨45, 42, .rw, 0, .c⟩
def NE_POP_LO_DTAB3 : Fld := ⟨39, 36, .rw, 0, .c⟩
def NE_POP_LO_DTAB2 : Fld := ⟨35, 32, .rw, 0, .c⟩
def NE_POP_LO_DTAB1 : Fld := ⟨31, 28, .rw, 0, .c⟩
def NE_POP_LO_DTAB0 : Fld := ⟨27, 24, .rw, 0, .c⟩
def NE_POP_LO_SLOT_BASE : Fld := ⟨23, 6, .rw, 0, .c⟩
/-- NE_POP_LO_n, R93. -/
def NE_POP_LO : Reg := ⟨10, 64, [⟨0x220400, [(0x40000, 32), (0x2000, 9), (0x10, 64)], 0⟩], [], [NE_POP_LO_VALID, NE_POP_LO_CONTEXT, NE_POP_LO_GRADED, NE_POP_LO_SIGNED, NE_POP_LO_EXPRESS, NE_POP_LO_EXACT_LONG, NE_POP_LO_AA_RESET, NE_POP_LO_DEPTH_CODE, NE_POP_LO_ROUTINE, NE_POP_LO_SLOT_SHIFT, NE_POP_LO_DTAB3, NE_POP_LO_DTAB2, NE_POP_LO_DTAB1, NE_POP_LO_DTAB0, NE_POP_LO_SLOT_BASE]⟩

def NE_POP_HI_KEY_BASE : Fld := ⟨63, 32, .rw, 0, .c⟩
def NE_POP_HI_SIZE : Fld := ⟨29, 16, .rw, 0, .c⟩
def NE_POP_HI_BASE : Fld := ⟨12, 0, .rw, 0, .c⟩
/-- NE_POP_HI_n, R93. -/
def NE_POP_HI : Reg := ⟨11, 64, [⟨0x220408, [(0x40000, 32), (0x2000, 9), (0x10, 64)], 0⟩], [], [NE_POP_HI_KEY_BASE, NE_POP_HI_SIZE, NE_POP_HI_BASE]⟩

def NE_DECAY_FACTOR : Fld := ⟨15, 0, .rw, 0, .c⟩
/-- NE_DECAY_t_i, R93. -/
def NE_DECAY : Reg := ⟨12, 16, [⟨0x220800, [(0x40000, 32), (0x2000, 9), (0x80, 16), (0x2, 64)], 0⟩], [], [NE_DECAY_FACTOR]⟩

def NE_RO_APER_WORD : Fld := ⟨63, 0, .rw, 0, .c⟩
/-- Running-order aperture, R93. -/
def NE_RO_APER : Reg := ⟨13, 64, [⟨0x221000, [(0x40000, 32), (0x2000, 9), (0x8, 512)], 0⟩], [], [NE_RO_APER_WORD]⟩

def NE_SYN_CTRL_FLUSH_AGE : Fld := ⟨23, 16, .rw, 0x10, .c⟩
def NE_SYN_CTRL_SPILL_MAX : Fld := ⟨11, 8, .rw, 0, .c⟩
def NE_SYN_CTRL_TUM_WAIT : Fld := ⟨7, 0, .rw, 0x10, .c⟩
/-- NE_SYN_CTRL, R133. -/
def NE_SYN_CTRL : Reg := ⟨14, 32, [⟨0x220038, [(0x40000, 32), (0x2000, 9)], 0⟩], [], [NE_SYN_CTRL_FLUSH_AGE, NE_SYN_CTRL_SPILL_MAX, NE_SYN_CTRL_TUM_WAIT]⟩

def NE_SR_SEED_SEED : Fld := ⟨31, 0, .rw, 1, .c⟩
/-- NE_SR_SEED, R133. -/
def NE_SR_SEED : Reg := ⟨15, 32, [⟨0x220040, [(0x40000, 32), (0x2000, 9)], 0⟩], [], [NE_SR_SEED_SEED]⟩

def NE_HOME_BASE_IMAGE : Fld := ⟨29, 0, .rw, 0, .c⟩
/-- NE_HOME_BASE, R133. -/
def NE_HOME_BASE : Reg := ⟨16, 64, [⟨0x220048, [(0x40000, 32), (0x2000, 9)], 0⟩], [], [NE_HOME_BASE_IMAGE]⟩

def NE_SYN_STATUS_GATHER_HELD : Fld := ⟨31, 31, .ro, 0, .d⟩
def NE_SYN_STATUS_GATHER_CTX : Fld := ⟨30, 28, .ro, 0, .d⟩
def NE_SYN_STATUS_GATHER_PROJ : Fld := ⟨27, 23, .ro, 0, .d⟩
def NE_SYN_STATUS_SPILL_OUT : Fld := ⟨11, 8, .ro, 0, .d⟩
/-- NE_SYN_STATUS, R133. -/
def NE_SYN_STATUS : Reg := ⟨17, 32, [⟨0x220050, [(0x40000, 32), (0x2000, 9)], 0⟩], [], [NE_SYN_STATUS_GATHER_HELD, NE_SYN_STATUS_GATHER_CTX, NE_SYN_STATUS_GATHER_PROJ, NE_SYN_STATUS_SPILL_OUT]⟩

def NE_SPCNT_COUNT : Fld := ⟨47, 0, .ro, 0, .d⟩
/-- NE_SPCNT_n, R133. -/
def NE_SPCNT : Reg := ⟨18, 64, [⟨0x220060, [(0x40000, 32), (0x2000, 9), (0x8, 20)], 0⟩], [], [NE_SPCNT_COUNT]⟩

def NE_SDP_SEL_POINT : Fld := ⟨6, 4, .rw, 0, .d⟩
def NE_SDP_SEL_CTX : Fld := ⟨3, 1, .rw, 0, .d⟩
def NE_SDP_SEL_CLASS : Fld := ⟨0, 0, .rw, 0, .d⟩
/-- NE_SDP_SEL, R133. -/
def NE_SDP_SEL : Reg := ⟨19, 32, [⟨0x220160, [(0x40000, 32), (0x2000, 9)], 0⟩], [], [NE_SDP_SEL_POINT, NE_SDP_SEL_CTX, NE_SDP_SEL_CLASS]⟩

def NE_SDP_DATA_COUNT : Fld := ⟨47, 0, .ro, 0, .d⟩
/-- NE_SDP_DATA, R133. -/
def NE_SDP_DATA : Reg := ⟨20, 64, [⟨0x220168, [(0x40000, 32), (0x2000, 9)], 0⟩], [], [NE_SDP_DATA_COUNT]⟩

def NE_PROJ_VALID : Fld := ⟨63, 63, .rw, 0, .c⟩
def NE_PROJ_TPOP : Fld := ⟨62, 57, .rw, 0, .c⟩
def NE_PROJ_GWIDTH : Fld := ⟨56, 55, .rw, 0, .c⟩
def NE_PROJ_SROUND : Fld := ⟨54, 54, .rw, 0, .c⟩
def NE_PROJ_GATHER_EN : Fld := ⟨53, 53, .rw, 0, .c⟩
def NE_PROJ_SCALE_BASE : Fld := ⟨52, 39, .rw, 0, .c⟩
def NE_PROJ_TGRP_COUNT : Fld := ⟨38, 30, .rw, 0, .c⟩
def NE_PROJ_KW : Fld := ⟨29, 26, .rw, 0, .c⟩
def NE_PROJ_KH : Fld := ⟨25, 22, .rw, 0, .c⟩
def NE_PROJ_KC : Fld := ⟨21, 14, .rw, 0, .c⟩
def NE_PROJ_MAP_W : Fld := ⟨13, 6, .rw, 0, .c⟩
def NE_PROJ_KDELAY : Fld := ⟨5, 0, .rw, 0, .c⟩
/-- NE_PROJ_p, R133. -/
def NE_PROJ : Reg := ⟨21, 64, [⟨0x220200, [(0x40000, 32), (0x2000, 9), (0x8, 32)], 0⟩], [], [NE_PROJ_VALID, NE_PROJ_TPOP, NE_PROJ_GWIDTH, NE_PROJ_SROUND, NE_PROJ_GATHER_EN, NE_PROJ_SCALE_BASE, NE_PROJ_TGRP_COUNT, NE_PROJ_KW, NE_PROJ_KH, NE_PROJ_KC, NE_PROJ_MAP_W, NE_PROJ_KDELAY]⟩

def CLP_PERIOD_PERIOD : Fld := ⟨31, 0, .rw, 0, .c⟩
/-- CLP_PERIOD_n, R166. -/
def CLP_PERIOD : Reg := ⟨22, 32, [⟨0x50000, [(0x100, 8)], 0⟩], [], [CLP_PERIOD_PERIOD]⟩

def CLP_PHASE_PHASE : Fld := ⟨31, 0, .rw, 0, .c⟩
/-- CLP_PHASE_n, R166. -/
def CLP_PHASE : Reg := ⟨23, 32, [⟨0x50008, [(0x100, 8)], 0⟩], [], [CLP_PHASE_PHASE]⟩

def CLP_CTRL_MARK_PORTS : Fld := ⟨21, 16, .rw, 0, .c⟩
def CLP_CTRL_POLICY : Fld := ⟨1, 0, .rw, 0, .c⟩
/-- CLP_CTRL_n, R166. -/
def CLP_CTRL : Reg := ⟨24, 32, [⟨0x50010, [(0x100, 8)], 0⟩], [], [CLP_CTRL_MARK_PORTS, CLP_CTRL_POLICY]⟩

def CLP_MAXSTRETCH_MAXSTRETCH : Fld := ⟨31, 0, .rw, 0x4E20, .c⟩
/-- CLP_MAXSTRETCH_n, R166. -/
def CLP_MAXSTRETCH : Reg := ⟨25, 32, [⟨0x50018, [(0x100, 8)], 0⟩], [], [CLP_MAXSTRETCH_MAXSTRETCH]⟩

def CLP_INTERM_MAX_INTERM_MAX : Fld := ⟨31, 0, .rw, 0x9C40, .c⟩
/-- CLP_INTERM_MAX_n, R166. -/
def CLP_INTERM_MAX : Reg := ⟨26, 32, [⟨0x50020, [(0x100, 8)], 0⟩], [], [CLP_INTERM_MAX_INTERM_MAX]⟩

def CLP_STEP_COUNT : Fld := ⟨15, 0, .wo, 0, .d⟩
/-- CLP_STEP_n, R166. -/
def CLP_STEP : Reg := ⟨27, 32, [⟨0x50028, [(0x100, 8)], 0⟩], [], [CLP_STEP_COUNT]⟩

def CLP_STATUS_RUNNING : Fld := ⟨31, 31, .ro, 0, .d⟩
def CLP_STATUS_PENDING : Fld := ⟨30, 30, .ro, 0, .d⟩
def CLP_STATUS_IN_INTERM : Fld := ⟨29, 29, .ro, 0, .d⟩
def CLP_STATUS_FELL_BACK : Fld := ⟨28, 28, .ro, 0, .d⟩
def CLP_STATUS_MARK_WAIT : Fld := ⟨27, 27, .ro, 0, .d⟩
def CLP_STATUS_PERIOD_CLAMP : Fld := ⟨26, 26, .w1c, 0, .d⟩
def CLP_STATUS_STEP_ERR : Fld := ⟨25, 25, .w1c, 0, .d⟩
def CLP_STATUS_STEP_REMAIN : Fld := ⟨15, 0, .ro, 0, .d⟩
/-- CLP_STATUS_n, R166. -/
def CLP_STATUS : Reg := ⟨28, 32, [⟨0x50030, [(0x100, 8)], 0⟩], [], [CLP_STATUS_RUNNING, CLP_STATUS_PENDING, CLP_STATUS_IN_INTERM, CLP_STATUS_FELL_BACK, CLP_STATUS_MARK_WAIT, CLP_STATUS_PERIOD_CLAMP, CLP_STATUS_STEP_ERR, CLP_STATUS_STEP_REMAIN]⟩

def CLP_TICK_TICK : Fld := ⟨47, 0, .ro, 0, .c⟩
/-- CLP_TICK_n, R166. -/
def CLP_TICK : Reg := ⟨29, 64, [⟨0x50038, [(0x100, 8)], 0⟩], [], [CLP_TICK_TICK]⟩

def CLP_CNT_COUNT : Fld := ⟨47, 0, .ro, 0, .d⟩
/-- CLP_CNT_n_k, R166. -/
def CLP_CNT : Reg := ⟨30, 64, [⟨0x50040, [(0x100, 8), (0x8, 10)], 0⟩], [], [CLP_CNT_COUNT]⟩

def CLP_INFLIGHT_SUM : Fld := ⟨31, 0, .ro, 0, .d⟩
/-- CLP_INFLIGHT_n_p, R166. -/
def CLP_INFLIGHT : Reg := ⟨31, 32, [⟨0x50098, [(0x100, 8), (0x8, 2)], 0⟩], [], [CLP_INFLIGHT_SUM]⟩

def CLP_SYNC_START : Fld := ⟨7, 0, .wo, 0, .d⟩
/-- CLP_SYNC, R166. -/
def CLP_SYNC : Reg := ⟨32, 32, [⟨0x50800, [], 0⟩], [], [CLP_SYNC_START]⟩

def CLP_STAGGER_GO : Fld := ⟨8, 8, .wo, 0, .d⟩
def CLP_STAGGER_MASK : Fld := ⟨7, 0, .wo, 0, .d⟩
/-- CLP_STAGGER, R166. -/
def CLP_STAGGER : Reg := ⟨33, 32, [⟨0x50808, [], 0⟩], [], [CLP_STAGGER_GO, CLP_STAGGER_MASK]⟩

def CLP_GSTATUS_STAGGER_ERR : Fld := ⟨0, 0, .w1c, 0, .d⟩
/-- CLP_GSTATUS, R166. -/
def CLP_GSTATUS : Reg := ⟨34, 32, [⟨0x50810, [], 0⟩], [], [CLP_GSTATUS_STAGGER_ERR]⟩

def NE_LATE_SEL_POINT : Fld := ⟨6, 4, .rw, 0, .d⟩
def NE_LATE_SEL_CTX : Fld := ⟨3, 1, .rw, 0, .d⟩
def NE_LATE_SEL_CLASS : Fld := ⟨0, 0, .rw, 0, .d⟩
/-- NE_LATE_SEL, R167. -/
def NE_LATE_SEL : Reg := ⟨35, 32, [⟨0x220170, [(0x40000, 32), (0x2000, 9)], 0⟩], [], [NE_LATE_SEL_POINT, NE_LATE_SEL_CTX, NE_LATE_SEL_CLASS]⟩

def NE_LATE_DATA_COUNT : Fld := ⟨47, 0, .ro, 0, .d⟩
/-- NE_LATE_DATA, R167. -/
def NE_LATE_DATA : Reg := ⟨36, 64, [⟨0x220178, [(0x40000, 32), (0x2000, 9)], 0⟩], [], [NE_LATE_DATA_COUNT]⟩

def NE_TCNT_COUNT : Fld := ⟨47, 0, .ro, 0, .d⟩
/-- NE_TCNT_n, R167. -/
def NE_TCNT : Reg := ⟨37, 64, [⟨0x220340, [(0x40000, 32), (0x2000, 9), (0x8, 2)], 0⟩], [], [NE_TCNT_COUNT]⟩

def TUM_STATUS_SWEEPING : Fld := ⟨31, 31, .ro, 0, .d⟩
def TUM_STATUS_SWEEP_CTX : Fld := ⟨30, 28, .ro, 0, .d⟩
def TUM_STATUS_WT_BUSY : Fld := ⟨27, 27, .ro, 0, .d⟩
def TUM_STATUS_CFG_ERR : Fld := ⟨2, 2, .w1c, 0, .d⟩
def TUM_STATUS_RULE_FAULT : Fld := ⟨1, 1, .w1c, 0, .d⟩
/-- TUM_STATUS, R196. -/
def TUM_STATUS : Reg := ⟨38, 32, [⟨0x210000, [(0x40000, 32)], 0⟩], [], [TUM_STATUS_SWEEPING, TUM_STATUS_SWEEP_CTX, TUM_STATUS_WT_BUSY, TUM_STATUS_CFG_ERR, TUM_STATUS_RULE_FAULT]⟩

def TUM_SEED_SEED : Fld := ⟨31, 0, .rw, 1, .c⟩
/-- TUM_SEED, R196. -/
def TUM_SEED : Reg := ⟨39, 32, [⟨0x210008, [(0x40000, 32)], 0⟩], [], [TUM_SEED_SEED]⟩

def TUM_CNT_COUNT : Fld := ⟨47, 0, .ro, 0, .d⟩
/-- TUM_CNT_n, R196. -/
def TUM_CNT : Reg := ⟨40, 64, [⟨0x210040, [(0x40000, 32), (0x8, 12)], 0⟩], [], [TUM_CNT_COUNT]⟩

def TUM_DP_SEL_POINT : Fld := ⟨6, 4, .rw, 0, .d⟩
def TUM_DP_SEL_CTX : Fld := ⟨3, 1, .rw, 0, .d⟩
def TUM_DP_SEL_CLASS : Fld := ⟨0, 0, .rw, 0, .d⟩
/-- TUM_DP_SEL, R196. -/
def TUM_DP_SEL : Reg := ⟨41, 32, [⟨0x2100A0, [(0x40000, 32)], 0⟩], [], [TUM_DP_SEL_POINT, TUM_DP_SEL_CTX, TUM_DP_SEL_CLASS]⟩

def TUM_DP_DATA_COUNT : Fld := ⟨47, 0, .ro, 0, .d⟩
/-- TUM_DP_DATA, R196. -/
def TUM_DP_DATA : Reg := ⟨42, 64, [⟨0x2100A8, [(0x40000, 32)], 0⟩], [], [TUM_DP_DATA_COUNT]⟩

def TUM_EPOCH_LEN_MODE : Fld := ⟨16, 16, .rw, 0, .c⟩
def TUM_EPOCH_LEN_LEN : Fld := ⟨15, 0, .rw, 0, .c⟩
/-- TUM_EPOCH_LEN_c, R196. -/
def TUM_EPOCH_LEN : Reg := ⟨43, 32, [⟨0x210100, [(0x40000, 32), (0x80, 8)], 0⟩], [], [TUM_EPOCH_LEN_MODE, TUM_EPOCH_LEN_LEN]⟩

def TUM_EPOCH_BASE_BASE : Fld := ⟨47, 0, .rw, 0, .c⟩
/-- TUM_EPOCH_BASE_c, R196. -/
def TUM_EPOCH_BASE : Reg := ⟨44, 64, [⟨0x210108, [(0x40000, 32), (0x80, 8)], 0⟩], [], [TUM_EPOCH_BASE_BASE]⟩

def TUM_TRACE_KX : Fld := ⟨31, 24, .rw, 0, .c⟩
def TUM_TRACE_INCX : Fld := ⟨23, 16, .rw, 0, .c⟩
def TUM_TRACE_KY : Fld := ⟨15, 8, .rw, 0, .c⟩
def TUM_TRACE_INCY : Fld := ⟨7, 0, .rw, 0, .c⟩
/-- TUM_TRACE_c, R196. -/
def TUM_TRACE : Reg := ⟨45, 32, [⟨0x210110, [(0x40000, 32), (0x80, 8)], 0⟩], [], [TUM_TRACE_KX, TUM_TRACE_INCX, TUM_TRACE_KY, TUM_TRACE_INCY]⟩

def TUM_HOMEO_BAND : Fld := ⟨15, 8, .rw, 0, .c⟩
def TUM_HOMEO_Y_TARGET : Fld := ⟨7, 0, .rw, 0, .c⟩
/-- TUM_HOMEO_c, R196. -/
def TUM_HOMEO : Reg := ⟨46, 32, [⟨0x210114, [(0x40000, 32), (0x80, 8)], 0⟩], [], [TUM_HOMEO_BAND, TUM_HOMEO_Y_TARGET]⟩

def TUM_CFG_MOD_VALID : Fld := ⟨19, 16, .rw, 0, .c⟩
def TUM_CFG_RULE_VALID : Fld := ⟨15, 12, .rw, 0, .c⟩
def TUM_CFG_MODSEL : Fld := ⟨7, 0, .rw, 0, .c⟩
/-- TUM_CFG_c, R196. -/
def TUM_CFG : Reg := ⟨47, 32, [⟨0x210118, [(0x40000, 32), (0x80, 8)], 0⟩], [], [TUM_CFG_MOD_VALID, TUM_CFG_RULE_VALID, TUM_CFG_MODSEL]⟩

def TUM_MOD_KEY_KEY : Fld := ⟨31, 0, .rw, 0, .c⟩
/-- TUM_MOD_KEY_c_ch, R196. -/
def TUM_MOD_KEY : Reg := ⟨48, 32, [⟨0x210120, [(0x40000, 32), (0x80, 8), (0x4, 4)], 0⟩], [], [TUM_MOD_KEY_KEY]⟩

def TUM_EPOCH_NOW_EPOCH : Fld := ⟨47, 0, .ro, 0, .d⟩
/-- TUM_EPOCH_NOW_c, R196. -/
def TUM_EPOCH_NOW : Reg := ⟨49, 64, [⟨0x210140, [(0x40000, 32), (0x80, 8)], 0⟩], [], [TUM_EPOCH_NOW_EPOCH]⟩

def TUM_SWEPT_EPOCH : Fld := ⟨47, 0, .ro, 0, .d⟩
/-- TUM_SWEPT_c, R196. -/
def TUM_SWEPT : Reg := ⟨50, 64, [⟨0x210148, [(0x40000, 32), (0x80, 8)], 0⟩], [], [TUM_SWEPT_EPOCH]⟩

def TUM_WT_EPOCH : Fld := ⟨47, 0, .ro, 0, .d⟩
/-- TUM_WT_c, R196. -/
def TUM_WT : Reg := ⟨51, 64, [⟨0x210150, [(0x40000, 32), (0x80, 8)], 0⟩], [], [TUM_WT_EPOCH]⟩

def TUM_PL_WORDS : Fld := ⟨30, 16, .rw, 0, .c⟩
def TUM_PL_BASE : Fld := ⟨14, 0, .rw, 0, .c⟩
/-- TUM_PL_e, R196. -/
def TUM_PL : Reg := ⟨52, 32, [⟨0x210800, [(0x40000, 32), (0x100, 9)], 0⟩], [], [TUM_PL_WORDS, TUM_PL_BASE]⟩

def TUM_PLASTIC_PROJ_MASK : Fld := ⟨31, 0, .rw, 0, .c⟩
/-- TUM_PLASTIC_PROJ_e, R197. -/
def TUM_PLASTIC_PROJ : Reg := ⟨53, 32, [⟨0x210808, [(0x40000, 32), (0x100, 9)], 0⟩], [], [TUM_PLASTIC_PROJ_MASK]⟩

def TUM_HPROJ_EN : Fld := ⟨31, 31, .rw, 0, .c⟩
def TUM_HPROJ_NSGRP : Fld := ⟨11, 0, .rw, 0, .c⟩
/-- TUM_HPROJ_e_p, R197. -/
def TUM_HPROJ : Reg := ⟨54, 32, [⟨0x210840, [(0x40000, 32), (0x100, 9), (0x4, 32)], 0⟩], [], [TUM_HPROJ_EN, TUM_HPROJ_NSGRP]⟩

def TUM_RULE_APER_WORD : Fld := ⟨31, 0, .rw, 0, .c⟩
/-- Rule aperture, R197. -/
def TUM_RULE_APER : Reg := ⟨55, 32, [⟨0x214000, [(0x40000, 32), (0x100, 8), (0x40, 4), (0x4, 16)], 0⟩], [], [TUM_RULE_APER_WORD]⟩

def USH_CTRL_LOAD_TARGET : Fld := ⟨23, 16, .rw, 0x32, .c⟩
def USH_CTRL_SEAM_FLOOR : Fld := ⟨11, 10, .rw, 0, .c⟩
def USH_CTRL_PROMOTE_EN : Fld := ⟨2, 2, .rw, 1, .c⟩
def USH_CTRL_REBAL_EN : Fld := ⟨1, 1, .rw, 1, .c⟩
/-- USH_CTRL_c, R234. -/
def USH_CTRL : Reg := ⟨56, 32, [⟨0x100000, [(0x100, 8)], 0⟩], [], [USH_CTRL_LOAD_TARGET, USH_CTRL_SEAM_FLOOR, USH_CTRL_PROMOTE_EN, USH_CTRL_REBAL_EN]⟩

def USH_STATUS_PLACED : Fld := ⟨31, 31, .ro, 0, .d⟩
def USH_STATUS_MIGRATING : Fld := ⟨30, 30, .ro, 0, .d⟩
def USH_STATUS_EVACUATING : Fld := ⟨29, 29, .ro, 0, .d⟩
def USH_STATUS_MIGR_STEP : Fld := ⟨28, 26, .ro, 0, .d⟩
def USH_STATUS_SPILL_SINGLE : Fld := ⟨25, 25, .ro, 0, .d⟩
def USH_STATUS_LAST_REASON : Fld := ⟨15, 0, .ro, 0, .d⟩
/-- USH_STATUS_c, R234. -/
def USH_STATUS : Reg := ⟨57, 32, [⟨0x100008, [(0x100, 8)], 0⟩], [], [USH_STATUS_PLACED, USH_STATUS_MIGRATING, USH_STATUS_EVACUATING, USH_STATUS_MIGR_STEP, USH_STATUS_SPILL_SINGLE, USH_STATUS_LAST_REASON]⟩

def USH_REASON_RECORD : Fld := ⟨31, 16, .ro, 0, .d⟩
def USH_REASON_TILE : Fld := ⟨15, 11, .ro, 0, .d⟩
def USH_REASON_ENGINE : Fld := ⟨10, 7, .ro, 0, .d⟩
def USH_REASON_LINK : Fld := ⟨6, 4, .ro, 0, .d⟩
/-- USH_REASON_c, R234. -/
def USH_REASON : Reg := ⟨58, 32, [⟨0x100010, [(0x100, 8)], 0⟩], [], [USH_REASON_RECORD, USH_REASON_TILE, USH_REASON_ENGINE, USH_REASON_LINK]⟩

def USH_INFLIGHT_MAX_TB : Fld := ⟨31, 0, .rw, 0x4E20, .c⟩
/-- USH_INFLIGHT_MAX_c, R234. -/
def USH_INFLIGHT_MAX : Reg := ⟨59, 32, [⟨0x100018, [(0x100, 8)], 0⟩], [], [USH_INFLIGHT_MAX_TB]⟩

def USH_GEN_FLIPS : Fld := ⟨31, 0, .ro, 0, .d⟩
/-- USH_GEN_c, R234. -/
def USH_GEN : Reg := ⟨60, 32, [⟨0x100020, [(0x100, 8)], 0⟩], [], [USH_GEN_FLIPS]⟩

def USH_FLOW_SEL_INDEX : Fld := ⟨7, 0, .rw, 0, .d⟩
/-- USH_FLOW_SEL_c, R234. -/
def USH_FLOW_SEL : Reg := ⟨61, 32, [⟨0x100028, [(0x100, 8)], 0⟩], [], [USH_FLOW_SEL_INDEX]⟩

def USH_FLOW_DATA_VALID : Fld := ⟨63, 63, .ro, 0, .d⟩
def USH_FLOW_DATA_SEAM_TOL : Fld := ⟨62, 62, .ro, 0, .d⟩
def USH_FLOW_DATA_SLOTS : Fld := ⟨61, 56, .ro, 0, .d⟩
def USH_FLOW_DATA_FIRST : Fld := ⟨55, 50, .ro, 0, .d⟩
def USH_FLOW_DATA_BOUND : Fld := ⟨39, 32, .ro, 0, .d⟩
def USH_FLOW_DATA_FLOW_ID : Fld := ⟨31, 16, .ro, 0, .d⟩
def USH_FLOW_DATA_POP : Fld := ⟨15, 0, .ro, 0, .d⟩
/-- USH_FLOW_DATA_c, R234. -/
def USH_FLOW_DATA : Reg := ⟨62, 64, [⟨0x100030, [(0x100, 8)], 0⟩], [], [USH_FLOW_DATA_VALID, USH_FLOW_DATA_SEAM_TOL, USH_FLOW_DATA_SLOTS, USH_FLOW_DATA_FIRST, USH_FLOW_DATA_BOUND, USH_FLOW_DATA_FLOW_ID, USH_FLOW_DATA_POP]⟩

def USH_BLK_SEL_POP : Fld := ⟨31, 16, .rw, 0, .d⟩
def USH_BLK_SEL_BLOCK : Fld := ⟨15, 0, .rw, 0, .d⟩
/-- USH_BLK_SEL_c, R234. -/
def USH_BLK_SEL : Reg := ⟨63, 32, [⟨0x100038, [(0x100, 8)], 0⟩], [], [USH_BLK_SEL_POP, USH_BLK_SEL_BLOCK]⟩

def USH_BLK_DATA_VALID : Fld := ⟨63, 63, .ro, 0, .d⟩
def USH_BLK_DATA_CHIP : Fld := ⟨62, 48, .ro, 0, .d⟩
def USH_BLK_DATA_TILE : Fld := ⟨47, 43, .ro, 0, .d⟩
def USH_BLK_DATA_ENGINE : Fld := ⟨42, 39, .ro, 0, .d⟩
def USH_BLK_DATA_SIZE : Fld := ⟨35, 22, .ro, 0, .d⟩
def USH_BLK_DATA_FIRST : Fld := ⟨20, 0, .ro, 0, .d⟩
/-- USH_BLK_DATA_c, R234. -/
def USH_BLK_DATA : Reg := ⟨64, 64, [⟨0x100040, [(0x100, 8)], 0⟩], [], [USH_BLK_DATA_VALID, USH_BLK_DATA_CHIP, USH_BLK_DATA_TILE, USH_BLK_DATA_ENGINE, USH_BLK_DATA_SIZE, USH_BLK_DATA_FIRST]⟩

def USH_SPILL_USED : Fld := ⟨29, 0, .ro, 0, .d⟩
/-- USH_SPILL_c, R234. -/
def USH_SPILL : Reg := ⟨65, 64, [⟨0x100048, [(0x100, 8)], 0⟩], [], [USH_SPILL_USED]⟩

def USH_CNT_COUNT : Fld := ⟨47, 0, .ro, 0, .d⟩
/-- USH_CNT_c_k, R234. -/
def USH_CNT : Reg := ⟨66, 64, [⟨0x100080, [(0x100, 8), (0x8, 9)], 0⟩], [], [USH_CNT_COUNT]⟩

def USH_PERIOD_MS : Fld := ⟨13, 0, .rw, 0x64, .c⟩
/-- USH_PERIOD, R234. -/
def USH_PERIOD : Reg := ⟨67, 32, [⟨0x100800, [], 0⟩], [], [USH_PERIOD_MS]⟩

def USH_COPY_GBPS : Fld := ⟨7, 0, .rw, 8, .c⟩
/-- USH_COPY, R234. -/
def USH_COPY : Reg := ⟨68, 32, [⟨0x100808, [], 0⟩], [], [USH_COPY_GBPS]⟩

def MID_STATUS_RESID_CLR : Fld := ⟨7, 7, .w1c, 0, .d⟩
def MID_STATUS_HDR_LOST : Fld := ⟨6, 6, .w1c, 0, .d⟩
def MID_STATUS_FT_ERR : Fld := ⟨5, 5, .w1c, 0, .d⟩
def MID_STATUS_WR_BUSY : Fld := ⟨4, 4, .w1c, 0, .d⟩
def MID_STATUS_CFG_ERR : Fld := ⟨3, 3, .w1c, 0, .d⟩
/-- MID_STATUS, R273. -/
def MID_STATUS : Reg := ⟨69, 32, [⟨0x208008, [(0x40000, 32)], 0⟩], [], [MID_STATUS_RESID_CLR, MID_STATUS_HDR_LOST, MID_STATUS_FT_ERR, MID_STATUS_WR_BUSY, MID_STATUS_CFG_ERR]⟩

def MID_VER_SEL_VER : Fld := ⟨7, 0, .rw, 0, .c⟩
/-- MID_VER_SEL, R273. -/
def MID_VER_SEL : Reg := ⟨70, 32, [⟨0x208010, [(0x40000, 32)], 0⟩], [], [MID_VER_SEL_VER]⟩

def MID_VER_STATUS_DRAINED : Fld := ⟨15, 8, .ro, 0xFF, .d⟩
/-- MID_VER_STATUS, R273. -/
def MID_VER_STATUS : Reg := ⟨71, 32, [⟨0x208018, [(0x40000, 32)], 0⟩], [], [MID_VER_STATUS_DRAINED]⟩

def MID_COMB_TIMEOUT : Fld := ⟨8, 0, .rw, 0x28, .c⟩
/-- MID_COMB, R273. -/
def MID_COMB : Reg := ⟨72, 32, [⟨0x208020, [(0x40000, 32)], 0⟩], [], [MID_COMB_TIMEOUT]⟩

def MID_ARB_W2 : Fld := ⟨7, 4, .rw, 1, .c⟩
def MID_ARB_W1 : Fld := ⟨3, 0, .rw, 3, .c⟩
/-- MID_ARB, R273. -/
def MID_ARB : Reg := ⟨73, 32, [⟨0x208028, [(0x40000, 32)], 0⟩], [], [MID_ARB_W2, MID_ARB_W1]⟩

def MID_FT_REGION_COUNT : Fld := ⟨28, 16, .rw, 0, .c⟩
def MID_FT_REGION_BASE : Fld := ⟨11, 0, .rw, 0, .c⟩
/-- MID_FT_REGION_c, R273. -/
def MID_FT_REGION : Reg := ⟨74, 32, [⟨0x208040, [(0x40000, 32), (0x8, 8)], 0⟩], [], [MID_FT_REGION_COUNT, MID_FT_REGION_BASE]⟩

def MID_FT_SEL_VERSION : Fld := ⟨12, 12, .rw, 0, .d⟩
def MID_FT_SEL_INDEX : Fld := ⟨11, 0, .rw, 0, .d⟩
/-- MID_FT_SEL, R274. -/
def MID_FT_SEL : Reg := ⟨75, 32, [⟨0x208080, [(0x40000, 32)], 0⟩], [], [MID_FT_SEL_VERSION, MID_FT_SEL_INDEX]⟩

def MID_FT_LO_ENTRY_LO : Fld := ⟨63, 0, .rw, 0, .d⟩
/-- MID_FT_LO, R274. -/
def MID_FT_LO : Reg := ⟨76, 64, [⟨0x208088, [(0x40000, 32)], 0⟩], [], [MID_FT_LO_ENTRY_LO]⟩

def MID_FT_HI_ENTRY_HI : Fld := ⟨63, 0, .rw, 0, .d⟩
/-- MID_FT_HI, R274. -/
def MID_FT_HI : Reg := ⟨77, 64, [⟨0x208090, [(0x40000, 32)], 0⟩], [], [MID_FT_HI_ENTRY_HI]⟩

def MID_C0POL_EN : Fld := ⟨31, 31, .rw, 0, .c⟩
def MID_C0POL_RATE : Fld := ⟨27, 22, .rw, 0, .c⟩
def MID_C0POL_BURST : Fld := ⟨21, 17, .rw, 0, .c⟩
def MID_C0POL_FLOW : Fld := ⟨15, 0, .rw, 0, .c⟩
/-- MID_C0POL_i, R274. -/
def MID_C0POL : Reg := ⟨78, 32, [⟨0x208100, [(0x40000, 32), (0x8, 16)], 0⟩], [], [MID_C0POL_EN, MID_C0POL_RATE, MID_C0POL_BURST, MID_C0POL_FLOW]⟩

def MID_PC_SEL_PORT : Fld := ⟨5, 3, .rw, 0, .d⟩
def MID_PC_SEL_CLASS : Fld := ⟨2, 1, .rw, 0, .d⟩
def MID_PC_SEL_KIND : Fld := ⟨0, 0, .rw, 0, .d⟩
/-- MID_PC_SEL, R274. -/
def MID_PC_SEL : Reg := ⟨79, 32, [⟨0x208200, [(0x40000, 32)], 0⟩], [], [MID_PC_SEL_PORT, MID_PC_SEL_CLASS, MID_PC_SEL_KIND]⟩

def MID_PC_DATA_COUNT : Fld := ⟨47, 0, .ro, 0, .d⟩
/-- MID_PC_DATA, R274. -/
def MID_PC_DATA : Reg := ⟨80, 64, [⟨0x208208, [(0x40000, 32)], 0⟩], [], [MID_PC_DATA_COUNT]⟩

def MID_DP_SEL_POINT : Fld := ⟨7, 5, .rw, 0, .d⟩
def MID_DP_SEL_CTX : Fld := ⟨4, 2, .rw, 0, .d⟩
def MID_DP_SEL_CLASS : Fld := ⟨1, 0, .rw, 0, .d⟩
/-- MID_DP_SEL, R274. -/
def MID_DP_SEL : Reg := ⟨81, 32, [⟨0x208210, [(0x40000, 32)], 0⟩], [], [MID_DP_SEL_POINT, MID_DP_SEL_CTX, MID_DP_SEL_CLASS]⟩

def MID_DP_DATA_COUNT : Fld := ⟨47, 0, .ro, 0, .d⟩
/-- MID_DP_DATA, R274. -/
def MID_DP_DATA : Reg := ⟨82, 64, [⟨0x208218, [(0x40000, 32)], 0⟩], [], [MID_DP_DATA_COUNT]⟩

def MID_CNT_COUNT : Fld := ⟨47, 0, .ro, 0, .d⟩
/-- MID_CNT_n, R274. -/
def MID_CNT : Reg := ⟨83, 64, [⟨0x208280, [(0x40000, 32), (0x8, 9)], 0⟩], [], [MID_CNT_COUNT]⟩

def MID_SLOT_APER_FLOW : Fld := ⟨15, 0, .rw, 0xFFFF, .c⟩
/-- Slot-table aperture, R274. -/
def MID_SLOT_APER : Reg := ⟨84, 16, [⟨0x208400, [(0x40000, 32), (0x200, 2), (0x80, 4), (0x2, 64)], 0⟩], [], [MID_SLOT_APER_FLOW]⟩

def ELK_CTRL_TRAIN_TO : Fld := ⟨31, 24, .rw, 0x1E, .c⟩
def ELK_CTRL_DOWN_TO : Fld := ⟨23, 16, .rw, 0xA, .c⟩
def ELK_CTRL_REPLAY_TO : Fld := ⟨15, 8, .rw, 0xA, .c⟩
def ELK_CTRL_ANY_WIRING : Fld := ⟨3, 3, .rw, 0, .c⟩
def ELK_CTRL_FABRIC : Fld := ⟨2, 2, .rw, 1, .c⟩
def ELK_CTRL_RETRAIN : Fld := ⟨1, 1, .wo, 0, .d⟩
def ELK_CTRL_EN : Fld := ⟨0, 0, .rw, 1, .c⟩
/-- ELK_CTRL_p, R317. -/
def ELK_CTRL : Reg := ⟨85, 32, [⟨0xD0000, [(0x2000, 6)], 0⟩], [], [ELK_CTRL_TRAIN_TO, ELK_CTRL_DOWN_TO, ELK_CTRL_REPLAY_TO, ELK_CTRL_ANY_WIRING, ELK_CTRL_FABRIC, ELK_CTRL_RETRAIN, ELK_CTRL_EN]⟩

def ELK_STATUS_STATE : Fld := ⟨31, 29, .ro, 0, .d⟩
def ELK_STATUS_DEGRADED : Fld := ⟨28, 28, .ro, 0, .d⟩
def ELK_STATUS_RX_LANES : Fld := ⟨27, 26, .ro, 0, .d⟩
def ELK_STATUS_GEN : Fld := ⟨25, 22, .ro, 0, .d⟩
def ELK_STATUS_GEN_ERR : Fld := ⟨21, 21, .w1c, 0, .d⟩
def ELK_STATUS_CAP_ERR : Fld := ⟨20, 20, .w1c, 0, .d⟩
def ELK_STATUS_WIRING_ERR : Fld := ⟨19, 19, .w1c, 0, .d⟩
def ELK_STATUS_REPLAYING : Fld := ⟨18, 18, .ro, 0, .d⟩
def ELK_STATUS_NAK_ACTIVE : Fld := ⟨17, 17, .ro, 0, .d⟩
/-- ELK_STATUS_p, R317. -/
def ELK_STATUS : Reg := ⟨86, 32, [⟨0xD0008, [(0x2000, 6)], 0⟩], [], [ELK_STATUS_STATE, ELK_STATUS_DEGRADED, ELK_STATUS_RX_LANES, ELK_STATUS_GEN, ELK_STATUS_GEN_ERR, ELK_STATUS_CAP_ERR, ELK_STATUS_WIRING_ERR, ELK_STATUS_REPLAYING, ELK_STATUS_NAK_ACTIVE]⟩

def ELK_PEER_CAP_RECORD : Fld := ⟨63, 0, .ro, 0, .d⟩
/-- ELK_PEER_CAP_p, R317. -/
def ELK_PEER_CAP : Reg := ⟨87, 64, [⟨0xD0010, [(0x2000, 6)], 0⟩], [], [ELK_PEER_CAP_RECORD]⟩

def ELK_LANE_SER_LIMIT : Fld := ⟨31, 0, .rw, 0x10000, .c⟩
/-- ELK_LANE_SER_p, R317. -/
def ELK_LANE_SER : Reg := ⟨88, 32, [⟨0xD0018, [(0x2000, 6)], 0⟩], [], [ELK_LANE_SER_LIMIT]⟩

def ELK_CNT_COUNT : Fld := ⟨47, 0, .ro, 0, .d⟩
/-- ELK_CNT_p_n, R317. -/
def ELK_CNT : Reg := ⟨89, 64, [⟨0xD0100, [(0x2000, 6), (0x8, 11)], 0⟩], [], [ELK_CNT_COUNT]⟩

def ELK_DP_SEL_POINT : Fld := ⟨6, 5, .rw, 0, .d⟩
def ELK_DP_SEL_CTX : Fld := ⟨4, 2, .rw, 0, .d⟩
def ELK_DP_SEL_CLASS : Fld := ⟨1, 0, .rw, 0, .d⟩
/-- ELK_DP_SEL_p, R317. -/
def ELK_DP_SEL : Reg := ⟨90, 32, [⟨0xD0200, [(0x2000, 6)], 0⟩], [], [ELK_DP_SEL_POINT, ELK_DP_SEL_CTX, ELK_DP_SEL_CLASS]⟩

def ELK_DP_DATA_COUNT : Fld := ⟨47, 0, .ro, 0, .d⟩
/-- ELK_DP_DATA_p, R317. -/
def ELK_DP_DATA : Reg := ⟨91, 64, [⟨0xD0208, [(0x2000, 6)], 0⟩], [], [ELK_DP_DATA_COUNT]⟩

def RIM_TOPO_SZ_M1 : Fld := ⟨29, 25, .rw, 0, .b⟩
def RIM_TOPO_SY_M1 : Fld := ⟨24, 20, .rw, 0, .b⟩
def RIM_TOPO_SX_M1 : Fld := ⟨19, 15, .rw, 0, .b⟩
def RIM_TOPO_CHIP_ID : Fld := ⟨14, 0, .rw, 0, .b⟩
/-- RIM_TOPO, R317. -/
def RIM_TOPO : Reg := ⟨92, 32, [⟨0xE0000, [], 0⟩], [], [RIM_TOPO_SZ_M1, RIM_TOPO_SY_M1, RIM_TOPO_SX_M1, RIM_TOPO_CHIP_ID]⟩

def RIM_VER_SEL_VER : Fld := ⟨7, 0, .rw, 0, .c⟩
/-- RIM_VER_SEL, R317. -/
def RIM_VER_SEL : Reg := ⟨93, 32, [⟨0xE0008, [], 0⟩], [], [RIM_VER_SEL_VER]⟩

def RIM_VER_STATUS_DRAINED : Fld := ⟨15, 8, .ro, 0xFF, .d⟩
/-- RIM_VER_STATUS, R317. -/
def RIM_VER_STATUS : Reg := ⟨94, 32, [⟨0xE0010, [], 0⟩], [], [RIM_VER_STATUS_DRAINED]⟩

def RIM_STATUS_WR_BUSY : Fld := ⟨1, 1, .w1c, 0, .d⟩
def RIM_STATUS_CFG_ERR : Fld := ⟨0, 0, .w1c, 0, .d⟩
/-- RIM_STATUS, R318. -/
def RIM_STATUS : Reg := ⟨95, 32, [⟨0xE0018, [], 0⟩], [], [RIM_STATUS_WR_BUSY, RIM_STATUS_CFG_ERR]⟩

def RIM_TAB_REGION_COUNT : Fld := ⟨30, 16, .rw, 0, .c⟩
def RIM_TAB_REGION_BASE : Fld := ⟨13, 0, .rw, 0, .c⟩
/-- RIM_TAB_REGION_c, R318. -/
def RIM_TAB_REGION : Reg := ⟨96, 32, [⟨0xE0040, [(0x8, 8)], 0⟩], [], [RIM_TAB_REGION_COUNT, RIM_TAB_REGION_BASE]⟩

def RIM_TAB_SEL_VERSION : Fld := ⟨14, 14, .rw, 0, .d⟩
def RIM_TAB_SEL_INDEX : Fld := ⟨13, 0, .rw, 0, .d⟩
/-- RIM_TAB_SEL, R318. -/
def RIM_TAB_SEL : Reg := ⟨97, 32, [⟨0xE0080, [], 0⟩], [], [RIM_TAB_SEL_VERSION, RIM_TAB_SEL_INDEX]⟩

def RIM_TAB_LO_ENTRY_LO : Fld := ⟨63, 0, .rw, 0, .d⟩
/-- RIM_TAB_LO, R318. -/
def RIM_TAB_LO : Reg := ⟨98, 64, [⟨0xE0088, [], 0⟩], [], [RIM_TAB_LO_ENTRY_LO]⟩

def RIM_TAB_HI_ENTRY_HI : Fld := ⟨63, 0, .rw, 0, .d⟩
/-- RIM_TAB_HI, R318. -/
def RIM_TAB_HI : Reg := ⟨99, 64, [⟨0xE0090, [], 0⟩], [], [RIM_TAB_HI_ENTRY_HI]⟩

def RIM_XPT_HOPS : Fld := ⟨31, 26, .rw, 0x30, .c⟩
def RIM_XPT_TO : Fld := ⟨25, 16, .rw, 0x14, .c⟩
def RIM_XPT_ACK_DELAY : Fld := ⟨15, 8, .rw, 0xA, .c⟩
/-- RIM_XPT, R318. -/
def RIM_XPT : Reg := ⟨100, 32, [⟨0xE00A0, [], 0⟩], [], [RIM_XPT_HOPS, RIM_XPT_TO, RIM_XPT_ACK_DELAY]⟩

def RIM_DT_TICK : Fld := ⟨47, 0, .ro, 0, .d⟩
/-- RIM_DT_c_p, R318. -/
def RIM_DT : Reg := ⟨101, 64, [⟨0xE0100, [(0x40, 8), (0x8, 6)], 0⟩], [], [RIM_DT_TICK]⟩

def RIM_CNT_COUNT : Fld := ⟨47, 0, .ro, 0, .d⟩
/-- RIM_CNT_n, R318. -/
def RIM_CNT : Reg := ⟨102, 64, [⟨0xE0400, [(0x8, 7)], 0⟩], [], [RIM_CNT_COUNT]⟩

def RIM_DP_SEL_POINT : Fld := ⟨8, 5, .rw, 0, .d⟩
def RIM_DP_SEL_CTX : Fld := ⟨4, 2, .rw, 0, .d⟩
def RIM_DP_SEL_CLASS : Fld := ⟨1, 0, .rw, 0, .d⟩
/-- RIM_DP_SEL, R318. -/
def RIM_DP_SEL : Reg := ⟨103, 32, [⟨0xE0500, [], 0⟩], [], [RIM_DP_SEL_POINT, RIM_DP_SEL_CTX, RIM_DP_SEL_CLASS]⟩

def RIM_DP_DATA_COUNT : Fld := ⟨47, 0, .ro, 0, .d⟩
/-- RIM_DP_DATA, R318. -/
def RIM_DP_DATA : Reg := ⟨104, 64, [⟨0xE0508, [], 0⟩], [], [RIM_DP_DATA_COUNT]⟩

def RIM_COMPL_BYTES : Fld := ⟨47, 0, .rw, 0, .d⟩
/-- RIM_COMPL_c_i, R318. -/
def RIM_COMPL : Reg := ⟨105, 64, [⟨0xE1000, [(0x800, 8), (0x8, 256)], 0⟩], [], [RIM_COMPL_BYTES]⟩

def SNS_IN_CFG_EN : Fld := ⟨63, 63, .rw, 0, .c⟩
def SNS_IN_CFG_CTX : Fld := ⟨62, 60, .rw, 0, .c⟩
def SNS_IN_CFG_BACK : Fld := ⟨51, 48, .rw, 0, .c⟩
def SNS_IN_CFG_DT_MASK : Fld := ⟨47, 40, .rw, 0, .c⟩
def SNS_IN_CFG_REFR_US : Fld := ⟨39, 28, .rw, 0, .c⟩
def SNS_IN_CFG_PIX_BASE : Fld := ⟨27, 18, .rw, 0, .c⟩
/-- SNS_IN_CFG_i, R343. -/
def SNS_IN_CFG : Reg := ⟨106, 64, [⟨0xC0000, [(0x40, 18)], 0⟩], [], [SNS_IN_CFG_EN, SNS_IN_CFG_CTX, SNS_IN_CFG_BACK, SNS_IN_CFG_DT_MASK, SNS_IN_CFG_REFR_US, SNS_IN_CFG_PIX_BASE]⟩

def SNS_IN_CHK_X_MAX : Fld := ⟨63, 48, .rw, 0, .c⟩
def SNS_IN_CHK_Y_MAX : Fld := ⟨47, 32, .rw, 0, .c⟩
def SNS_IN_CHK_TOL_US : Fld := ⟨31, 16, .rw, 0, .c⟩
def SNS_IN_CHK_STALE_US : Fld := ⟨15, 0, .rw, 0, .c⟩
/-- SNS_IN_CHK_i, R343. -/
def SNS_IN_CHK : Reg := ⟨107, 64, [⟨0xC0008, [(0x40, 18)], 0⟩], [], [SNS_IN_CHK_X_MAX, SNS_IN_CHK_Y_MAX, SNS_IN_CHK_TOL_US, SNS_IN_CHK_STALE_US]⟩

def SNS_TURN_RATE : Fld := ⟨31, 16, .rw, 0, .c⟩
def SNS_TURN_BURST : Fld := ⟨15, 0, .rw, 0, .c⟩
/-- SNS_TURN_i, R343. -/
def SNS_TURN : Reg := ⟨108, 32, [⟨0xC0010, [(0x40, 18)], 0⟩], [], [SNS_TURN_RATE, SNS_TURN_BURST]⟩

def SNS_MAP_ORG_Y0 : Fld := ⟨31, 16, .rw, 0, .c⟩
def SNS_MAP_ORG_X0 : Fld := ⟨15, 0, .rw, 0, .c⟩
/-- SNS_MAP_ORG_i, R343. -/
def SNS_MAP_ORG : Reg := ⟨109, 32, [⟨0xC0014, [(0x40, 18)], 0⟩], [], [SNS_MAP_ORG_Y0, SNS_MAP_ORG_X0]⟩

def SNS_LAYOUT_A_WSIZE : Fld := ⟨63, 62, .rw, 1, .c⟩
def SNS_LAYOUT_A_TYPE_POS : Fld := ⟨61, 56, .rw, 0, .c⟩
def SNS_LAYOUT_A_TYPE_W : Fld := ⟨55, 52, .rw, 0, .c⟩
def SNS_LAYOUT_A_EV_TYPE : Fld := ⟨51, 44, .rw, 0, .c⟩
def SNS_LAYOUT_A_TB_TYPE : Fld := ⟨43, 36, .rw, 0, .c⟩
def SNS_LAYOUT_A_X_POS : Fld := ⟨35, 30, .rw, 0, .c⟩
def SNS_LAYOUT_A_X_W : Fld := ⟨29, 25, .rw, 0, .c⟩
def SNS_LAYOUT_A_Y_POS : Fld := ⟨24, 19, .rw, 0, .c⟩
def SNS_LAYOUT_A_Y_W : Fld := ⟨18, 14, .rw, 0, .c⟩
def SNS_LAYOUT_A_P_POS : Fld := ⟨13, 8, .rw, 0, .c⟩
def SNS_LAYOUT_A_P_EN : Fld := ⟨7, 7, .rw, 0, .c⟩
/-- SNS_LAYOUT_A_i, R343. -/
def SNS_LAYOUT_A : Reg := ⟨110, 64, [⟨0xC0018, [(0x40, 18)], 0⟩], [], [SNS_LAYOUT_A_WSIZE, SNS_LAYOUT_A_TYPE_POS, SNS_LAYOUT_A_TYPE_W, SNS_LAYOUT_A_EV_TYPE, SNS_LAYOUT_A_TB_TYPE, SNS_LAYOUT_A_X_POS, SNS_LAYOUT_A_X_W, SNS_LAYOUT_A_Y_POS, SNS_LAYOUT_A_Y_W, SNS_LAYOUT_A_P_POS, SNS_LAYOUT_A_P_EN]⟩

def SNS_LAYOUT_B_TS_POS : Fld := ⟨63, 58, .rw, 0, .c⟩
def SNS_LAYOUT_B_TS_W : Fld := ⟨57, 53, .rw, 0, .c⟩
def SNS_LAYOUT_B_TB_POS : Fld := ⟨52, 47, .rw, 0, .c⟩
def SNS_LAYOUT_B_TB_W : Fld := ⟨46, 41, .rw, 0, .c⟩
def SNS_LAYOUT_B_TS_UNIT_NS : Fld := ⟨40, 31, .rw, 1, .c⟩
/-- SNS_LAYOUT_B_i, R343. -/
def SNS_LAYOUT_B : Reg := ⟨111, 64, [⟨0xC0020, [(0x40, 18)], 0⟩], [], [SNS_LAYOUT_B_TS_POS, SNS_LAYOUT_B_TS_W, SNS_LAYOUT_B_TB_POS, SNS_LAYOUT_B_TB_W, SNS_LAYOUT_B_TS_UNIT_NS]⟩

def SNS_MAP_KEY_BASE : Fld := ⟨63, 32, .rw, 0, .c⟩
def SNS_MAP_BW : Fld := ⟨31, 20, .rw, 0, .c⟩
def SNS_MAP_BIN_X : Fld := ⟨19, 17, .rw, 0, .c⟩
def SNS_MAP_BIN_Y : Fld := ⟨16, 14, .rw, 0, .c⟩
def SNS_MAP_POL_EN : Fld := ⟨13, 13, .rw, 0, .c⟩
/-- SNS_MAP_i, R343. -/
def SNS_MAP : Reg := ⟨112, 64, [⟨0xC0028, [(0x40, 18)], 0⟩], [], [SNS_MAP_KEY_BASE, SNS_MAP_BW, SNS_MAP_BIN_X, SNS_MAP_BIN_Y, SNS_MAP_POL_EN]⟩

def SNS_IN_STATUS_LAST_ALIVE : Fld := ⟨11, 4, .ro, 0, .d⟩
def SNS_IN_STATUS_HS_ERR : Fld := ⟨3, 3, .w1c, 0, .d⟩
def SNS_IN_STATUS_TS_RESYNC : Fld := ⟨2, 2, .w1c, 0, .d⟩
def SNS_IN_STATUS_ALIVE_REP : Fld := ⟨1, 1, .w1c, 0, .d⟩
def SNS_IN_STATUS_TRAILER : Fld := ⟨0, 0, .w1c, 0, .d⟩
/-- SNS_IN_STATUS_i, R343. -/
def SNS_IN_STATUS : Reg := ⟨113, 32, [⟨0xC0030, [(0x40, 18)], 0⟩], [], [SNS_IN_STATUS_LAST_ALIVE, SNS_IN_STATUS_HS_ERR, SNS_IN_STATUS_TS_RESYNC, SNS_IN_STATUS_ALIVE_REP, SNS_IN_STATUS_TRAILER]⟩

def SNS_CSI_CTRL_EN : Fld := ⟨31, 31, .rw, 0, .c⟩
def SNS_CSI_CTRL_LANES : Fld := ⟨30, 29, .rw, 0, .c⟩
def SNS_CSI_CTRL_TRAILER : Fld := ⟨28, 27, .rw, 0, .c⟩
/-- SNS_CSI_CTRL_n, R343. -/
def SNS_CSI_CTRL : Reg := ⟨114, 32, [⟨0xC0600, [(0x8, 4)], 0⟩], [], [SNS_CSI_CTRL_EN, SNS_CSI_CTRL_LANES, SNS_CSI_CTRL_TRAILER]⟩

def SNS_AER_CTRL_AERO_EN : Fld := ⟨31, 31, .rw, 0, .c⟩
def SNS_AER_CTRL_PASS : Fld := ⟨30, 30, .rw, 0, .c⟩
def SNS_AER_CTRL_CTX : Fld := ⟨29, 27, .rw, 0, .c⟩
def SNS_AER_CTRL_HS_TO : Fld := ⟨15, 8, .rw, 0x64, .c⟩
/-- SNS_AER_CTRL, R343. -/
def SNS_AER_CTRL : Reg := ⟨115, 32, [⟨0xC0700, [], 0⟩], [], [SNS_AER_CTRL_AERO_EN, SNS_AER_CTRL_PASS, SNS_AER_CTRL_CTX, SNS_AER_CTRL_HS_TO]⟩

def SNS_AERO_KEY_MATCH : Fld := ⟨63, 32, .rw, 0, .c⟩
def SNS_AERO_KEY_MASK : Fld := ⟨31, 0, .rw, 0, .c⟩
/-- SNS_AERO_KEY, R343. -/
def SNS_AERO_KEY : Reg := ⟨116, 64, [⟨0xC0708, [], 0⟩], [], [SNS_AERO_KEY_MATCH, SNS_AERO_KEY_MASK]⟩

def SNS_INT_STATUS_AERO_STUCK : Fld := ⟨19, 19, .w1c, 0, .d⟩
def SNS_INT_STATUS_AERO_HS : Fld := ⟨18, 18, .w1c, 0, .d⟩
def SNS_INT_STATUS_INPUT : Fld := ⟨17, 0, .w1c, 0, .d⟩
/-- SNS_INT_STATUS, R343. -/
def SNS_INT_STATUS : Reg := ⟨117, 32, [⟨0xC0800, [], 0⟩], [], [SNS_INT_STATUS_AERO_STUCK, SNS_INT_STATUS_AERO_HS, SNS_INT_STATUS_INPUT]⟩

def SNS_INT_EN_EN : Fld := ⟨19, 0, .rw, 0, .c⟩
/-- SNS_INT_EN, R343. -/
def SNS_INT_EN : Reg := ⟨118, 32, [⟨0xC0808, [], 0⟩], [], [SNS_INT_EN_EN]⟩

def SNS_DP_SEL_POINT : Fld := ⟨12, 8, .rw, 0, .d⟩
def SNS_DP_SEL_INPUT : Fld := ⟨4, 0, .rw, 0, .d⟩
/-- SNS_DP_SEL, R343. -/
def SNS_DP_SEL : Reg := ⟨119, 32, [⟨0xC0810, [], 0⟩], [], [SNS_DP_SEL_POINT, SNS_DP_SEL_INPUT]⟩

def SNS_DP_DATA_COUNT : Fld := ⟨47, 0, .ro, 0, .d⟩
/-- SNS_DP_DATA, R343. -/
def SNS_DP_DATA : Reg := ⟨120, 64, [⟨0xC0818, [], 0⟩], [], [SNS_DP_DATA_COUNT]⟩

def SNS_PC_SEL_COUNT : Fld := ⟨11, 8, .rw, 0, .d⟩
def SNS_PC_SEL_INPUT : Fld := ⟨4, 0, .rw, 0, .d⟩
/-- SNS_PC_SEL, R343. -/
def SNS_PC_SEL : Reg := ⟨121, 32, [⟨0xC0820, [], 0⟩], [], [SNS_PC_SEL_COUNT, SNS_PC_SEL_INPUT]⟩

def SNS_PC_DATA_COUNT : Fld := ⟨47, 0, .ro, 0, .d⟩
/-- SNS_PC_DATA, R343. -/
def SNS_PC_DATA : Reg := ⟨122, 64, [⟨0xC0828, [], 0⟩], [], [SNS_PC_DATA_COUNT]⟩

def SNS_PIXEL_APER_ENTRY : Fld := ⟨15, 0, .rw, 0, .d⟩
/-- Pixel aperture, R343. -/
def SNS_PIXEL_APER : Reg := ⟨123, 16, [⟨0xA00000, [(0x2, 1048576)], 0⟩], [], [SNS_PIXEL_APER_ENTRY]⟩

def SNS_HOT_APER_MASK : Fld := ⟨31, 0, .rw, 0, .c⟩
/-- Hot-mask aperture, R343. -/
def SNS_HOT_APER : Reg := ⟨124, 32, [⟨0xC00000, [(0x4, 32768)], 0⟩], [], [SNS_HOT_APER_MASK]⟩

def CRC_CFG_XOROUT : Fld := ⟨63, 32, .rw, 0xFFFFFFFF, .c⟩
def CRC_CFG_REFOUT : Fld := ⟨31, 31, .rw, 1, .c⟩
def CRC_CFG_REFIN : Fld := ⟨30, 30, .rw, 1, .c⟩
def CRC_CFG_WIDTH : Fld := ⟨5, 0, .rw, 0x20, .c⟩
/-- CRC_CFG_n, R343. -/
def CRC_CFG : Reg := ⟨125, 64, [⟨0x60000, [(0x20, 4)], 0⟩], [], [CRC_CFG_XOROUT, CRC_CFG_REFOUT, CRC_CFG_REFIN, CRC_CFG_WIDTH]⟩

def CRC_PARAM_INIT : Fld := ⟨63, 32, .rw, 0xFFFFFFFF, .c⟩
def CRC_PARAM_POLY : Fld := ⟨31, 0, .rw, 0x1EDC6F41, .c⟩
/-- CRC_PARAM_n, R343. -/
def CRC_PARAM : Reg := ⟨126, 64, [⟨0x60008, [(0x20, 4)], 0⟩], [], [CRC_PARAM_INIT, CRC_PARAM_POLY]⟩

def CRC_STATUS_CFG_ERR : Fld := ⟨0, 0, .w1c, 0, .d⟩
/-- CRC_STATUS_n, R343. -/
def CRC_STATUS : Reg := ⟨127, 32, [⟨0x60010, [(0x20, 4)], 0⟩], [], [CRC_STATUS_CFG_ERR]⟩

def HST_APER_BASE : Fld := ⟨47, 19, .rw, 0, .c⟩
/-- HST_APER, R362. -/
def HST_APER : Reg := ⟨128, 64, [⟨0xA0080, [(0x8, 8)], 0⟩], [⟨0x40, [], 0, 1⟩], [HST_APER_BASE]⟩

def HST_INJ_BASE_ADDR : Fld := ⟨63, 12, .rw, 0, .c⟩
/-- HST_INJ_BASE, R362. -/
def HST_INJ_BASE : Reg := ⟨129, 64, [⟨0xA1000, [(0x100, 8)], 0⟩], [⟨0x40000, [], 0, 1⟩], [HST_INJ_BASE_ADDR]⟩

def HST_INJ_CTRL_EN : Fld := ⟨31, 31, .rw, 0, .c⟩
def HST_INJ_CTRL_ERR : Fld := ⟨30, 30, .w1c, 0, .d⟩
def HST_INJ_CTRL_SIZE : Fld := ⟨4, 0, .rw, 0, .c⟩
/-- HST_INJ_CTRL, R362. -/
def HST_INJ_CTRL : Reg := ⟨130, 32, [⟨0xA1008, [(0x100, 8)], 0⟩], [⟨0x40008, [], 0, 1⟩], [HST_INJ_CTRL_EN, HST_INJ_CTRL_ERR, HST_INJ_CTRL_SIZE]⟩

def HST_INJ_PTR_TAIL : Fld := ⟨31, 16, .rw, 0, .d⟩
def HST_INJ_PTR_HEAD : Fld := ⟨15, 0, .ro, 0, .d⟩
/-- HST_INJ_PTR, R362. -/
def HST_INJ_PTR : Reg := ⟨131, 32, [⟨0xA1010, [(0x100, 8)], 0⟩], [⟨0x40010, [], 0, 1⟩], [HST_INJ_PTR_TAIL, HST_INJ_PTR_HEAD]⟩

def HST_OUT_BASE_ADDR : Fld := ⟨63, 12, .rw, 0, .c⟩
/-- HST_OUT_BASE_j, R362. -/
def HST_OUT_BASE : Reg := ⟨132, 64, [⟨0xA1040, [(0x100, 8), (0x20, 4)], 0⟩], [⟨0x40040, [(0x20, 4)], 0, 4⟩], [HST_OUT_BASE_ADDR]⟩

def HST_OUT_CTRL_EN : Fld := ⟨63, 63, .rw, 0, .c⟩
def HST_OUT_CTRL_PASS : Fld := ⟨62, 62, .rw, 0, .c⟩
def HST_OUT_CTRL_ERR : Fld := ⟨61, 61, .w1c, 0, .d⟩
def HST_OUT_CTRL_SIZE : Fld := ⟨52, 48, .rw, 0, .c⟩
def HST_OUT_CTRL_THRESH : Fld := ⟨47, 32, .rw, 1, .c⟩
def HST_OUT_CTRL_TIMER_US : Fld := ⟨31, 0, .rw, 0, .c⟩
/-- HST_OUT_CTRL_j, R362. -/
def HST_OUT_CTRL : Reg := ⟨133, 64, [⟨0xA1048, [(0x100, 8), (0x20, 4)], 0⟩], [⟨0x40048, [(0x20, 4)], 0, 4⟩], [HST_OUT_CTRL_EN, HST_OUT_CTRL_PASS, HST_OUT_CTRL_ERR, HST_OUT_CTRL_SIZE, HST_OUT_CTRL_THRESH, HST_OUT_CTRL_TIMER_US]⟩

def HST_OUT_MATCH_MATCH : Fld := ⟨63, 32, .rw, 0, .c⟩
def HST_OUT_MATCH_MASK : Fld := ⟨31, 0, .rw, 0, .c⟩
/-- HST_OUT_MATCH_j, R362. -/
def HST_OUT_MATCH : Reg := ⟨134, 64, [⟨0xA1050, [(0x100, 8), (0x20, 4)], 0⟩], [⟨0x40050, [(0x20, 4)], 0, 4⟩], [HST_OUT_MATCH_MATCH, HST_OUT_MATCH_MASK]⟩

def HST_OUT_PTR_HEAD : Fld := ⟨31, 16, .rw, 0, .d⟩
def HST_OUT_PTR_TAIL : Fld := ⟨15, 0, .ro, 0, .d⟩
/-- HST_OUT_PTR_j, R362. -/
def HST_OUT_PTR : Reg := ⟨135, 32, [⟨0xA1058, [(0x100, 8), (0x20, 4)], 0⟩], [⟨0x40058, [(0x20, 4)], 0, 4⟩], [HST_OUT_PTR_HEAD, HST_OUT_PTR_TAIL]⟩

def HST_DP_SEL_POINT : Fld := ⟨5, 4, .rw, 0, .d⟩
def HST_DP_SEL_CTX : Fld := ⟨3, 1, .rw, 0, .d⟩
def HST_DP_SEL_CLASS : Fld := ⟨0, 0, .rw, 0, .d⟩
/-- HST_DP_SEL, R362. -/
def HST_DP_SEL : Reg := ⟨136, 32, [⟨0xA0010, [], 0⟩], [], [HST_DP_SEL_POINT, HST_DP_SEL_CTX, HST_DP_SEL_CLASS]⟩

def HST_DP_DATA_COUNT : Fld := ⟨47, 0, .ro, 0, .d⟩
/-- HST_DP_DATA, R362. -/
def HST_DP_DATA : Reg := ⟨137, 64, [⟨0xA0018, [], 0⟩], [], [HST_DP_DATA_COUNT]⟩

def HST_SQ_BASE_ADDR : Fld := ⟨63, 12, .rw, 0, .c⟩
/-- HST_SQ_BASE_q, R371. -/
def HST_SQ_BASE : Reg := ⟨138, 64, [⟨0xA2000, [(0x40, 8)], 0⟩, ⟨0xA3000, [(0x80, 8), (0x40, 2)], 8⟩], [⟨0x10000, [(0x40, 2)], 8, 2⟩], [HST_SQ_BASE_ADDR]⟩

def HST_SQ_CTRL_EN : Fld := ⟨31, 31, .rw, 0, .c⟩
def HST_SQ_CTRL_ERR : Fld := ⟨30, 30, .w1c, 0, .d⟩
def HST_SQ_CTRL_CQ : Fld := ⟨18, 16, .rw, 0, .c⟩
def HST_SQ_CTRL_SIZE : Fld := ⟨4, 0, .rw, 0, .c⟩
/-- HST_SQ_CTRL_q, R371. -/
def HST_SQ_CTRL : Reg := ⟨139, 32, [⟨0xA2008, [(0x40, 8)], 0⟩, ⟨0xA3008, [(0x80, 8), (0x40, 2)], 8⟩], [⟨0x10008, [(0x40, 2)], 8, 2⟩], [HST_SQ_CTRL_EN, HST_SQ_CTRL_ERR, HST_SQ_CTRL_CQ, HST_SQ_CTRL_SIZE]⟩

def HST_SQ_PTR_TAIL : Fld := ⟨31, 16, .rw, 0, .d⟩
def HST_SQ_PTR_HEAD : Fld := ⟨15, 0, .ro, 0, .d⟩
/-- HST_SQ_PTR_q, R371. -/
def HST_SQ_PTR : Reg := ⟨140, 32, [⟨0xA2010, [(0x40, 8)], 0⟩, ⟨0xA3010, [(0x80, 8), (0x40, 2)], 8⟩], [⟨0x10010, [(0x40, 2)], 8, 2⟩], [HST_SQ_PTR_TAIL, HST_SQ_PTR_HEAD]⟩

def HST_SQ_STATUS_ALIVE_VALID : Fld := ⟨31, 31, .ro, 0, .d⟩
def HST_SQ_STATUS_LAST_ALIVE : Fld := ⟨23, 16, .ro, 0, .d⟩
def HST_SQ_STATUS_OUTSTANDING : Fld := ⟨6, 0, .ro, 0, .d⟩
/-- HST_SQ_STATUS_q, R371. -/
def HST_SQ_STATUS : Reg := ⟨141, 32, [⟨0xA2018, [(0x40, 8)], 0⟩, ⟨0xA3018, [(0x80, 8), (0x40, 2)], 8⟩], [⟨0x10018, [(0x40, 2)], 8, 2⟩], [HST_SQ_STATUS_ALIVE_VALID, HST_SQ_STATUS_LAST_ALIVE, HST_SQ_STATUS_OUTSTANDING]⟩

def HST_CQ_BASE_ADDR : Fld := ⟨63, 12, .rw, 0, .c⟩
/-- HST_CQ_BASE_q, R371. -/
def HST_CQ_BASE : Reg := ⟨142, 64, [⟨0xA2020, [(0x40, 8)], 0⟩, ⟨0xA3020, [(0x80, 8), (0x40, 2)], 8⟩], [⟨0x10020, [(0x40, 2)], 8, 2⟩], [HST_CQ_BASE_ADDR]⟩

def HST_CQ_CTRL_EN : Fld := ⟨63, 63, .rw, 0, .c⟩
def HST_CQ_CTRL_ERR : Fld := ⟨62, 62, .w1c, 0, .d⟩
def HST_CQ_CTRL_SIZE : Fld := ⟨52, 48, .rw, 0, .c⟩
def HST_CQ_CTRL_IV : Fld := ⟨47, 43, .rw, 0, .c⟩
def HST_CQ_CTRL_THRESH : Fld := ⟨42, 32, .rw, 1, .c⟩
def HST_CQ_CTRL_TIMER_US : Fld := ⟨31, 0, .rw, 0, .c⟩
/-- HST_CQ_CTRL_q, R371. -/
def HST_CQ_CTRL : Reg := ⟨143, 64, [⟨0xA2028, [(0x40, 8)], 0⟩, ⟨0xA3028, [(0x80, 8), (0x40, 2)], 8⟩], [⟨0x10028, [(0x40, 2)], 8, 2⟩], [HST_CQ_CTRL_EN, HST_CQ_CTRL_ERR, HST_CQ_CTRL_SIZE, HST_CQ_CTRL_IV, HST_CQ_CTRL_THRESH, HST_CQ_CTRL_TIMER_US]⟩

def HST_CQ_PTR_HEAD : Fld := ⟨31, 16, .rw, 0, .d⟩
def HST_CQ_PTR_TAIL : Fld := ⟨15, 0, .ro, 0, .d⟩
/-- HST_CQ_PTR_q, R371. -/
def HST_CQ_PTR : Reg := ⟨144, 32, [⟨0xA2030, [(0x40, 8)], 0⟩, ⟨0xA3030, [(0x80, 8), (0x40, 2)], 8⟩], [⟨0x10030, [(0x40, 2)], 8, 2⟩], [HST_CQ_PTR_HEAD, HST_CQ_PTR_TAIL]⟩

def HST_BOX_CNT_COUNT : Fld := ⟨47, 0, .ro, 0, .d⟩
/-- HST_BOX_CNT_n, R371. -/
def HST_BOX_CNT : Reg := ⟨145, 64, [⟨0xA0100, [(0x8, 6)], 0⟩], [], [HST_BOX_CNT_COUNT]⟩

def MQ_CFG_SIZE : Fld := ⟨31, 29, .rw, 0, .d⟩
def MQ_CFG_CTX : Fld := ⟨28, 26, .rw, 0, .d⟩
def MQ_CFG_STALL_US : Fld := ⟨25, 16, .rw, 0x64, .d⟩
def MQ_CFG_BASE : Fld := ⟨15, 7, .rw, 0, .d⟩
def MQ_CFG_IV : Fld := ⟨6, 2, .rw, 0, .d⟩
def MQ_CFG_IE : Fld := ⟨1, 1, .rw, 0, .d⟩
/-- MQ_CFG, R409. -/
def MQ_CFG : Reg := ⟨146, 32, [⟨0xB0000, [(0x200, 64), (0x20, 16)], 0⟩], [⟨0x20000, [(0x20, 2)], 768, 16⟩], [MQ_CFG_SIZE, MQ_CFG_CTX, MQ_CFG_STALL_US, MQ_CFG_BASE, MQ_CFG_IV, MQ_CFG_IE]⟩

def MQ_STATUS_STALLING : Fld := ⟨31, 31, .ro, 0, .d⟩
def MQ_STATUS_CFG_ERR : Fld := ⟨30, 30, .w1c, 0, .d⟩
def MQ_STATUS_WORDS : Fld := ⟨29, 16, .ro, 0, .d⟩
def MQ_STATUS_MSGS : Fld := ⟨13, 0, .ro, 0, .d⟩
/-- MQ_STATUS, R409. -/
def MQ_STATUS : Reg := ⟨147, 32, [⟨0xB0008, [(0x200, 64), (0x20, 16)], 0⟩], [⟨0x20008, [(0x20, 2)], 768, 16⟩], [MQ_STATUS_STALLING, MQ_STATUS_CFG_ERR, MQ_STATUS_WORDS, MQ_STATUS_MSGS]⟩

def MQ_DATA_WORD : Fld := ⟨63, 0, .rp, 0, .d⟩
/-- MQ_DATA, R409. -/
def MQ_DATA : Reg := ⟨148, 64, [⟨0xB0010, [(0x200, 64), (0x20, 16)], 0⟩], [⟨0x20010, [(0x20, 2)], 768, 16⟩], [MQ_DATA_WORD]⟩

def MQ_PEEK_WORD : Fld := ⟨63, 0, .ro, 0, .d⟩
/-- MQ_PEEK, R409. -/
def MQ_PEEK : Reg := ⟨149, 64, [⟨0xB0018, [(0x200, 64), (0x20, 16)], 0⟩], [⟨0x20018, [(0x20, 2)], 768, 16⟩], [MQ_PEEK_WORD]⟩

def MQ_CNT_SEL_AGENT : Fld := ⟨15, 10, .rw, 0, .d⟩
def MQ_CNT_SEL_PEER : Fld := ⟨9, 3, .rw, 0, .d⟩
def MQ_CNT_SEL_KIND : Fld := ⟨2, 0, .rw, 0, .d⟩
/-- MQ_CNT_SEL, R409. -/
def MQ_CNT_SEL : Reg := ⟨150, 32, [⟨0xB8000, [], 0⟩], [⟨0x20100, [], 1, 1⟩], [MQ_CNT_SEL_AGENT, MQ_CNT_SEL_PEER, MQ_CNT_SEL_KIND]⟩

def MQ_CNT_DATA_COUNT : Fld := ⟨47, 0, .ro, 0, .d⟩
/-- MQ_CNT_DATA, R409. -/
def MQ_CNT_DATA : Reg := ⟨151, 64, [⟨0xB8008, [], 0⟩], [⟨0x20108, [], 1, 1⟩], [MQ_CNT_DATA_COUNT]⟩

def MQ_DP_SEL_AGENT : Fld := ⟨11, 6, .rw, 0, .d⟩
def MQ_DP_SEL_POINT : Fld := ⟨5, 3, .rw, 0, .d⟩
def MQ_DP_SEL_CTX : Fld := ⟨2, 0, .rw, 0, .d⟩
/-- MQ_DP_SEL, R409. -/
def MQ_DP_SEL : Reg := ⟨152, 32, [⟨0xB8010, [], 0⟩], [], [MQ_DP_SEL_AGENT, MQ_DP_SEL_POINT, MQ_DP_SEL_CTX]⟩

def MQ_DP_DATA_COUNT : Fld := ⟨47, 0, .ro, 0, .d⟩
/-- MQ_DP_DATA, R409. -/
def MQ_DP_DATA : Reg := ⟨153, 64, [⟨0xB8018, [], 0⟩], [], [MQ_DP_DATA_COUNT]⟩

def FLT_CTRL_CE_LIMIT : Fld := ⟨15, 8, .rw, 0x10, .b⟩
def FLT_CTRL_AUTO_RETIRE : Fld := ⟨0, 0, .rw, 1, .b⟩
/-- FLT_CTRL, R433. -/
def FLT_CTRL : Reg := ⟨154, 32, [⟨0x4000, [], 0⟩], [], [FLT_CTRL_CE_LIMIT, FLT_CTRL_AUTO_RETIRE]⟩

def FLT_WDOG_ENG_US : Fld := ⟨31, 22, .rw, 0x3E8, .b⟩
def FLT_WDOG_TC_MS : Fld := ⟨21, 14, .rw, 0xA, .b⟩
def FLT_WDOG_RM_MS : Fld := ⟨13, 4, .rw, 0xC8, .b⟩
/-- FLT_WDOG, R433. -/
def FLT_WDOG : Reg := ⟨155, 32, [⟨0x4008, [], 0⟩], [], [FLT_WDOG_ENG_US, FLT_WDOG_TC_MS, FLT_WDOG_RM_MS]⟩

def FLT_UNIT_SEL_TYPE : Fld := ⟨63, 61, .rw, 0, .d⟩
def FLT_UNIT_SEL_INDEX : Fld := ⟨47, 0, .rw, 0, .d⟩
/-- FLT_UNIT_SEL, R433. -/
def FLT_UNIT_SEL : Reg := ⟨156, 64, [⟨0x4010, [], 0⟩], [], [FLT_UNIT_SEL_TYPE, FLT_UNIT_SEL_INDEX]⟩

def FLT_UNIT_DATA_REASON : Fld := ⟨15, 8, .ro, 0, .d⟩
def FLT_UNIT_DATA_STATE : Fld := ⟨2, 0, .ro, 0, .d⟩
/-- FLT_UNIT_DATA, R433. -/
def FLT_UNIT_DATA : Reg := ⟨157, 32, [⟨0x4018, [], 0⟩], [], [FLT_UNIT_DATA_REASON, FLT_UNIT_DATA_STATE]⟩

def FLT_CNT_COUNT : Fld := ⟨47, 0, .ro, 0, .d⟩
/-- FLT_CNT_n, R433. -/
def FLT_CNT : Reg := ⟨158, 64, [⟨0x4100, [(0x8, 8)], 0⟩], [], [FLT_CNT_COUNT]⟩

def FLT_SOFTREP_UNSAVED : Fld := ⟨31, 16, .ro, 0, .d⟩
def FLT_SOFTREP_LISTED : Fld := ⟨13, 0, .ro, 0, .f⟩
/-- FLT_SOFTREP, R433. -/
def FLT_SOFTREP : Reg := ⟨159, 32, [⟨0x4140, [], 0⟩], [], [FLT_SOFTREP_UNSAVED, FLT_SOFTREP_LISTED]⟩

def FLT_OFF_SEL_CTX : Fld := ⟨4, 2, .rw, 0, .d⟩
def FLT_OFF_SEL_CLASS : Fld := ⟨1, 0, .rw, 0, .d⟩
/-- FLT_OFF_SEL, R433. -/
def FLT_OFF_SEL : Reg := ⟨160, 32, [⟨0x4200, [], 0⟩], [], [FLT_OFF_SEL_CTX, FLT_OFF_SEL_CLASS]⟩

def FLT_OFF_DATA_COUNT : Fld := ⟨47, 0, .ro, 0, .d⟩
/-- FLT_OFF_DATA, R433. -/
def FLT_OFF_DATA : Reg := ⟨161, 64, [⟨0x4208, [], 0⟩], [], [FLT_OFF_DATA_COUNT]⟩

def FLT_DP_SEL_CTX : Fld := ⟨4, 2, .rw, 0, .d⟩
def FLT_DP_SEL_CLASS : Fld := ⟨1, 0, .rw, 0, .d⟩
/-- FLT_DP_SEL, R433. -/
def FLT_DP_SEL : Reg := ⟨162, 32, [⟨0x4210, [], 0⟩], [], [FLT_DP_SEL_CTX, FLT_DP_SEL_CLASS]⟩

def FLT_DP_DATA_COUNT : Fld := ⟨47, 0, .ro, 0, .d⟩
/-- FLT_DP_DATA, R433. -/
def FLT_DP_DATA : Reg := ⟨163, 64, [⟨0x4218, [], 0⟩], [], [FLT_DP_DATA_COUNT]⟩

def RAB_CTRL_EN : Fld := ⟨31, 31, .rw, 1, .c⟩
def RAB_CTRL_CE_LIMIT : Fld := ⟨23, 16, .rw, 4, .c⟩
def RAB_CTRL_PERIOD_MS : Fld := ⟨15, 0, .rw, 0xBB8, .c⟩
/-- RAB_CTRL, R433. -/
def RAB_CTRL : Reg := ⟨164, 32, [⟨0x238000, [(0x40000, 32)], 0⟩, ⟨0x5000, [], 32⟩], [], [RAB_CTRL_EN, RAB_CTRL_CE_LIMIT, RAB_CTRL_PERIOD_MS]⟩

def RAB_STATUS_ACTIVE : Fld := ⟨31, 31, .ro, 0, .d⟩
def RAB_STATUS_REDIRECT : Fld := ⟨30, 30, .ro, 0, .d⟩
def RAB_STATUS_SPARE_LOW : Fld := ⟨29, 29, .ro, 0, .d⟩
def RAB_STATUS_REGION : Fld := ⟨12, 0, .ro, 0, .d⟩
/-- RAB_STATUS, R433. -/
def RAB_STATUS : Reg := ⟨165, 32, [⟨0x238008, [(0x40000, 32)], 0⟩, ⟨0x5008, [], 32⟩], [], [RAB_STATUS_ACTIVE, RAB_STATUS_REDIRECT, RAB_STATUS_SPARE_LOW, RAB_STATUS_REGION]⟩

def RAB_CNT_COUNT : Fld := ⟨47, 0, .ro, 0, .d⟩
/-- RAB_CNT_n, R433. -/
def RAB_CNT : Reg := ⟨166, 64, [⟨0x238040, [(0x40000, 32), (0x8, 6)], 0⟩, ⟨0x5040, [(0x8, 6)], 192⟩], [], [RAB_CNT_COUNT]⟩

def SEC_VIOLATIONS_COUNT : Fld := ⟨47, 0, .ro, 0, .a⟩
/-- SEC_VIOLATIONS, R456. -/
def SEC_VIOLATIONS : Reg := ⟨167, 64, [⟨0x90000, [], 0⟩], [], [SEC_VIOLATIONS_COUNT]⟩

def SEC_VIOL_LAST_VALID : Fld := ⟨63, 63, .w1c, 0, .a⟩
def SEC_VIOL_LAST_FUNC : Fld := ⟨62, 59, .ro, 0, .a⟩
def SEC_VIOL_LAST_KIND : Fld := ⟨58, 56, .ro, 0, .a⟩
def SEC_VIOL_LAST_OFFSET : Fld := ⟨25, 0, .ro, 0, .a⟩
/-- SEC_VIOL_LAST, R456. -/
def SEC_VIOL_LAST : Reg := ⟨168, 64, [⟨0x90008, [], 0⟩], [], [SEC_VIOL_LAST_VALID, SEC_VIOL_LAST_FUNC, SEC_VIOL_LAST_KIND, SEC_VIOL_LAST_OFFSET]⟩

def SEC_LIFECYCLE_STATE : Fld := ⟨1, 0, .ro, 1, .a⟩
/-- SEC_LIFECYCLE, R456. -/
def SEC_LIFECYCLE : Reg := ⟨169, 32, [⟨0x90010, [], 0⟩], [], [SEC_LIFECYCLE_STATE]⟩

def SEC_SERIAL_SERIAL : Fld := ⟨63, 0, .ro, 0, .a⟩
/-- SEC_SERIAL, R456. -/
def SEC_SERIAL : Reg := ⟨170, 64, [⟨0x90018, [], 0⟩], [], [SEC_SERIAL_SERIAL]⟩

def SEC_LIC_TILES_NEXT : Fld := ⟨31, 24, .ro, 0x20, .f⟩
def SEC_LIC_TILES : Fld := ⟨23, 16, .ro, 0x20, .f⟩
def SEC_LIC_PORTS_NEXT : Fld := ⟨15, 12, .ro, 6, .f⟩
def SEC_LIC_PORTS : Fld := ⟨11, 8, .ro, 6, .f⟩
def SEC_LIC_FEATURES : Fld := ⟨2, 0, .ro, 7, .f⟩
/-- SEC_LIC, R456. -/
def SEC_LIC : Reg := ⟨171, 32, [⟨0x90020, [], 0⟩], [], [SEC_LIC_TILES_NEXT, SEC_LIC_TILES, SEC_LIC_PORTS_NEXT, SEC_LIC_PORTS, SEC_LIC_FEATURES]⟩

def SEC_DBG_CHALLENGE_VALUE : Fld := ⟨63, 0, .ro, 0, .d⟩
/-- SEC_DBG_CHALLENGE, R456. -/
def SEC_DBG_CHALLENGE : Reg := ⟨172, 64, [⟨0x90030, [], 0⟩], [], [SEC_DBG_CHALLENGE_VALUE]⟩

def SEC_DBG_STATUS_EXPIRES : Fld := ⟨63, 24, .ro, 0, .c⟩
def SEC_DBG_STATUS_ACTIVE : Fld := ⟨7, 4, .ro, 0, .c⟩
def SEC_DBG_STATUS_SCOPE : Fld := ⟨3, 0, .ro, 0, .c⟩
/-- SEC_DBG_STATUS, R456. -/
def SEC_DBG_STATUS : Reg := ⟨173, 64, [⟨0x90038, [], 0⟩], [], [SEC_DBG_STATUS_EXPIRES, SEC_DBG_STATUS_ACTIVE, SEC_DBG_STATUS_SCOPE]⟩

def SEC_DBG_CTRL_LOCK : Fld := ⟨0, 0, .wo, 0, .d⟩
/-- SEC_DBG_CTRL, R456. -/
def SEC_DBG_CTRL : Reg := ⟨174, 32, [⟨0x90040, [], 0⟩], [], [SEC_DBG_CTRL_LOCK]⟩

def SEC_ATTEST_NEXT : Fld := ⟨52, 32, .ro, 0x40, .f⟩
def SEC_ATTEST_R_END : Fld := ⟨20, 0, .ro, 0x40, .f⟩
/-- SEC_ATTEST, R456. -/
def SEC_ATTEST : Reg := ⟨175, 64, [⟨0x90048, [], 0⟩], [], [SEC_ATTEST_NEXT, SEC_ATTEST_R_END]⟩

def SEC_MEAS_BYTES : Fld := ⟨63, 0, .ro, 0, .c⟩
/-- SEC_MEAS_m_w, R456. -/
def SEC_MEAS : Reg := ⟨176, 64, [⟨0x90100, [(0x20, 14), (0x8, 4)], 0⟩], [], [SEC_MEAS_BYTES]⟩

def SEC_CTX_STATUS_RUNNING : Fld := ⟨31, 31, .ro, 0, .d⟩
def SEC_CTX_STATUS_PLACED : Fld := ⟨30, 30, .ro, 0, .d⟩
def SEC_CTX_STATUS_CONFIDENTIAL : Fld := ⟨29, 29, .ro, 0, .a⟩
def SEC_CTX_STATUS_SCRUBBING : Fld := ⟨28, 28, .ro, 0, .a⟩
def SEC_CTX_STATUS_CNF_ERR : Fld := ⟨27, 27, .w1c, 0, .d⟩
/-- SEC_CTX_STATUS, R456. -/
def SEC_CTX_STATUS : Reg := ⟨177, 32, [⟨0x91000, [(0x100, 8)], 0⟩], [⟨0x0, [], 0, 1⟩], [SEC_CTX_STATUS_RUNNING, SEC_CTX_STATUS_PLACED, SEC_CTX_STATUS_CONFIDENTIAL, SEC_CTX_STATUS_SCRUBBING, SEC_CTX_STATUS_CNF_ERR]⟩

def SEC_CTX_CNF_ENABLE : Fld := ⟨0, 0, .w1s, 0, .a⟩
/-- SEC_CTX_CNF, R456. -/
def SEC_CTX_CNF : Reg := ⟨178, 32, [⟨0x91008, [(0x100, 8)], 0⟩], [⟨0x8, [], 0, 1⟩], [SEC_CTX_CNF_ENABLE]⟩

def SEC_CTX_TICK_TICK : Fld := ⟨47, 0, .ro, 0, .c⟩
/-- SEC_CTX_TICK, R456. -/
def SEC_CTX_TICK : Reg := ⟨179, 64, [⟨0x91010, [(0x100, 8)], 0⟩], [⟨0x10, [], 0, 1⟩], [SEC_CTX_TICK_TICK]⟩

def NE_BOUNDS_VALID : Fld := ⟨63, 63, .rw, 0, .c⟩
def NE_BOUNDS_CTX : Fld := ⟨62, 60, .rw, 0, .c⟩
def NE_BOUNDS_SPILL_MIRROR : Fld := ⟨59, 59, .rw, 0, .c⟩
def NE_BOUNDS_SMEM_HI : Fld := ⟨57, 43, .rw, 0, .c⟩
def NE_BOUNDS_SMEM_LO : Fld := ⟨42, 28, .rw, 0, .c⟩
def NE_BOUNDS_SCALE_HI : Fld := ⟨27, 14, .rw, 0, .c⟩
def NE_BOUNDS_SCALE_LO : Fld := ⟨13, 0, .rw, 0, .c⟩
/-- NE_BOUNDS_k, R456. -/
def NE_BOUNDS : Reg := ⟨180, 64, [⟨0x220380, [(0x40000, 32), (0x2000, 9), (0x8, 4)], 0⟩], [], [NE_BOUNDS_VALID, NE_BOUNDS_CTX, NE_BOUNDS_SPILL_MIRROR, NE_BOUNDS_SMEM_HI, NE_BOUNDS_SMEM_LO, NE_BOUNDS_SCALE_HI, NE_BOUNDS_SCALE_LO]⟩

def GLB_BOOT_READY : Fld := ⟨31, 31, .ro, 0, .d⟩
def GLB_BOOT_RECOVERY : Fld := ⟨30, 30, .ro, 0, .d⟩
def GLB_BOOT_NETBOOT : Fld := ⟨29, 29, .ro, 0, .d⟩
def GLB_BOOT_BOOT_B : Fld := ⟨28, 28, .ro, 0, .d⟩
def GLB_BOOT_FW_SLOT : Fld := ⟨27, 27, .ro, 0, .d⟩
def GLB_BOOT_CAUSE : Fld := ⟨23, 16, .ro, 0, .d⟩
def GLB_BOOT_STEP : Fld := ⟨3, 0, .ro, 0, .d⟩
/-- GLB_BOOT, R473. -/
def GLB_BOOT : Reg := ⟨181, 32, [⟨0x100, [], 0⟩], [], [GLB_BOOT_READY, GLB_BOOT_RECOVERY, GLB_BOOT_NETBOOT, GLB_BOOT_BOOT_B, GLB_BOOT_FW_SLOT, GLB_BOOT_CAUSE, GLB_BOOT_STEP]⟩

def GLB_BOOT_TIME_MS : Fld := ⟨15, 0, .ro, 0, .d⟩
/-- GLB_BOOT_TIME, R473. -/
def GLB_BOOT_TIME : Reg := ⟨182, 32, [⟨0x108, [], 0⟩], [], [GLB_BOOT_TIME_MS]⟩

def GLB_BOOT_CFG_ELK_WAIT_MS : Fld := ⟨15, 4, .rw, 0x5DC, .f⟩
def GLB_BOOT_CFG_FW_SOURCE : Fld := ⟨1, 0, .rw, 1, .f⟩
/-- GLB_BOOT_CFG, R473. -/
def GLB_BOOT_CFG : Reg := ⟨183, 32, [⟨0x110, [], 0⟩], [], [GLB_BOOT_CFG_ELK_WAIT_MS, GLB_BOOT_CFG_FW_SOURCE]⟩

def GLB_TOPO_BOOT_VALID : Fld := ⟨31, 31, .rw, 0, .f⟩
def GLB_TOPO_BOOT_TOPO : Fld := ⟨29, 0, .rw, 0, .f⟩
/-- GLB_TOPO_BOOT, R473. -/
def GLB_TOPO_BOOT : Reg := ⟨184, 32, [⟨0x118, [], 0⟩], [], [GLB_TOPO_BOOT_VALID, GLB_TOPO_BOOT_TOPO]⟩

def GLB_FUSE_SEL_KIND : Fld := ⟨31, 30, .rw, 0, .d⟩
def GLB_FUSE_SEL_INDEX : Fld := ⟨11, 0, .rw, 0, .d⟩
/-- GLB_FUSE_SEL, R473. -/
def GLB_FUSE_SEL : Reg := ⟨185, 32, [⟨0x120, [], 0⟩], [], [GLB_FUSE_SEL_KIND, GLB_FUSE_SEL_INDEX]⟩

def GLB_FUSE_DATA_VALUE : Fld := ⟨63, 0, .ro, 0, .a⟩
/-- GLB_FUSE_DATA, R473. -/
def GLB_FUSE_DATA : Reg := ⟨186, 64, [⟨0x128, [], 0⟩], [], [GLB_FUSE_DATA_VALUE]⟩

def CAL_STATUS_VALID : Fld := ⟨31, 31, .ro, 1, .f⟩
def CAL_STATUS_WRITTEN : Fld := ⟨30, 30, .ro, 0, .d⟩
def CAL_STATUS_LENGTH : Fld := ⟨15, 0, .ro, 0x48C, .f⟩
/-- CAL_STATUS, R473. -/
def CAL_STATUS : Reg := ⟨187, 32, [⟨0x110000, [], 0⟩], [], [CAL_STATUS_VALID, CAL_STATUS_WRITTEN, CAL_STATUS_LENGTH]⟩

def PWR_STATUS_STATE : Fld := ⟨31, 29, .ro, 0, .d⟩
def PWR_STATUS_CHANGING : Fld := ⟨28, 28, .ro, 0, .d⟩
def PWR_STATUS_PADS_HELD : Fld := ⟨27, 27, .ro, 0, .b⟩
def PWR_STATUS_EAST : Fld := ⟨15, 12, .ro, 0, .d⟩
def PWR_STATUS_WEST : Fld := ⟨11, 8, .ro, 0, .d⟩
/-- PWR_STATUS, R497. -/
def PWR_STATUS : Reg := ⟨188, 32, [⟨0x10000, [], 0⟩], [], [PWR_STATUS_STATE, PWR_STATUS_CHANGING, PWR_STATUS_PADS_HELD, PWR_STATUS_EAST, PWR_STATUS_WEST]⟩

def PWR_CTRL_VSETTLE_US : Fld := ⟨23, 16, .rw, 0x14, .b⟩
def PWR_CTRL_HIB_LINKS_OK : Fld := ⟨2, 2, .rw, 0, .b⟩
def PWR_CTRL_STOP_PGATE : Fld := ⟨1, 1, .rw, 0, .b⟩
def PWR_CTRL_VID_GPIO : Fld := ⟨0, 0, .rw, 0, .b⟩
/-- PWR_CTRL, R497. -/
def PWR_CTRL : Reg := ⟨189, 32, [⟨0x10008, [], 0⟩], [], [PWR_CTRL_VSETTLE_US, PWR_CTRL_HIB_LINKS_OK, PWR_CTRL_STOP_PGATE, PWR_CTRL_VID_GPIO]⟩

def PWR_NAP_RET_TILE : Fld := ⟨2, 2, .rw, 1, .b⟩
def PWR_NAP_RET_STATE : Fld := ⟨1, 1, .rw, 1, .b⟩
def PWR_NAP_RET_SYN : Fld := ⟨0, 0, .rw, 1, .b⟩
/-- PWR_NAP_RET, R497. -/
def PWR_NAP_RET : Reg := ⟨190, 32, [⟨0x10010, [], 0⟩], [], [PWR_NAP_RET_TILE, PWR_NAP_RET_STATE, PWR_NAP_RET_SYN]⟩

def PWR_WAKE_EN_EN : Fld := ⟨17, 0, .rw, 0, .b⟩
/-- PWR_WAKE_EN, R497. -/
def PWR_WAKE_EN : Reg := ⟨191, 32, [⟨0x10018, [], 0⟩], [], [PWR_WAKE_EN_EN]⟩

def PWR_WAKE_CMP_EN : Fld := ⟨31, 31, .rw, 0, .b⟩
def PWR_WAKE_CMP_POL : Fld := ⟨30, 30, .rw, 0, .b⟩
def PWR_WAKE_CMP_DEB_US : Fld := ⟨15, 8, .rw, 0, .b⟩
def PWR_WAKE_CMP_HYST : Fld := ⟨7, 6, .rw, 0, .b⟩
def PWR_WAKE_CMP_THRESH : Fld := ⟨5, 0, .rw, 0, .b⟩
/-- PWR_WAKE_CMP_n, R497. -/
def PWR_WAKE_CMP : Reg := ⟨192, 32, [⟨0x10020, [(0x8, 2)], 0⟩], [], [PWR_WAKE_CMP_EN, PWR_WAKE_CMP_POL, PWR_WAKE_CMP_DEB_US, PWR_WAKE_CMP_HYST, PWR_WAKE_CMP_THRESH]⟩

def PWR_GPIO_WAKE_EDGE : Fld := ⟨31, 16, .rw, 0, .b⟩
def PWR_GPIO_WAKE_MASK : Fld := ⟨15, 0, .rw, 0, .b⟩
/-- PWR_GPIO_WAKE, R497. -/
def PWR_GPIO_WAKE : Reg := ⟨193, 32, [⟨0x10030, [], 0⟩], [], [PWR_GPIO_WAKE_EDGE, PWR_GPIO_WAKE_MASK]⟩

def PWR_WAKE_CAUSE_PENDING : Fld := ⟨49, 32, .w1c, 0, .b⟩
def PWR_WAKE_CAUSE_WOKE : Fld := ⟨17, 0, .w1c, 0, .b⟩
/-- PWR_WAKE_CAUSE, R497. -/
def PWR_WAKE_CAUSE : Reg := ⟨194, 64, [⟨0x10038, [], 0⟩], [], [PWR_WAKE_CAUSE_PENDING, PWR_WAKE_CAUSE_WOKE]⟩

def PWR_PAD_RELEASE_RELEASE : Fld := ⟨0, 0, .wo, 0, .d⟩
/-- PWR_PAD_RELEASE, R497. -/
def PWR_PAD_RELEASE : Reg := ⟨195, 32, [⟨0x10040, [], 0⟩], [], [PWR_PAD_RELEASE_RELEASE]⟩

def PWR_REFCNT_COUNT : Fld := ⟨47, 0, .ro, 0, .b⟩
/-- PWR_REFCNT_k, R497. -/
def PWR_REFCNT : Reg := ⟨196, 64, [⟨0x10108, [(0x8, 9)], 0⟩], [], [PWR_REFCNT_COUNT]⟩

def PWR_REFLOG_IDX_COUNT : Fld := ⟨4, 0, .ro, 0, .b⟩
/-- PWR_REFLOG_IDX, R497. -/
def PWR_REFLOG_IDX : Reg := ⟨197, 32, [⟨0x10180, [], 0⟩], [], [PWR_REFLOG_IDX_COUNT]⟩

def PWR_REFLOG_ACTION : Fld := ⟨63, 56, .ro, 0, .b⟩
def PWR_REFLOG_ABORT : Fld := ⟨55, 55, .ro, 0, .b⟩
def PWR_REFLOG_TYPE : Fld := ⟨54, 51, .ro, 0, .b⟩
def PWR_REFLOG_TILE : Fld := ⟨50, 43, .ro, 0, .b⟩
def PWR_REFLOG_UNIT : Fld := ⟨42, 35, .ro, 0, .b⟩
def PWR_REFLOG_CTX : Fld := ⟨34, 32, .ro, 0, .b⟩
def PWR_REFLOG_REASON : Fld := ⟨31, 16, .ro, 0, .b⟩
/-- PWR_REFLOG_i, R497. -/
def PWR_REFLOG : Reg := ⟨198, 64, [⟨0x10200, [(0x10, 16)], 0⟩], [], [PWR_REFLOG_ACTION, PWR_REFLOG_ABORT, PWR_REFLOG_TYPE, PWR_REFLOG_TILE, PWR_REFLOG_UNIT, PWR_REFLOG_CTX, PWR_REFLOG_REASON]⟩

def PWR_REFLOG_TIME_TIME : Fld := ⟨39, 0, .ro, 0, .b⟩
/-- PWR_REFLOG_TIME_i, R497. -/
def PWR_REFLOG_TIME : Reg := ⟨199, 64, [⟨0x10208, [(0x10, 16)], 0⟩], [], [PWR_REFLOG_TIME_TIME]⟩

def RST_CTRL_RIM : Fld := ⟨1, 1, .wo, 0, .d⟩
def RST_CTRL_WARM : Fld := ⟨0, 0, .wo, 0, .d⟩
/-- RST_CTRL, R497. -/
def RST_CTRL : Reg := ⟨200, 32, [⟨0x20000, [], 0⟩], [], [RST_CTRL_RIM, RST_CTRL_WARM]⟩

def RST_UNIT_GO : Fld := ⟨31, 31, .wo, 0, .d⟩
def RST_UNIT_KIND : Fld := ⟨30, 30, .wo, 0, .d⟩
def RST_UNIT_TILE : Fld := ⟨8, 4, .wo, 0, .d⟩
def RST_UNIT_ENGINE : Fld := ⟨3, 0, .wo, 0, .d⟩
/-- RST_UNIT, R497. -/
def RST_UNIT : Reg := ⟨201, 32, [⟨0x20008, [], 0⟩], [], [RST_UNIT_GO, RST_UNIT_KIND, RST_UNIT_TILE, RST_UNIT_ENGINE]⟩

def RST_STATUS_REFUSED : Fld := ⟨31, 31, .w1c, 0, .d⟩
def RST_STATUS_CAUSE : Fld := ⟨3, 0, .ro, 0, .a⟩
/-- RST_STATUS, R497. -/
def RST_STATUS : Reg := ⟨202, 32, [⟨0x20010, [], 0⟩], [], [RST_STATUS_REFUSED, RST_STATUS_CAUSE]⟩

def RST_CNT_COUNT : Fld := ⟨47, 0, .ro, 0, .a⟩
/-- RST_CNT_n, R497. -/
def RST_CNT : Reg := ⟨203, 64, [⟨0x20100, [(0x8, 7)], 0⟩], [], [RST_CNT_COUNT]⟩

def CLK_STATUS_REF_LOST : Fld := ⟨10, 8, .w1c, 0, .d⟩
def CLK_STATUS_LOCKED : Fld := ⟨6, 0, .ro, 0, .d⟩
/-- CLK_STATUS, R497. -/
def CLK_STATUS : Reg := ⟨204, 32, [⟨0x30000, [], 0⟩], [], [CLK_STATUS_REF_LOST, CLK_STATUS_LOCKED]⟩

def TMR_CTRL_IE_OVF : Fld := ⟨3, 3, .rw, 0, .b⟩
def TMR_CTRL_IE_MATCH : Fld := ⟨2, 2, .rw, 0, .b⟩
def TMR_CTRL_ONESHOT : Fld := ⟨1, 1, .rw, 0, .b⟩
def TMR_CTRL_EN : Fld := ⟨0, 0, .rw, 0, .b⟩
/-- TMR_CTRL_n, R511. -/
def TMR_CTRL : Reg := ⟨205, 32, [⟨0x40000, [(0x40, 8)], 0⟩], [], [TMR_CTRL_IE_OVF, TMR_CTRL_IE_MATCH, TMR_CTRL_ONESHOT, TMR_CTRL_EN]⟩

def TMR_COUNT_COUNT : Fld := ⟨31, 0, .rw, 0, .b⟩
/-- TMR_COUNT_n, R511. -/
def TMR_COUNT : Reg := ⟨206, 32, [⟨0x40008, [(0x40, 8)], 0⟩], [], [TMR_COUNT_COUNT]⟩

def TMR_PERIOD_PERIOD : Fld := ⟨31, 0, .rw, 0, .b⟩
/-- TMR_PERIOD_n, R511. -/
def TMR_PERIOD : Reg := ⟨207, 32, [⟨0x40010, [(0x40, 8)], 0⟩], [], [TMR_PERIOD_PERIOD]⟩

def TMR_CMP_CMP : Fld := ⟨31, 0, .rw, 0, .b⟩
/-- TMR_CMP_n, R511. -/
def TMR_CMP : Reg := ⟨208, 32, [⟨0x40018, [(0x40, 8)], 0⟩], [], [TMR_CMP_CMP]⟩

def TMR_CMP_REL_DELTA : Fld := ⟨31, 0, .wo, 0, .d⟩
/-- TMR_CMP_REL_n, R511. -/
def TMR_CMP_REL : Reg := ⟨209, 32, [⟨0x40020, [(0x40, 8)], 0⟩], [], [TMR_CMP_REL_DELTA]⟩

def TMR_PHASE_PHASE : Fld := ⟨31, 0, .rw, 0, .b⟩
/-- TMR_PHASE_n, R511. -/
def TMR_PHASE : Reg := ⟨210, 32, [⟨0x40028, [(0x40, 8)], 0⟩], [], [TMR_PHASE_PHASE]⟩

def TMR_STATUS_CMP_RANGE : Fld := ⟨3, 3, .ro, 0, .b⟩
def TMR_STATUS_PENDING : Fld := ⟨2, 2, .ro, 0, .d⟩
def TMR_STATUS_OVF : Fld := ⟨1, 1, .w1c, 0, .b⟩
def TMR_STATUS_MATCH : Fld := ⟨0, 0, .w1c, 0, .b⟩
/-- TMR_STATUS_n, R511. -/
def TMR_STATUS : Reg := ⟨211, 32, [⟨0x40030, [(0x40, 8)], 0⟩], [], [TMR_STATUS_CMP_RANGE, TMR_STATUS_PENDING, TMR_STATUS_OVF, TMR_STATUS_MATCH]⟩

def TMR_SYNC_START : Fld := ⟨7, 0, .wo, 0, .d⟩
/-- TMR_SYNC, R511. -/
def TMR_SYNC : Reg := ⟨212, 32, [⟨0x40800, [], 0⟩], [], [TMR_SYNC_START]⟩

def TMR_STAGGER_GO : Fld := ⟨8, 8, .wo, 0, .d⟩
def TMR_STAGGER_MASK : Fld := ⟨7, 0, .wo, 0, .d⟩
/-- TMR_STAGGER, R511. -/
def TMR_STAGGER : Reg := ⟨213, 32, [⟨0x40808, [], 0⟩], [], [TMR_STAGGER_GO, TMR_STAGGER_MASK]⟩

def TMR_GSTATUS_SLOW : Fld := ⟨1, 1, .ro, 0, .d⟩
def TMR_GSTATUS_STAGGER_ERR : Fld := ⟨0, 0, .w1c, 0, .d⟩
/-- TMR_GSTATUS, R511. -/
def TMR_GSTATUS : Reg := ⟨214, 32, [⟨0x40810, [], 0⟩], [], [TMR_GSTATUS_SLOW, TMR_GSTATUS_STAGGER_ERR]⟩

def TMR_INT_STATUS_CHAN : Fld := ⟨7, 0, .ro, 0, .b⟩
/-- TMR_INT_STATUS, R511. -/
def TMR_INT_STATUS : Reg := ⟨215, 32, [⟨0x40818, [], 0⟩], [], [TMR_INT_STATUS_CHAN]⟩

def BRK_CTRL_IE : Fld := ⟨0, 0, .rw, 0, .b⟩
/-- BRK_CTRL, R534. -/
def BRK_CTRL : Reg := ⟨216, 32, [⟨0x70000, [], 0⟩], [], [BRK_CTRL_IE]⟩

def BRK_FLOOD_MODE_MODE : Fld := ⟨0, 0, .rw, 0, .b⟩
/-- BRK_FLOOD_MODE, R534. -/
def BRK_FLOOD_MODE : Reg := ⟨217, 32, [⟨0x70008, [], 0⟩], [], [BRK_FLOOD_MODE_MODE]⟩

def BRK_RATE_DEF_LIMIT : Fld := ⟨7, 0, .rw, 4, .b⟩
/-- BRK_RATE_DEF, R534. -/
def BRK_RATE_DEF : Reg := ⟨218, 32, [⟨0x70010, [], 0⟩], [], [BRK_RATE_DEF_LIMIT]⟩

def BRK_RATE_OVR_VALID : Fld := ⟨31, 31, .rw, 0, .b⟩
def BRK_RATE_OVR_LIMIT : Fld := ⟨23, 16, .rw, 0, .b⟩
def BRK_RATE_OVR_CODE : Fld := ⟨15, 0, .rw, 0, .b⟩
/-- BRK_RATE_OVR_i, R534. -/
def BRK_RATE_OVR : Reg := ⟨219, 32, [⟨0x70100, [(0x4, 32)], 0⟩], [], [BRK_RATE_OVR_VALID, BRK_RATE_OVR_LIMIT, BRK_RATE_OVR_CODE]⟩

def BRK_STATUS_FULL : Fld := ⟨31, 31, .ro, 0, .a⟩
def BRK_STATUS_ERR : Fld := ⟨30, 30, .w1c, 0, .b⟩
def BRK_STATUS_HELD : Fld := ⟨21, 8, .ro, 0, .a⟩
def BRK_STATUS_STAGED : Fld := ⟨7, 0, .ro, 0, .d⟩
/-- BRK_STATUS, R534. -/
def BRK_STATUS : Reg := ⟨220, 32, [⟨0x70018, [], 0⟩], [], [BRK_STATUS_FULL, BRK_STATUS_ERR, BRK_STATUS_HELD, BRK_STATUS_STAGED]⟩

def BRK_OPTIME_SECONDS : Fld := ⟨39, 0, .ro, 0, .a⟩
/-- BRK_OPTIME, R534. -/
def BRK_OPTIME : Reg := ⟨221, 64, [⟨0x70020, [], 0⟩], [], [BRK_OPTIME_SECONDS]⟩

def BRK_PWRCYC_COUNT : Fld := ⟨23, 0, .ro, 0, .a⟩
/-- BRK_PWRCYC, R534. -/
def BRK_PWRCYC : Reg := ⟨222, 32, [⟨0x70028, [], 0⟩], [], [BRK_PWRCYC_COUNT]⟩

def BRK_CNT_COUNT : Fld := ⟨47, 0, .ro, 0, .a⟩
/-- BRK_CNT_n, R534. -/
def BRK_CNT : Reg := ⟨223, 64, [⟨0x70040, [(0x8, 4)], 0⟩], [], [BRK_CNT_COUNT]⟩

def HC_CTRL_EN : Fld := ⟨31, 31, .rw, 1, .c⟩
def HC_CTRL_NOW : Fld := ⟨30, 30, .wo, 0, .d⟩
def HC_CTRL_PERIOD_MS : Fld := ⟨13, 0, .rw, 0x64, .c⟩
/-- HC_CTRL, R534. -/
def HC_CTRL : Reg := ⟨224, 32, [⟨0x80000, [], 0⟩], [], [HC_CTRL_EN, HC_CTRL_NOW, HC_CTRL_PERIOD_MS]⟩

def HC_STATUS_BUSY : Fld := ⟨63, 63, .ro, 0, .d⟩
def HC_STATUS_LENGTH : Fld := ⟨31, 0, .ro, 0, .d⟩
/-- HC_STATUS, R534. -/
def HC_STATUS : Reg := ⟨225, 64, [⟨0x80008, [], 0⟩], [], [HC_STATUS_BUSY, HC_STATUS_LENGTH]⟩

def HC_SEQ_SEQ : Fld := ⟨63, 0, .ro, 0, .d⟩
/-- HC_SEQ, R534. -/
def HC_SEQ : Reg := ⟨226, 64, [⟨0x80010, [], 0⟩], [], [HC_SEQ_SEQ]⟩

def HC_HDEST_BASE_ADDR : Fld := ⟨63, 12, .rw, 0, .c⟩
def HC_HDEST_BASE_LPDDR : Fld := ⟨0, 0, .rw, 0, .c⟩
/-- HC_HDEST_BASE, R534. -/
def HC_HDEST_BASE : Reg := ⟨227, 64, [⟨0x80018, [], 0⟩], [], [HC_HDEST_BASE_ADDR, HC_HDEST_BASE_LPDDR]⟩

def HC_HDEST_CFG_EN : Fld := ⟨31, 31, .rw, 0, .c⟩
def HC_HDEST_CFG_SLOTS : Fld := ⟨3, 0, .rw, 0, .c⟩
/-- HC_HDEST_CFG, R534. -/
def HC_HDEST_CFG : Reg := ⟨228, 32, [⟨0x80020, [], 0⟩], [], [HC_HDEST_CFG_EN, HC_HDEST_CFG_SLOTS]⟩

def HC_CHAIN_SEL_KIND : Fld := ⟨15, 8, .rw, 0, .d⟩
def HC_CHAIN_SEL_ARRAY : Fld := ⟨7, 0, .rw, 0, .d⟩
/-- HC_CHAIN_SEL, R534. -/
def HC_CHAIN_SEL : Reg := ⟨229, 32, [⟨0x80028, [], 0⟩], [], [HC_CHAIN_SEL_KIND, HC_CHAIN_SEL_ARRAY]⟩

def HC_CHAIN_DATA_MASK : Fld := ⟨31, 0, .rw, 0, .c⟩
/-- HC_CHAIN_DATA, R534. -/
def HC_CHAIN_DATA : Reg := ⟨230, 32, [⟨0x80030, [], 0⟩], [], [HC_CHAIN_DATA_MASK]⟩

def HC_CNT_COUNT : Fld := ⟨47, 0, .ro, 0, .d⟩
/-- HC_CNT_n, R534. -/
def HC_CNT : Reg := ⟨231, 64, [⟨0x80040, [(0x8, 2)], 0⟩], [], [HC_CNT_COUNT]⟩

def HOM_SESS_EN : Fld := ⟨63, 63, .rw, 0, .c⟩
def HOM_SESS_CTX : Fld := ⟨62, 60, .rw, 0, .c⟩
def HOM_SESS_TAP : Fld := ⟨59, 58, .rw, 0, .c⟩
def HOM_SESS_CLASSES : Fld := ⟨57, 54, .rw, 0, .c⟩
def HOM_SESS_PORTS : Fld := ⟨39, 32, .rw, 0, .c⟩
def HOM_SESS_TILES : Fld := ⟨31, 0, .rw, 0, .c⟩
/-- HOM_SESS_s, R534. -/
def HOM_SESS : Reg := ⟨232, 64, [⟨0x81000, [(0x40, 8)], 0⟩], [], [HOM_SESS_EN, HOM_SESS_CTX, HOM_SESS_TAP, HOM_SESS_CLASSES, HOM_SESS_PORTS, HOM_SESS_TILES]⟩

def HOM_KEY_MATCH : Fld := ⟨63, 32, .rw, 0, .c⟩
def HOM_KEY_MASK : Fld := ⟨31, 0, .rw, 0, .c⟩
/-- HOM_KEY_s, R534. -/
def HOM_KEY : Reg := ⟨233, 64, [⟨0x81008, [(0x40, 8)], 0⟩], [], [HOM_KEY_MATCH, HOM_KEY_MASK]⟩

def HOM_DEST_DEST : Fld := ⟨63, 63, .rw, 0, .c⟩
def HOM_DEST_STOP : Fld := ⟨62, 62, .rw, 0, .c⟩
def HOM_DEST_SIZE : Fld := ⟨61, 57, .rw, 0, .c⟩
def HOM_DEST_BASE : Fld := ⟨47, 0, .rw, 0, .c⟩
/-- HOM_DEST_s, R534. -/
def HOM_DEST : Reg := ⟨234, 64, [⟨0x81010, [(0x40, 8)], 0⟩], [], [HOM_DEST_DEST, HOM_DEST_STOP, HOM_DEST_SIZE, HOM_DEST_BASE]⟩

def HOM_STATUS_CNF : Fld := ⟨63, 63, .ro, 0, .d⟩
def HOM_STATUS_STOPPED : Fld := ⟨62, 62, .ro, 0, .d⟩
def HOM_STATUS_RD : Fld := ⟨57, 32, .rw, 0, .d⟩
def HOM_STATUS_WR : Fld := ⟨25, 0, .ro, 0, .d⟩
/-- HOM_STATUS_s, R534. -/
def HOM_STATUS : Reg := ⟨235, 64, [⟨0x81018, [(0x40, 8)], 0⟩], [], [HOM_STATUS_CNF, HOM_STATUS_STOPPED, HOM_STATUS_RD, HOM_STATUS_WR]⟩

def HOM_MISSED_COUNT : Fld := ⟨47, 0, .ro, 0, .d⟩
/-- HOM_MISSED_s, R534. -/
def HOM_MISSED : Reg := ⟨236, 64, [⟨0x81020, [(0x40, 8)], 0⟩], [], [HOM_MISSED_COUNT]⟩

def CTX_CLP_VALUE : Fld := ⟨63, 0, .ro, 0, .d⟩
/-- CTX_CLP_k, R534. -/
def CTX_CLP : Reg := ⟨237, 64, [], [⟨0x30000, [(0x8, 10)], 0, 10⟩], [CTX_CLP_VALUE]⟩

def CTX_LOSS_VALUE : Fld := ⟨63, 0, .ro, 0, .d⟩
/-- CTX_LOSS_p_k, R534. -/
def CTX_LOSS : Reg := ⟨238, 64, [], [⟨0x30100, [(0x20, 56), (0x8, 4)], 0, 224⟩], [CTX_LOSS_VALUE]⟩

def CTX_OFF_VALUE : Fld := ⟨63, 0, .ro, 0, .d⟩
/-- CTX_OFF_k, R534. -/
def CTX_OFF : Reg := ⟨239, 64, [], [⟨0x30800, [(0x8, 4)], 0, 4⟩], [CTX_OFF_VALUE]⟩

def CTX_SEQ_SEQ : Fld := ⟨63, 0, .ro, 0, .d⟩
/-- CTX_SEQ, R534. -/
def CTX_SEQ : Reg := ⟨240, 64, [], [⟨0x30840, [], 0, 1⟩], [CTX_SEQ_SEQ]⟩

def MEM_CFG_GB : Fld := ⟨7, 0, .ro, 0x40, .a⟩
/-- MEM_CFG, R551. -/
def MEM_CFG : Reg := ⟨241, 32, [⟨0xF0000, [], 0⟩], [], [MEM_CFG_GB]⟩

def MEM_STATUS_SPARES : Fld := ⟨12, 0, .ro, 0x1000, .d⟩
/-- MEM_STATUS, R551. -/
def MEM_STATUS : Reg := ⟨242, 32, [⟨0xF0008, [], 0⟩], [], [MEM_STATUS_SPARES]⟩

def MEM_STATUS_FLAGS_CFG_ERR : Fld := ⟨0, 0, .w1c, 0, .d⟩
/-- MEM_STATUS_FLAGS, R551. -/
def MEM_STATUS_FLAGS : Reg := ⟨243, 32, [⟨0xF000C, [], 0⟩], [], [MEM_STATUS_FLAGS_CFG_ERR]⟩

def MEM_RET_EIGHTHS : Fld := ⟨3, 0, .rw, 0, .b⟩
/-- MEM_RET, R551. -/
def MEM_RET : Reg := ⟨244, 32, [⟨0xF0010, [], 0⟩], [], [MEM_RET_EIGHTHS]⟩

def MEM_CTX_HOME : Fld := ⟨63, 48, .rw, 0, .b⟩
def MEM_CTX_SIZE : Fld := ⟨47, 32, .rw, 0, .b⟩
def MEM_CTX_BASE : Fld := ⟨15, 0, .rw, 0, .b⟩
/-- MEM_CTX_c, R551. -/
def MEM_CTX : Reg := ⟨245, 64, [⟨0xF0100, [(0x8, 8)], 0⟩], [], [MEM_CTX_HOME, MEM_CTX_SIZE, MEM_CTX_BASE]⟩

def MEM_APER_BASE : Fld := ⟨47, 16, .rw, 0, .c⟩
/-- MEM_APER_a, R551. -/
def MEM_APER : Reg := ⟨246, 64, [⟨0xF0200, [(0x8, 3)], 0⟩], [], [MEM_APER_BASE]⟩

def MEM_COMPL_ERR_ERR : Fld := ⟨63, 0, .w1c, 0, .d⟩
/-- MEM_COMPL_ERR_c_w, R551. -/
def MEM_COMPL_ERR : Reg := ⟨247, 64, [⟨0xF0400, [(0x20, 8), (0x8, 4)], 0⟩], [], [MEM_COMPL_ERR_ERR]⟩

def MEM_FLASH_CTRL_ERASE : Fld := ⟨31, 31, .wo, 0, .d⟩
def MEM_FLASH_CTRL_SECTOR : Fld := ⟨10, 0, .wo, 0, .d⟩
/-- MEM_FLASH_CTRL, R551. -/
def MEM_FLASH_CTRL : Reg := ⟨248, 32, [⟨0xF0600, [], 0⟩], [], [MEM_FLASH_CTRL_ERASE, MEM_FLASH_CTRL_SECTOR]⟩

def MEM_FLASH_STATUS_ERR : Fld := ⟨1, 1, .w1c, 0, .d⟩
def MEM_FLASH_STATUS_BUSY : Fld := ⟨0, 0, .ro, 0, .d⟩
/-- MEM_FLASH_STATUS, R551. -/
def MEM_FLASH_STATUS : Reg := ⟨249, 32, [⟨0xF0608, [], 0⟩], [], [MEM_FLASH_STATUS_ERR, MEM_FLASH_STATUS_BUSY]⟩

def MEM_CNT_COUNT : Fld := ⟨47, 0, .ro, 0, .d⟩
/-- MEM_CNT_n, R551. -/
def MEM_CNT : Reg := ⟨250, 64, [⟨0xF0700, [(0x8, 4)], 0⟩], [], [MEM_CNT_COUNT]⟩

def PWR_THERM_CFG_TRIP_C : Fld := ⟨23, 16, .rw, 0x73, .b⟩
def PWR_THERM_CFG_ALERT_C : Fld := ⟨15, 8, .rw, 0x5F, .b⟩
def PWR_THERM_CFG_HYST_C : Fld := ⟨3, 0, .rw, 5, .b⟩
/-- PWR_THERM_CFG, R570. -/
def PWR_THERM_CFG : Reg := ⟨251, 32, [⟨0x10400, [], 0⟩], [], [PWR_THERM_CFG_TRIP_C, PWR_THERM_CFG_ALERT_C, PWR_THERM_CFG_HYST_C]⟩

def PWR_THERM_STATUS_TRIPPED : Fld := ⟨31, 31, .w1c, 0, .a⟩
def PWR_THERM_STATUS_ALERT : Fld := ⟨30, 30, .w1c, 0, .b⟩
def PWR_THERM_STATUS_HOTTEST : Fld := ⟨19, 16, .ro, 0, .d⟩
def PWR_THERM_STATUS_TEMP : Fld := ⟨15, 0, .ro, 0, .d⟩
/-- PWR_THERM_STATUS, R570. -/
def PWR_THERM_STATUS : Reg := ⟨252, 32, [⟨0x10408, [], 0⟩], [], [PWR_THERM_STATUS_TRIPPED, PWR_THERM_STATUS_ALERT, PWR_THERM_STATUS_HOTTEST, PWR_THERM_STATUS_TEMP]⟩

def PWR_TEMP_STALE : Fld := ⟨31, 31, .ro, 0, .d⟩
def PWR_TEMP_TEMP : Fld := ⟨15, 0, .ro, 0, .d⟩
/-- PWR_TEMP_n, R570. -/
def PWR_TEMP : Reg := ⟨253, 32, [⟨0x10440, [(0x4, 16)], 0⟩], [], [PWR_TEMP_STALE, PWR_TEMP_TEMP]⟩

def PWR_PKG_POWER_PEAK : Fld := ⟨31, 16, .rc, 0, .d⟩
def PWR_PKG_POWER_AVG : Fld := ⟨15, 0, .ro, 0, .d⟩
/-- PWR_PKG_POWER, R570. -/
def PWR_PKG_POWER : Reg := ⟨254, 32, [⟨0x10480, [], 0⟩], [], [PWR_PKG_POWER_PEAK, PWR_PKG_POWER_AVG]⟩

def NE_SDP_VALUE : Fld := ⟨47, 0, .ro, 0, .d⟩
/-- NE_SDP_DATA selected by NE_SDP_SEL: index (engine × 8 + POINT) × 16 + CTX × 2 + CLASS (R133). -/
def NE_SDP : Reg := ⟨255, 64, [], [], [NE_SDP_VALUE]⟩

def NE_LATE_VALUE : Fld := ⟨47, 0, .ro, 0, .d⟩
/-- NE_LATE_DATA selected by NE_LATE_SEL: (engine × 8 + POINT) × 16 + CTX × 2 + CLASS (R167). -/
def NE_LATE : Reg := ⟨256, 64, [], [], [NE_LATE_VALUE]⟩

def TUM_DP_VALUE : Fld := ⟨47, 0, .ro, 0, .d⟩
/-- TUM_DP_DATA selected by TUM_DP_SEL: (tile × 8 + POINT) × 16 + CTX × 2 + CLASS (R196). -/
def TUM_DP : Reg := ⟨257, 64, [], [], [TUM_DP_VALUE]⟩

def MID_PC_VALUE : Fld := ⟨47, 0, .ro, 0, .d⟩
/-- MID_PC_DATA selected by MID_PC_SEL: (tile × 8 + PORT) × 8 + CLASS × 2 + KIND (R274). -/
def MID_PC : Reg := ⟨258, 64, [], [], [MID_PC_VALUE]⟩

def MID_DP_VALUE : Fld := ⟨47, 0, .ro, 0, .d⟩
/-- MID_DP_DATA selected by MID_DP_SEL: (tile × 8 + POINT) × 32 + CTX × 4 + CLASS (R274). -/
def MID_DP : Reg := ⟨259, 64, [], [], [MID_DP_VALUE]⟩

def ELK_DP_VALUE : Fld := ⟨47, 0, .ro, 0, .d⟩
/-- ELK_DP_DATA selected by ELK_DP_SEL: (port × 4 + POINT) × 32 + CTX × 4 + CLASS (R317). -/
def ELK_DP : Reg := ⟨260, 64, [], [], [ELK_DP_VALUE]⟩

def RIM_DP_VALUE : Fld := ⟨47, 0, .ro, 0, .d⟩
/-- RIM_DP_DATA selected by RIM_DP_SEL: POINT × 32 + CTX × 4 + CLASS (R318). -/
def RIM_DP : Reg := ⟨261, 64, [], [], [RIM_DP_VALUE]⟩

def SNS_DP_VALUE : Fld := ⟨47, 0, .ro, 0, .d⟩
/-- SNS_DP_DATA selected by SNS_DP_SEL: POINT × 32 + INPUT (R343). -/
def SNS_DP : Reg := ⟨262, 64, [], [], [SNS_DP_VALUE]⟩

def SNS_PC_VALUE : Fld := ⟨47, 0, .ro, 0, .d⟩
/-- SNS_PC_DATA selected by SNS_PC_SEL: COUNT × 32 + INPUT (R343). -/
def SNS_PC : Reg := ⟨263, 64, [], [], [SNS_PC_VALUE]⟩

def HST_DP_VALUE : Fld := ⟨47, 0, .ro, 0, .d⟩
/-- HST_DP_DATA selected by HST_DP_SEL: POINT × 16 + CTX × 2 + CLASS (R362). -/
def HST_DP : Reg := ⟨264, 64, [], [], [HST_DP_VALUE]⟩

def MQ_CNT_VALUE : Fld := ⟨47, 0, .ro, 0, .d⟩
/-- MQ_CNT_DATA selected by MQ_CNT_SEL: (AGENT × 128 + PEER) × 8 + KIND (R409). -/
def MQ_CNT : Reg := ⟨265, 64, [], [], [MQ_CNT_VALUE]⟩

def MQ_DP_VALUE : Fld := ⟨47, 0, .ro, 0, .d⟩
/-- MQ_DP_DATA selected by MQ_DP_SEL: (AGENT × 8 + POINT) × 8 + CTX (R409). -/
def MQ_DP : Reg := ⟨266, 64, [], [], [MQ_DP_VALUE]⟩

def FLT_OFF_VALUE : Fld := ⟨47, 0, .ro, 0, .d⟩
/-- FLT_OFF_DATA selected by FLT_OFF_SEL: CTX × 4 + CLASS (R433). -/
def FLT_OFF : Reg := ⟨267, 64, [], [], [FLT_OFF_VALUE]⟩

def FLT_DP_VALUE : Fld := ⟨47, 0, .ro, 0, .d⟩
/-- FLT_DP_DATA selected by FLT_DP_SEL: CTX × 4 + CLASS (R433). -/
def FLT_DP : Reg := ⟨268, 64, [], [], [FLT_DP_VALUE]⟩

def HC_CHAIN_VALUE : Fld := ⟨31, 0, .ro, 0, .c⟩
/-- HC_CHAIN_DATA of the array KIND × 256 + ARRAY selected by HC_CHAIN_SEL (R534). -/
def HC_CHAIN : Reg := ⟨269, 64, [], [], [HC_CHAIN_VALUE]⟩

def regs0 : List Reg := [NE_CTRL, NE_STATUS, NE_NOISE_SEED, NE_RO_BASE, NE_DBG_IDX, NE_DBG_REC_LO, NE_DBG_REC_HI, NE_NPCNT, NE_DP_EMITDUP, NE_DECAY_REST, NE_POP_LO, NE_POP_HI, NE_DECAY, NE_RO_APER, NE_SYN_CTRL, NE_SR_SEED, NE_HOME_BASE, NE_SYN_STATUS, NE_SPCNT, NE_SDP_SEL, NE_SDP_DATA, NE_PROJ, CLP_PERIOD, CLP_PHASE, CLP_CTRL, CLP_MAXSTRETCH, CLP_INTERM_MAX, CLP_STEP, CLP_STATUS, CLP_TICK]
def regs1 : List Reg := [CLP_CNT, CLP_INFLIGHT, CLP_SYNC, CLP_STAGGER, CLP_GSTATUS, NE_LATE_SEL, NE_LATE_DATA, NE_TCNT, TUM_STATUS, TUM_SEED, TUM_CNT, TUM_DP_SEL, TUM_DP_DATA, TUM_EPOCH_LEN, TUM_EPOCH_BASE, TUM_TRACE, TUM_HOMEO, TUM_CFG, TUM_MOD_KEY, TUM_EPOCH_NOW, TUM_SWEPT, TUM_WT, TUM_PL, TUM_PLASTIC_PROJ, TUM_HPROJ, TUM_RULE_APER, USH_CTRL, USH_STATUS, USH_REASON, USH_INFLIGHT_MAX]
def regs2 : List Reg := [USH_GEN, USH_FLOW_SEL, USH_FLOW_DATA, USH_BLK_SEL, USH_BLK_DATA, USH_SPILL, USH_CNT, USH_PERIOD, USH_COPY, MID_STATUS, MID_VER_SEL, MID_VER_STATUS, MID_COMB, MID_ARB, MID_FT_REGION, MID_FT_SEL, MID_FT_LO, MID_FT_HI, MID_C0POL, MID_PC_SEL, MID_PC_DATA, MID_DP_SEL, MID_DP_DATA, MID_CNT, MID_SLOT_APER, ELK_CTRL, ELK_STATUS, ELK_PEER_CAP, ELK_LANE_SER, ELK_CNT]
def regs3 : List Reg := [ELK_DP_SEL, ELK_DP_DATA, RIM_TOPO, RIM_VER_SEL, RIM_VER_STATUS, RIM_STATUS, RIM_TAB_REGION, RIM_TAB_SEL, RIM_TAB_LO, RIM_TAB_HI, RIM_XPT, RIM_DT, RIM_CNT, RIM_DP_SEL, RIM_DP_DATA, RIM_COMPL, SNS_IN_CFG, SNS_IN_CHK, SNS_TURN, SNS_MAP_ORG, SNS_LAYOUT_A, SNS_LAYOUT_B, SNS_MAP, SNS_IN_STATUS, SNS_CSI_CTRL, SNS_AER_CTRL, SNS_AERO_KEY, SNS_INT_STATUS, SNS_INT_EN, SNS_DP_SEL]
def regs4 : List Reg := [SNS_DP_DATA, SNS_PC_SEL, SNS_PC_DATA, SNS_PIXEL_APER, SNS_HOT_APER, CRC_CFG, CRC_PARAM, CRC_STATUS, HST_APER, HST_INJ_BASE, HST_INJ_CTRL, HST_INJ_PTR, HST_OUT_BASE, HST_OUT_CTRL, HST_OUT_MATCH, HST_OUT_PTR, HST_DP_SEL, HST_DP_DATA, HST_SQ_BASE, HST_SQ_CTRL, HST_SQ_PTR, HST_SQ_STATUS, HST_CQ_BASE, HST_CQ_CTRL, HST_CQ_PTR, HST_BOX_CNT, MQ_CFG, MQ_STATUS, MQ_DATA, MQ_PEEK]
def regs5 : List Reg := [MQ_CNT_SEL, MQ_CNT_DATA, MQ_DP_SEL, MQ_DP_DATA, FLT_CTRL, FLT_WDOG, FLT_UNIT_SEL, FLT_UNIT_DATA, FLT_CNT, FLT_SOFTREP, FLT_OFF_SEL, FLT_OFF_DATA, FLT_DP_SEL, FLT_DP_DATA, RAB_CTRL, RAB_STATUS, RAB_CNT, SEC_VIOLATIONS, SEC_VIOL_LAST, SEC_LIFECYCLE, SEC_SERIAL, SEC_LIC, SEC_DBG_CHALLENGE, SEC_DBG_STATUS, SEC_DBG_CTRL, SEC_ATTEST, SEC_MEAS, SEC_CTX_STATUS, SEC_CTX_CNF, SEC_CTX_TICK]
def regs6 : List Reg := [NE_BOUNDS, GLB_BOOT, GLB_BOOT_TIME, GLB_BOOT_CFG, GLB_TOPO_BOOT, GLB_FUSE_SEL, GLB_FUSE_DATA, CAL_STATUS, PWR_STATUS, PWR_CTRL, PWR_NAP_RET, PWR_WAKE_EN, PWR_WAKE_CMP, PWR_GPIO_WAKE, PWR_WAKE_CAUSE, PWR_PAD_RELEASE, PWR_REFCNT, PWR_REFLOG_IDX, PWR_REFLOG, PWR_REFLOG_TIME, RST_CTRL, RST_UNIT, RST_STATUS, RST_CNT, CLK_STATUS, TMR_CTRL, TMR_COUNT, TMR_PERIOD, TMR_CMP, TMR_CMP_REL]
def regs7 : List Reg := [TMR_PHASE, TMR_STATUS, TMR_SYNC, TMR_STAGGER, TMR_GSTATUS, TMR_INT_STATUS, BRK_CTRL, BRK_FLOOD_MODE, BRK_RATE_DEF, BRK_RATE_OVR, BRK_STATUS, BRK_OPTIME, BRK_PWRCYC, BRK_CNT, HC_CTRL, HC_STATUS, HC_SEQ, HC_HDEST_BASE, HC_HDEST_CFG, HC_CHAIN_SEL, HC_CHAIN_DATA, HC_CNT, HOM_SESS, HOM_KEY, HOM_DEST, HOM_STATUS, HOM_MISSED, CTX_CLP, CTX_LOSS, CTX_OFF]
def regs8 : List Reg := [CTX_SEQ, MEM_CFG, MEM_STATUS, MEM_STATUS_FLAGS, MEM_RET, MEM_CTX, MEM_APER, MEM_COMPL_ERR, MEM_FLASH_CTRL, MEM_FLASH_STATUS, MEM_CNT, PWR_THERM_CFG, PWR_THERM_STATUS, PWR_TEMP, PWR_PKG_POWER, NE_SDP, NE_LATE, TUM_DP, MID_PC, MID_DP, ELK_DP, RIM_DP, SNS_DP, SNS_PC, HST_DP, MQ_CNT, MQ_DP, FLT_OFF, FLT_DP, HC_CHAIN]

/-- Every register, in order of its `id`. -/
def allRegs : List Reg := regs0 ++ regs1 ++ regs2 ++ regs3 ++ regs4 ++ regs5 ++ regs6 ++ regs7 ++ regs8

end Sys2Proof.Machine
end

