-- ==== Sys2Proof/Machine/Ops.lean ====
section
/-! DEFINITION. The named operations that every family uses: sparse tables, registers and their fields (R13 to R18),
counters (R512, R513), the device physical memory (R545, R546), free values, Barker occurrences (R523 to R528, R571) and
drops (R415, R572). -/

namespace Sys2Proof.Machine

/-! ## Sparse tables -/

/-- What key `k` holds: its listed value, else the default. -/
def Tab.get {α : Type} (dflt : α) (t : Tab α) (k : Nat) : α :=
  match t with
  | [] => dflt
  | (j, v) :: r => if j = k then v else Tab.get dflt r k

/-- Entries whose keys lie below `k`. -/
def Tab.below {α : Type} (t : Tab α) (k : Nat) : Tab α := t.filter (fun p => decide (p.1 < k))

/-- Entries whose keys lie above `k`. -/
def Tab.above {α : Type} (t : Tab α) (k : Nat) : Tab α := t.filter (fun p => decide (k < p.1))

/-- Key `k` holds `v`; an entry equal to the default is not listed. -/
def Tab.set {α : Type} [DecidableEq α] (dflt : α) (t : Tab α) (k : Nat) (v : α) : Tab α :=
  t.below k ++ (if v = dflt then t.above k else (k, v) :: t.above k)

/-- Key `k` holds `f` of what it held. -/
def Tab.upd {α : Type} [DecidableEq α] (dflt : α) (t : Tab α) (k : Nat) (f : α → α) : Tab α :=
  Tab.set dflt t k (f (Tab.get dflt t k))

/-- Whether key `k` is listed. -/
def Tab.has {α : Type} (t : Tab α) (k : Nat) : Bool := t.any (fun p => p.1 = k)

/-- The canonical form: keys strictly rising. -/
def Tab.sorted {α : Type} : Tab α → Bool
  | [] => true
  | [_] => true
  | (j, _) :: (k, w) :: r => decide (j < k) && Tab.sorted ((k, w) :: r)

/-! ## Numbers -/

/-- Signed reading of the low `w` bits of a number. -/
def sgn (w n : Nat) : Int :=
  let m := n % 2 ^ w
  if m < 2 ^ (w - 1) then (m : Int) else (m : Int) - (2 ^ w : Nat)

/-- The `w`-bit two's-complement code of an integer. -/
def enc (w : Nat) (x : Int) : Nat := (x % ((2 ^ w : Nat) : Int)).toNat

/-- Clamp to a range. -/
def clampI (lo hi x : Int) : Int := max lo (min hi x)

/-- Round half away from zero of a ÷ b, for b > 0. -/
def rha (a : Int) (b : Nat) : Int :=
  if a ≥ 0 then (2 * a + b) / (2 * b) else -((2 * (-a) + b) / (2 * b))

/-- Ceiling of a ÷ b. -/
def cdiv (a b : Nat) : Nat := (a + b - 1) / b

/-- Number of ones among the low `w` bits. -/
def popc : Nat → Nat → Nat
  | 0, _ => 0
  | w + 1, n => n % 2 + popc w (n / 2)

/-- Indices below `w` of the ones of `n`, ascending. -/
def ones (w n : Nat) : List Nat := (List.range w).filter (fun i => n.testBit i)

/-- Bits [hi:lo] of a number. -/
def bits (n hi lo : Nat) : Nat := n / 2 ^ lo % 2 ^ (hi + 1 - lo)

/-- The number whose little-endian bytes are given. -/
def leNat : List Byte → Nat
  | [] => 0
  | b :: r => b.toNat + 256 * leNat r

/-- The `n` little-endian bytes of a number. -/
def leBytes : Nat → Nat → List Byte
  | 0, _ => []
  | n + 1, v => BitVec.ofNat 8 v :: leBytes n (v / 256)

/-- The part of a list from `i`, at most `n` long. -/
def slice {α : Type} (l : List α) (i n : Nat) : List α := (l.drop i).take n

/-- A field of `n` little-endian bytes at byte `i` of a byte list. -/
def at_ (l : List Byte) (i n : Nat) : Nat := leNat (slice l i n)

/-! ## Cyclic redundancy checks -/

/-- Reverse the low `w` bits. -/
def revBits : Nat → Nat → Nat
  | 0, _ => 0
  | w + 1, n => (n % 2) * 2 ^ w + revBits w (n / 2)

/-- One byte into a most-significant-bit-first CRC register of width `w`. -/
def crcByte (w poly : Nat) (crc byte : Nat) : Nat :=
  (List.range 8).foldl (fun c i =>
    let top := c / 2 ^ (w - 1) % 2
    let bit := byte / 2 ^ (7 - i) % 2
    let c' := (c * 2) % 2 ^ w
    if (top + bit) % 2 = 1 then c' ^^^ poly else c') crc

/-- The CRC of a byte list with the parameters that a committed configuration holds (R338): width, polynomial, initial
value, final XOR, reflection of each input byte, reflection of the result. -/
def crc (w poly init xorout : Nat) (refin refout : Bool) (bs : List Byte) : Nat :=
  let r := bs.foldl (fun c b => crcByte w poly c (if refin then revBits 8 b.toNat else b.toNat)) (init % 2 ^ w)
  ((if refout then revBits w r else r) ^^^ xorout) % 2 ^ w

/-- CRC-32C, the Castagnoli CRC of the device's own structures. -/
def crc32c (bs : List Byte) : Nat := crc 32 0x1EDC6F41 0xFFFFFFFF 0xFFFFFFFF true true bs

/-! ## Registers -/

/-- Value of a field. -/
def Fld.get (f : Fld) (v : W64) : Nat := bits v.toNat f.hi f.lo

/-- The ones of a field's bits. -/
def Fld.mask (f : Fld) : W64 := BitVec.ofNat 64 ((2 ^ (f.hi + 1 - f.lo) - 1) * 2 ^ f.lo)

/-- A register value with a field replaced. -/
def Fld.put (f : Fld) (v : W64) (n : Nat) : W64 :=
  (v &&& ~~~ f.mask) ||| (BitVec.ofNat 64 (n * 2 ^ f.lo) &&& f.mask)

/-- A field of a raw register image, as a number with its bits in place. -/
def Reg.resetVal (r : Reg) : W64 := r.fields.foldl (fun v f => f.put v f.reset) 0

/-- Key of instance `i` of a register. -/
def Reg.key (r : Reg) (i : Nat) : Nat := r.id * 2 ^ 20 + i

/-- The reset value of instance `i`: the Reset column; the rim's Roustabout has its own period (R433). -/
def Reg.reset (r : Reg) (i : Nat) : W64 :=
  if r.id = RAB_CTRL.id ∧ i = 32 then RAB_CTRL_PERIOD_MS.put r.resetVal 7000 else r.resetVal

/-- Stored value of instance `i` of a register. -/
def Dev.rd (d : Dev) (r : Reg) (i : Nat) : W64 := Tab.get (r.reset i) d.regs (r.key i)

/-- Instance `i` of a register holds `v`. -/
def Dev.wr (d : Dev) (r : Reg) (i : Nat) (v : W64) : Dev :=
  { d with regs := Tab.set (r.reset i) d.regs (r.key i) v }

/-- Value of a field of instance `i`. -/
def Dev.fld (d : Dev) (r : Reg) (i : Nat) (f : Fld) : Nat := f.get (d.rd r i)

/-- A one-bit field of instance `i`. -/
def Dev.flag (d : Dev) (r : Reg) (i : Nat) (f : Fld) : Bool := d.fld r i f != 0

/-- A field of instance `i` takes a value. -/
def Dev.setF (d : Dev) (r : Reg) (i : Nat) (f : Fld) (n : Nat) : Dev := d.wr r i (f.put (d.rd r i) n)

/-- What a write of `v`, covering the bits of `cover`, leaves in a register, by the access codes of R15 and the
half-write rule of R18. -/
def Reg.written (r : Reg) (old v cover : W64) : W64 :=
  r.fields.foldl (fun acc f =>
    let m := f.mask &&& cover
    match f.acc with
    | .rw => (acc &&& ~~~ m) ||| (v &&& m)
    | .w1c => acc &&& ~~~ (v &&& m)
    | .w1s => acc ||| (v &&& m)
    | _ => acc) old

/-- The bits covered. -/
def halfCover : Half → W64
  | .low => 0x00000000FFFFFFFF
  | .high => 0xFFFFFFFF00000000
  | .whole => 0xFFFFFFFFFFFFFFFF

/-- Whether the write covers the high half, and so takes the register's commit action (R18). -/
def halfCommits : Half → Bool
  | .low => false
  | _ => true

/-- The value that the fields of a write present: the written bits, and the present value elsewhere. -/
def halfMerge (h : Half) (old v : W64) : W64 := (old &&& ~~~ halfCover h) ||| (v &&& halfCover h)

/-- A write of a register by its access codes alone. -/
def Dev.store (d : Dev) (r : Reg) (i : Nat) (h : Half) (v : W64) : Dev := d.wr r i (r.written (d.rd r i) v (halfCover h))

/-- The fields of a register whose Keep letter is in the list return to their reset values. -/
def Reg.resetKeeps (r : Reg) (i : Nat) (ks : List Keep) (v : W64) : W64 :=
  r.fields.foldl (fun acc f => if f.keep ∈ ks then f.put acc (f.get (r.reset i)) else acc) v

/-- The register whose number is `n`. -/
def regOf (n : Nat) : Option Reg := allRegs[n]?

/-- In every stored register that the predicate selects, the fields of the given Keep letters return to reset. -/
def Dev.resetRegs (d : Dev) (sel : Reg → Nat → Bool) (ks : List Keep) : Dev :=
  d.regs.foldl (fun acc p =>
    match regOf (p.1 / 2 ^ 20) with
    | none => acc
    | some r =>
      let i := p.1 % 2 ^ 20
      if sel r i then acc.wr r i (r.resetKeeps i ks p.2) else acc) d

/-- Offset of a flat index in a window whose dimensions are given innermost first. -/
def radixAddr : List (Nat × Nat) → Nat → Nat
  | [], _ => 0
  | (stride, n) :: r, k => k % n * stride + radixAddr r (k / n)

/-- Number of instances that dimensions give. -/
def dimCount (dims : List (Nat × Nat)) : Nat := dims.foldl (fun a x => a * x.2) 1

/-- BAR0 offset of instance `i` of a register. -/
def Reg.addr (r : Reg) (i : Nat) : Nat :=
  match r.pf.find? (fun w => decide (w.off ≤ i) && decide (i < w.off + dimCount w.dims)) with
  | some w => w.base + radixAddr w.dims.reverse (i - w.off)
  | none => 0

/-! ## Counters -/

/-- The fixed counter arrays of R521 that can be chained (R513): unit kind, array number, length. -/
def Reg.chain (r : Reg) : Option (Nat × Nat × Nat) :=
  if r.id = FLT_CNT.id then some (1, 0, 8) else if r.id = RST_CNT.id then some (1, 1, 7)
  else if r.id = BRK_CNT.id then some (1, 2, 4) else if r.id = HC_CNT.id then some (1, 3, 2)
  else if r.id = HST_BOX_CNT.id then some (4, 0, 6) else if r.id = ELK_CNT.id then some (7, 0, 11)
  else if r.id = RIM_CNT.id then some (8, 0, 7) else if r.id = MID_CNT.id then some (9, 0, 9)
  else if r.id = TUM_CNT.id then some (10, 0, 12) else if r.id = RAB_CNT.id then some (11, 0, 6)
  else if r.id = NE_NPCNT.id then some (12, 0, 12) else if r.id = NE_SPCNT.id then some (12, 1, 20)
  else if r.id = NE_TCNT.id then some (12, 2, 2) else none

/-- Whether pair `j` of a chainable array is chained. -/
def Dev.chained (d : Dev) (kind arr j : Nat) : Bool := (d.fld HC_CHAIN (kind * 256 + arr) HC_CHAIN_VALUE).testBit j

/-- A counter of 48 bits counts up by `n` and wraps without a flag (R512); a chained pair carries (R513). -/
def Dev.bump (d : Dev) (r : Reg) (i n : Nat) : Dev :=
  let now := (d.rd r i).toNat % 2 ^ 48
  let plain := d.wr r i (BitVec.ofNat 64 ((now + n) % 2 ^ 48))
  match r.chain with
  | none => plain
  | some (kind, arr, len) =>
    let k := i % len
    if d.chained kind arr (k / 2) ∧ k / 2 * 2 + 1 < len then
      if k % 2 = 1 then d
      else
        let hi := (d.rd r (i + 1)).toNat % 2 ^ 48
        plain.wr r (i + 1) (BitVec.ofNat 64 ((hi + (now + n) / 2 ^ 48) % 2 ^ 48))
    else plain

/-- A violation counts in SEC_VIOLATIONS and shows in SEC_VIOL_LAST: FUNC, KIND, OFFSET (R353, R439, R456).
DEDUCED, log entry 14. -/
def Dev.violation (d : Dev) (func kind off : Nat) : Dev :=
  let d := (d.bump SEC_VIOLATIONS 0 1).setF SEC_VIOL_LAST 0 SEC_VIOL_LAST_VALID 1
  let d := (d.setF SEC_VIOL_LAST 0 SEC_VIOL_LAST_FUNC func).setF SEC_VIOL_LAST 0 SEC_VIOL_LAST_KIND kind
  d.setF SEC_VIOL_LAST 0 SEC_VIOL_LAST_OFFSET off

/-- The physical function's access to a register is closed off by a confidential context (R439). -/
def Dev.closed (d : Dev) (r : Reg) (i : Nat) : Dev := d.violation 0 2 (r.addr i)

/-- The context whose window is a requester's view; none for the physical function's view (R18, R352, R388). -/
def windowOf : Requester → Option Nat
  | .vf c => some c.val
  | .sq q => if q.val < 8 then none else some ((q.val - 8) / 2)
  | .remote _ a => if 0x30 ≤ a.val ∧ a.val ≤ 0x37 then some (a.val - 0x30) else none
  | _ => none

/-- Whether a requester reaches registers through the physical function, so that R439 closes items off. -/
def viaPf (who : Requester) : Bool :=
  match who with
  | .agent _ => false
  | w => (windowOf w).isNone

/-- FUNC of a requester in SEC_VIOL_LAST (R456). -/
def reqFunc : Requester → Nat
  | .pf => 0
  | .vf c => 1 + c.val
  | .sq q => if q.val < 8 then 0 else 1 + (q.val - 8) / 2
  | .remote _ a => if 0x30 ≤ a.val ∧ a.val ≤ 0x37 then 1 + (a.val - 0x30) else 0
  | .agent _ => 0

/-! ## The device physical memory -/

/-- Start of tile `t` in the device physical map (R545). -/
def tileBase (t : Nat) : Nat := 0x1000000000 + t * 0x2000000
/-- Start of engine `e` of tile `t` (R546). -/
def engBase (t e : Nat) : Nat := tileBase t + e * 0x300000
/-- Start of the tile-shared SRAM of tile `t` (R546). -/
def sharedBase (t : Nat) : Nat := tileBase t + 0x1B00000
/-- Start of Ringmaster SRAM (R545). -/
def rmSram : Nat := 0x1400000000
/-- Start of the host range of the flash user area (R545, R550). -/
def flashBase : Nat := 0x1C00000000
/-- Bytes of the host range of the flash user area, 91.4375 MiB (R545). -/
def flashBytes : Nat := 95879168
/-- Usable LPDDR5X capacity in bytes (R537, R545). -/
def usableBytes : Nat := if Config.partMemoryGb = 64 then 62 * 2 ^ 30 else 31 * 2 ^ 30

/-- Whether an address of the device physical map maps to a memory (R545, R546). -/
def memMaps (a : Nat) : Bool :=
  decide (a < usableBytes)
  || (decide (0x1000000000 ≤ a) && decide (a < 0x1000000000 + 32 * 0x2000000) && decide ((a - 0x1000000000) % 0x2000000 < 0x1C00000))
  || (decide (rmSram ≤ a) && decide (a < rmSram + 2 ^ 23))
  || (decide (flashBase ≤ a) && decide (a < flashBase + flashBytes))

/-- The words of library routine 0, RT-LIF, as R86 prints them. -/
def rtLif : List Nat :=
  [0x0400000000000000, 0x0600000000000000, 0x3800800000000000, 0x1E40000001000000, 0x2000000000000000,
   0x0E54000000000000, 0x1C00000000000000, 0x0C0B000000000000, 0x2413010000000000, 0x3C01000000000000,
   0x3001000000000000, 0x3801000002000000, 0x0800000000000000, 0x0A00000000000000, 0xFC00000000000000]

/-- Lengths of the library routines 0 to 4 (R85). -/
def libraryLength : Nat → Nat
  | 0 => 15 | 1 => 20 | 2 => 15 | 3 => 19 | 4 => 12 | _ => 0

/-- Variables that library routine `r` stores and decay tables that it uses, as bits 0 V, 1 A, 2 I, 3 X and as bits 0 to 3 (R85). -/
def libraryUse : Nat → Nat × Nat
  | 0 => (0b0101, 0b0011) | 1 => (0b0111, 0b0111) | 2 => (0b0011, 0b0000) | 3 => (0b0011, 0b0010) | 4 => (0b1001, 0b0001)
  | _ => (0, 0)

/-- Bits set by the words of a routine: 2 ^ n for each word whose OP is `op`, with `n` its field [hi:lo] (R65). -/
def usedBy (op hi lo : Nat) (ws : List Nat) : Nat :=
  ws.foldl (fun m w => if bits w 63 58 = op then m ||| 2 ^ bits w hi lo else m) 0

/-- What R85 and R87 say of a library routine's words: its length, legal words with END as the last alone, at most one SLOT, the
variables ST stores, the tables DECAY uses, an EMIT, and, in RT-RF, a MULK rotation. -/
def libraryShape (r : Nat) (ws : List Nat) : Bool :=
  let ops := ws.map (fun w => bits w 63 58)
  ws.length == libraryLength r && ws.all (fun w => w % 2 ^ 24 == 0)
  && (ops.dropLast).all (fun o => decide (1 ≤ o) && decide (o ≤ 15)) && ops.getLast? == some 0x3F
  && decide ((ops.filter (· == 8)).length ≤ 1) && ops.contains 0x0F && (r != 2 || ops.contains 0x05)
  && usedBy 0x02 57 56 ws == (libraryUse r).1 && usedBy 0x07 25 24 ws == (libraryUse r).2

/-- A routine of the right shape, for the case that the opaque words have not: each stored variable loaded and stored, each table
applied to V, an EMIT, the rest CLR words, END. DESIGN CHOICE, log entry 2. -/
def libraryFill (r : Nat) : List Nat :=
  let vs := ones 4 (libraryUse r).1
  let body := vs.map (fun v => 1 * 2 ^ 58 + v * 2 ^ 56) ++ (ones 4 (libraryUse r).2).map (fun k => 7 * 2 ^ 58 + k * 2 ^ 24)
    ++ (if r = 2 then [5 * 2 ^ 58] else []) ++ [15 * 2 ^ 58] ++ vs.map (fun v => 2 * 2 ^ 58 + v * 2 ^ 56)
  body ++ List.replicate (libraryLength r - 1 - body.length) (12 * 2 ^ 58 + 2 * 2 ^ 56) ++ [0x3F * 2 ^ 58]

/-- The words of library routine `r`: RT-LIF as R86 prints it; of the others, whose listings are not printed, opaque words held to the
shape that R85 gives. DESIGN CHOICE, log entry 2. -/
def libraryWords (r : Nat) : List Nat :=
  if r = 0 then rtLif
  else
    let ws := (List.range (libraryLength r)).map (fun k => (Config.libraryWord r k).toNat)
    if r ≤ 4 then (if libraryShape r ws then ws else libraryFill r) else ws

/-- Word `w` of a running-order table as bring-up leaves it (R64). DESIGN CHOICE, log entry 2. -/
def libraryRo (w : Nat) : Nat := (libraryWords (w / 64)).getD (w % 64) 0

/-- What a byte of memory that nothing has written reads as: the library routines in the running-order tables (R64), all
ones in the erased flash, zero elsewhere. DESIGN CHOICE, log entry 2. -/
def memDflt (a : Nat) : Byte :=
  if flashBase ≤ a then 0xFF
  else if 0x1000000000 ≤ a ∧ a < 0x1000000000 + 32 * 0x2000000 then
    let o := (a - 0x1000000000) % 0x2000000
    let eo := o % 0x300000
    if o < 0x1B00000 ∧ 0x2F8000 ≤ eo ∧ (eo - 0x2F8000) / 8 < 512 then
      BitVec.ofNat 8 (libraryRo ((eo - 0x2F8000) / 8) / 2 ^ (8 * (eo % 8)))
    else 0
  else 0

/-- One byte of memory: its listed value, else what nothing has written reads as. DESIGN CHOICE, log entry 2. -/
def Memory.get (m : List Host.Cell) (a : Nat) : Byte :=
  match m with
  | [] => memDflt a
  | (j, v) :: r => if j = a then v else Memory.get r a

/-- One byte written; a byte equal to what an unlisted address reads as is not listed. -/
def Memory.set (m : List Host.Cell) (a : Nat) (b : Byte) : List Host.Cell :=
  m.filter (fun c => decide (c.1 < a))
    ++ (if b = memDflt a then m.filter (fun c => decide (a < c.1)) else (a, b) :: m.filter (fun c => decide (a < c.1)))

/-- The canonical form of memory: addresses strictly rising, no entry equal to what an unlisted address reads as. -/
def Memory.wf : List Host.Cell → Bool
  | [] => true
  | [(a, b)] => decide (b ≠ memDflt a)
  | (a, b) :: (a', b') :: r => decide (b ≠ memDflt a) && decide (a < a') && Memory.wf ((a', b') :: r)

/-- One byte of the device physical map; what maps to nothing reads zero (R545). -/
def Dev.ldB (d : Dev) (a : Nat) : Byte := if memMaps a then Memory.get d.mem a else 0

/-- One byte stored; what maps to nothing ignores writes (R545). -/
def Dev.stB (d : Dev) (a : Nat) (b : Byte) : Dev := { d with mem := if memMaps a then Memory.set d.mem a b else d.mem }

/-- `n` bytes from an address. -/
def Dev.ldBytes (d : Dev) (a n : Nat) : List Byte := (List.range n).map (fun k => d.ldB (a + k))

/-- A little-endian number of `n` bytes. -/
def Dev.ld (d : Dev) (a n : Nat) : Nat := leNat (d.ldBytes a n)

/-- Bytes stored from an address upward. -/
def Dev.stBytes (d : Dev) (a : Nat) : List Byte → Dev
  | [] => d
  | b :: r => (d.stB a b).stBytes (a + 1) r

/-- A little-endian number of `n` bytes stored. -/
def Dev.st (d : Dev) (a n v : Nat) : Dev := d.stBytes a (leBytes n v)

/-- Bytes set to one value. -/
def Dev.fill (d : Dev) (a n : Nat) (b : Byte) : Dev := (List.range n).foldl (fun acc k => acc.stB (a + k) b) d

/-- A range of memory returns to a value: the listed cells of the range go, and where the value is not what an unlisted
cell reads as the cells are written. Used for clears of whole arrays. -/
def Dev.clear (d : Dev) (a n : Nat) : Dev :=
  { d with mem := d.mem.filter (fun c => !(decide (a ≤ c.1) && decide (c.1 < a + n))) }

/-- Bytes the device writes into host memory by DMA. -/
def Dev.hostW (d : Dev) (a : Nat) (bs : List Byte) : Dev :=
  { d with host := bs.zipIdx.foldl (fun h p => Tab.set (0 : Byte) h (a + p.2) p.1) d.host }

/-- A signal to the outside. -/
def Dev.emitOut (d : Dev) (o : Out) : Dev := { d with outs := d.outs ++ [o] }

/-- Whether a function may send an MSI-X vector: its MSI-X is enabled, the vector is not masked, and the link is up (R346). -/
def Dev.msixOn (d : Dev) (x : Nat × Nat) : Bool :=
  d.pcie.link && !d.pcie.perst && d.pcie.msix.testBit x.1 && !(d.pcie.masked.contains x)

/-- An MSI-X message of function `fn`: 0 the PF, 1 + c the VF of context c; a vector that is disabled or masked is held pending
(R346). -/
def Dev.msix (d : Dev) (fn vec : Nat) : Dev :=
  if d.msixOn (fn, vec) then d.emitOut (.msix fn vec)
  else if d.pcie.waiting.contains (fn, vec) then d
  else { d with pcie := { d.pcie with waiting := d.pcie.waiting ++ [(fn, vec)] } }

/-- Vectors held pending that may be sent now go out (R346). -/
def Dev.msixFlush (d : Dev) : Dev :=
  (d.pcie.waiting.filter d.msixOn).foldl (fun d x => d.emitOut (.msix x.1 x.2))
    { d with pcie := { d.pcie with waiting := d.pcie.waiting.filter (fun x => !(d.msixOn x)) } }

/-! ## Free values -/

/-- A value that the manual leaves open, and the counter after it. DESIGN CHOICE, log entry 4. -/
def Dev.takeFree (d : Dev) (w : Nat) : BitVec w × Dev := (Config.freeBits w d.free, { d with free := d.free + 1 })

/-! ## The Barker recorder -/

/-- SOURCE kinds of R523. -/
def srcDevice : Nat := 0
/-- SOURCE of engine `e` of tile `t`. -/
def srcEng (t e : Nat) : Nat := 0x1000 + t * 9 + e
/-- SOURCE of a tile. -/
def srcTile (t : Nat) : Nat := 0x2000 + t
/-- SOURCE of a port. -/
def srcPort (p : Nat) : Nat := 0x3000 + p
/-- SOURCE of the rim. -/
def srcRim : Nat := 0x4000
/-- SOURCE of a sensor input. -/
def srcSns (i : Nat) : Nat := 0x5000 + i
/-- SOURCE of a host function. -/
def srcHost (f : Nat) : Nat := 0x6000 + f
/-- SOURCE of the Ringmaster. -/
def srcRm : Nat := 0x7000
/-- SOURCE of an LPDDR5X controller. -/
def srcMem (c : Nat) : Nat := 0x8000 + c

/-- The controller of an LPDDR5X address, interleaved in granules of 512 bytes (R538). -/
def lpddrController (a : Nat) : Nat := bits a 12 11
/-- The channel of an LPDDR5X address within its controller (R538). -/
def lpddrChannel (a : Nat) : Nat := bits a 10 9

/-- LIMIT of a code: the lowest-indexed valid BRK_RATE_OVR entry that names it, else BRK_RATE_DEF (R526). -/
def Dev.brkLimit (d : Dev) (code : Nat) : Nat :=
  match (List.range 32).find? (fun i =>
    d.flag BRK_RATE_OVR i BRK_RATE_OVR_VALID && d.fld BRK_RATE_OVR i BRK_RATE_OVR_CODE == code) with
  | some i => d.fld BRK_RATE_OVR i BRK_RATE_OVR_LIMIT
  | none => d.fld BRK_RATE_DEF 0 BRK_RATE_DEF_LIMIT

/-- Records of severity 3 and 4 set ERR and signal PF vector 0 with IE (R524). -/
def Dev.brkSignal (d : Dev) (sev : Nat) : Dev :=
  if 3 ≤ sev then
    let d := d.setF BRK_STATUS 0 BRK_STATUS_ERR 1
    if d.flag BRK_CTRL 0 BRK_CTRL_IE then d.msix 0 0 else d
  else d

/-- A new record opens; one that finds the staging ring full adds to REPEAT of the newest staged record (R527). -/
def Dev.brkOpen (d : Dev) (r : BrkRec) : Dev :=
  if 256 ≤ d.barker.staged.length then
    let staged := match d.barker.staged.reverse with
      | [] => []
      | x :: xs => ({ x with rep := min 65535 (x.rep + 1) } :: xs).reverse
    let d := { d with barker := { d.barker with staged := staged } }
    d.bump BRK_CNT 2 1
  else
    let d := { d with barker := { d.barker with staged := d.barker.staged ++ [r] } }
    (d.bump BRK_CNT 3 1).brkSignal r.sev

/-- One occurrence of a recorder code makes, repeats or suppresses a record by the flood mode (R526, R528). -/
def Dev.occur (d : Dev) (code sev ctx source : Nat) (detail : BitVec 96) : Dev :=
  let sec := d.fld BRK_OPTIME 0 BRK_OPTIME_SECONDS
  let rec1 : BrkRec := ⟨code, sev, ctx, source, 1, sec, d.fld BRK_PWRCYC 0 BRK_PWRCYC_COUNT, detail⟩
  if d.flag BRK_STATUS 0 BRK_STATUS_FULL then d.bump BRK_CNT 1 1
  else if d.fld BRK_FLOOD_MODE 0 BRK_FLOOD_MODE_MODE = 0 then
    let (last, made, supp) := Tab.get (0, 0, 0) d.barker.rate code
    let made := if last = sec then made else 0
    if made < d.brkLimit code then
      let rep := min 65535 (1 + supp)
      let d := { d with barker := { d.barker with rate := Tab.set (0, 0, 0) d.barker.rate code (sec, made + 1, 1 + supp - rep) } }
      d.brkOpen { rec1 with rep := rep }
    else
      let d := { d with barker := { d.barker with rate := Tab.set (0, 0, 0) d.barker.rate code (sec, made, supp + 1) } }
      d.bump BRK_CNT 0 1
  else
    match d.barker.staged.reverse with
    | x :: xs =>
      if x.code = code ∧ x.sev = sev ∧ x.ctx = ctx ∧ x.source = source ∧ x.rep < 65535 then
        { d with barker := { d.barker with staged := ({ x with rep := x.rep + 1 } :: xs).reverse } }
      else d.brkOpen rec1
    | [] => d.brkOpen rec1

/-! ## Drops -/

/-- Position of a drop point in R415 (R522). -/
def DropPt.pos : DropPt → Nat
  | .engEmitDup => 0 | .engSynRange => 1 | .engBadDesc => 2 | .engBounds => 3 | .engRowLost => 4 | .engSidxErr => 5
  | .engLate => 6 | .engEarly => 7 | .tumStale => 8 | .tumModMiss => 9
  | .midNullMask => 10 | .midHopZero => 11 | .midHdrErr => 12 | .midBufErr => 13 | .midBadKind => 14 | .midFtErr => 15
  | .seamStopped => 16 | .tileReset => 17 | .elkUncorr => 18 | .elkLinkDown => 19
  | .rimNullMask => 20 | .rimPortDown => 21 | .rimHops => 22 | .rimHdrErr => 23 | .rimReset => 24
  | .xptDup => 25 | .xptOrder => 26 | .xptWindow => 27 | .xptRetry => 28
  | .snsHdrEcc => 29 | .snsDtype => 30 | .snsPktLen => 31 | .snsPktCrc => 32 | .snsTrailer => 33 | .snsAliveRep => 34
  | .snsWordType => 35 | .snsRange => 36 | .snsHotPix => 37 | .snsTsBack => 38 | .snsStale => 39 | .snsRefr => 40
  | .snsCtxStop => 41 | .snsPolice => 42 | .snsOverflow => 43 | .snsAeroFull => 44 | .snsAeroHs => 45
  | .hstBadKind => 46 | .hstCtxStop => 47 | .hstOutFull => 48 | .hstNoBus => 49
  | .mqBadHdr => 50 | .mqNoReader => 51 | .mqFull => 52 | .mqFlush => 53 | .mqBounceLost => 54 | .rimBufErr => 55

/-- Recorder code of a drop point (R415). -/
def DropPt.code (p : DropPt) : Nat :=
  let n := p.pos
  if n = 0 then 0x3101 else if n < 6 then 0x3200 + n else if n < 8 then 0x3301 + (n - 6)
  else if n < 10 then 0x3501 + (n - 8) else if n < 18 then 0x3601 + (n - 10) else if n < 20 then 0x3701 + (n - 18)
  else if n < 29 then 0x3711 + (n - 20) else if n < 46 then 0x3801 + (n - 29) else if n < 50 then 0x3901 + (n - 46)
  else if n < 55 then 0x3A01 + (n - 50) else 0x3B01

/-- The counter of a drop point at a place (engine t × 9 + e, tile, port, input or agent), for a context and class
(R415). -/
def DropPt.counter (p : DropPt) (place ctx cls : Nat) : Reg × Nat :=
  let n := p.pos
  if n = 0 then (NE_DP_EMITDUP, place * 16 + ctx * 2 + cls)
  else if n < 6 then (NE_SDP, (place * 8 + (n - 1)) * 16 + ctx * 2 + cls)
  else if n < 8 then (NE_LATE, (place * 8 + (n - 5)) * 16 + ctx * 2 + cls)
  else if n < 10 then (TUM_DP, (place * 8 + (n - 8)) * 16 + ctx * 2 + cls)
  else if n < 18 then (MID_DP, (place * 8 + (n - 10)) * 32 + ctx * 4 + cls)
  else if n < 20 then (ELK_DP, (place * 4 + (n - 18)) * 32 + ctx * 4 + cls)
  else if n < 29 then (RIM_DP, (n - 20) * 32 + ctx * 4 + cls)
  else if n < 46 then (SNS_DP, (n - 29) * 32 + place)
  else if n < 50 then (HST_DP, (n - 46) * 16 + ctx * 2 + cls)
  else if n < 55 then (MQ_DP, (place * 8 + (n - 50)) * 8 + ctx)
  else (FLT_DP, ctx * 4 + cls)

/-- SOURCE of a drop point's records at a place (R523). -/
def DropPt.source (p : DropPt) (place ctx : Nat) : Nat :=
  let n := p.pos
  if n < 8 then 0x1000 + place else if n < 18 then srcTile place else if n < 20 then srcPort place
  else if n < 29 then srcRim else if n < 46 then srcSns place else if n < 50 then srcHost (1 + ctx)
  else if n < 55 then
    (if place = 0 then srcRm else if place ≤ 32 then srcTile (place - 1)
     else if place < 0x38 then srcHost (1 + (place - 0x30)) else srcHost 0)
  else srcRim

/-- DETAIL of a drop record: the class, the key, the units counted (R523, R572). -/
def dropDetail (cls key n : Nat) : BitVec 96 :=
  BitVec.ofNat 96 (cls % 256 + key % 2 ^ 32 * 2 ^ 32 + n % 2 ^ 32 * 2 ^ 64)

/-- One item dropped at a drop point: its counter rises by the units, and its recorder code occurs once (R20, R572). -/
def Dev.drop (d : Dev) (p : DropPt) (place ctx cls key n : Nat) : Dev :=
  let c := p.counter place ctx cls
  let loss := if 29 ≤ p.pos ∧ p.pos < 46 ∧ ctx < 8 then Tab.upd 0 d.snsLoss ((p.pos * 8 + ctx) * 4 + cls) (· + n) else d.snsLoss
  (({ d with snsLoss := loss } : Dev).bump c.1 c.2 n).occur p.code 2 ctx (p.source place ctx) (dropDetail cls key n)

/-! ## Running a meaning -/

/-- A meaning that changes the device alone: the queue of waiting commands and the fuse record stay (R460).
DESIGN CHOICE, log entry 1. -/
def run (f : Dev → Dev) (s : State) : Host.Outcome State Fault Refusal := .next { s with dev := f s.dev }

/-- A meaning that reads the fuse record. DESIGN CHOICE, log entry 1. -/
def runF (f : Fuses → Dev → Dev) (s : State) : Host.Outcome State Fault Refusal := .next { s with dev := f s.fuses s.dev }

end Sys2Proof.Machine
end

