-- ==== Sys2Proof/Machine/Fec.lean ====
section
/-! DEFINITION. The codewords of the Event-links (R275, R277, R278): the RS(544,514) code over 10-bit symbols that Clause 91 gives, a
codeword's header, payload and symbols, and its lanes. The field (x^10 + x^3 + 1), the generator (roots α^0 to α^29) and the order of
the symbols are those of IEEE 802.3 Clause 91. PRESUMED, log entry 35. -/

namespace Sys2Proof.Machine

/-! ## The field of 1,024 elements -/

/-- The carry-less product of the low `n` bits of `b` with `a`. -/
def clmul (a b : Nat) : Nat → Nat
  | 0 => 0
  | n + 1 => clmul a b n ^^^ (if b.testBit n then a <<< n else 0)

/-- A polynomial of degree below 10 + `n` modulo x^10 + x^3 + 1. -/
def gfReduce (x : Nat) : Nat → Nat
  | 0 => x
  | n + 1 => gfReduce (if x.testBit (10 + n) then x ^^^ (0x409 <<< n) else x) n

/-- The product of two field elements. -/
def gfMul (a b : Nat) : Nat := gfReduce (clmul a b 10) 9

/-- A power of a field element. -/
def gfPow (a : Nat) : Nat → Nat
  | 0 => 1
  | n + 1 => gfMul (gfPow a n) a

/-- The inverse of a field element other than zero: its power 2^10 − 2. -/
def gfInv (a : Nat) : Nat :=
  (List.range 9).foldl (fun (x : Nat × Nat) _ => (gfMul x.1 x.2, gfMul x.2 x.2)) (1, gfMul a a) |>.1

/-- The value of a polynomial, low coefficient first. -/
def gfEval (p : List Nat) (x : Nat) : Nat := p.foldr (fun c a => gfMul a x ^^^ c) 0

/-! ## The code -/

/-- The generator without its leading term, times α^b for b from 0 to 9, coefficient of x^i in bits [10i + 9 : 10i]. -/
def rsRows : List Nat :=
  [0x8fe282ece68a0011b235468f99448417ad07bd81eb9f7dcd69c5262305881fcb927880d0a0b,
   0x1dc595d9cc16402360638d1f22ad082f1a9f7b02d57eebbed2884cd60b103f9724f100a341f,
   0x3b8b2bb3982c8046c0c6187e455a105e352ed60da8fd575dad12d9ac12297f2e49e20044c3e,
   0x771647473959008d818c30bc1ab029bc2add8c1353fa3ebb5a25b348045bfe1c13e4098987c,
   0xee2c8e8a7bb2010b27186138b544527a553b3c26a7b4fd56bd4b26102cb6fe7827c812114f8,
   0xde599d34ff6642066e39c231fa88a4f4aa665c4c4d697a8d73960cb0596cfef0df9024229f0,
   0xbef32a4dfecc840cd87b8663753548eb545cb8989a92753ee62e5960b2d8ffe13f0448453e0,
   0x7fe6d4bffc9b480994f60ec67a6a90d4e8a955303764ea79c55cb2c161b9fdc2fe2c908a3c9,
   0xff8d397bf134d0030dec1d8ce4f529abd1d28e606e8954d78ab92512c372f9c5ec7d201679b,
   0xfd5a62d7eb69a0061bd83b19c9ea5255e3a518c9dd12a9ab1d704ab582edf1cbc8de402cb3f]

/-- One symbol enters the encoder: the remainder of what has entered, times x^30, by the generator. -/
def rsStep (r sym : Nat) : Nat :=
  let f := (r >>> 290) ^^^ sym
  (rsRows.zipIdx).foldl (fun a x => if f.testBit x.2 then a ^^^ x.1 else a) ((r % 2 ^ 290) <<< 10)

/-- The 30 parity symbols of a message, in the order in which they are sent (R277). -/
def rsParity (msg : List Nat) : List Nat :=
  let r := msg.foldl rsStep 0
  (List.range 30).map (fun k => r / 2 ^ (10 * (29 - k)) % 1024)

/-- The encoder: a message of 514 symbols with its parity (R277). PRESUMED, log entry 35. -/
def rsEncode (msg : List Nat) : List Nat := msg ++ rsParity msg

/-- The locator of errors from the syndromes, low coefficient first (the algorithm of Berlekamp and Massey): the locator, the one
before the last change of length, its discrepancy, the distance from that change, and the length. -/
def rsLocator (syn : List Nat) : List Nat × Nat :=
  let add := fun (p q : List Nat) => (List.range (max p.length q.length)).map (fun i => p.getD i 0 ^^^ q.getD i 0)
  let (c, _, _, _, l) := (List.range syn.length).foldl (fun (s : List Nat × List Nat × Nat × Nat × Nat) n =>
    let (c, b, db, m, l) := s
    let d := (List.range (l + 1)).foldl (fun a i => a ^^^ gfMul (c.getD i 0) (syn.getD (n - i) 0)) 0
    if d = 0 then (c, b, db, m + 1, l)
    else
      let k := gfMul d (gfInv db)
      let c' := add c (List.replicate m 0 ++ b.map (gfMul k))
      if 2 * l ≤ n then (c', c, d, 1, n + 1 - l) else (c', b, db, m + 1, l)) ([1], [1], 1, 1, 0)
  (c, l)

/-- The errors of a received codeword, by position and value; none where it is further than 15 symbols from every codeword. -/
def rsErrors (word : List Nat) : Option (List (Nat × Nat)) :=
  let par := rsParity (word.take 514)
  let rem := (par.zip (word.drop 514)).map (fun x => x.1 ^^^ x.2)
  if rem.all (· == 0) then some []
  else
    let syn := (List.range 30).map (fun j => gfEval rem.reverse (gfPow 2 j))
    let (loc, n) := rsLocator syn
    let ev := (List.range 30).map (fun i => (List.range (i + 1)).foldl (fun a k => a ^^^ gfMul (loc.getD k 0) (syn.getD (i - k) 0)) 0)
    let errs := (List.range 544).filterMap (fun i =>
      let x := gfPow 2 (543 - i)
      let y := gfInv x
      if gfEval loc y = 0 then
        let slope := gfEval ((List.range loc.length).map (fun k => if k % 2 = 0 then loc.getD (k + 1) 0 else 0)) y
        some (i, gfMul x (gfMul (gfEval ev y) (gfInv slope)))
      else none)
    let fixed := errs.foldl (fun (w : List Nat) e => w.set e.1 (w.getD e.1 0 ^^^ e.2)) word
    if n ≤ 15 ∧ errs.length = n ∧ rsParity (fixed.take 514) = fixed.drop 514 then some errs else none

/-- The decoder, which always corrects: the message of a received codeword and the positions of the symbols it corrected (R275).
PRESUMED, log entry 35. -/
def rsDecode (word : List Nat) : Option (List Nat × List Nat) :=
  if word.length ≠ 544 ∨ word.any (fun x => decide (1024 ≤ x)) then none
  else (rsErrors word).map (fun errs =>
    ((errs.foldl (fun (w : List Nat) e => w.set e.1 (w.getD e.1 0 ^^^ e.2)) word).take 514, errs.map (·.1)))

/-! ## Codewords -/

/-- The symbols of a codeword message: the header in m0 to m19, then the payload, least significant bit first (R277, R278). -/
def messageOf (cwi : Nat) (payload : List Byte) : List Nat :=
  let m := 0x1A7B * 2 ^ 7 + cwi + leNat payload * 2 ^ 20
  (List.range 514).map (fun k => m / 2 ^ (10 * k) % 1024)

/-- SYNC, CWI and the payload of a message (R277, R278). -/
def messageParts (msg : List Nat) : Nat × Nat × List Byte :=
  let m := msg.foldr (fun x a => x + 1024 * a) 0
  (bits m 19 7, bits m 6 0, leBytes 640 (m / 2 ^ 20))

/-- The symbols that each lane carries: round robin over both, or all on the one in use (R277). -/
def toLanes (lanes : Nat) (syms : List Nat) : List Nat × List Nat :=
  match lanes with
  | 1 => (syms, [])
  | 2 => ([], syms)
  | _ => ((syms.zipIdx.filter (fun x => x.2 % 2 == 0)).map (·.1), (syms.zipIdx.filter (fun x => x.2 % 2 == 1)).map (·.1))

/-- The symbols of two lanes taken in turn. -/
def interleave : List Nat → List Nat → List Nat
  | x :: xs, y :: ys => x :: y :: interleave xs ys
  | xs, [] => xs
  | [], ys => ys

/-- The symbols of a codeword from its lanes (R277). -/
def fromLanes (lanes : Nat) (a b : List Nat) : List Nat := match lanes with | 1 => a | 2 => b | _ => interleave a b

/-- The lane that carries symbol `k`. -/
def laneOf (lanes k : Nat) : Nat := match lanes with | 1 => 0 | 2 => 1 | _ => k % 2

end Sys2Proof.Machine
end

