-- ==== Sys2Proof/Machine/Operands.lean ====
section
/-! DEFINITION. Operand forms: how a micro-op word is laid out (R65, R66), what its sources read (R67), which lanes PRED
enables (R68), and how an engine's descriptors, memories and settings are addressed. -/

namespace Sys2Proof.Machine

/-! ## Micro-op words -/

/-- Assemble OP, DST, SRCA, SRCB, PRED, K (R65). -/
def microWord (op dst a b pred k : Nat) : Nat :=
  op * 2 ^ 58 + dst * 2 ^ 56 + a * 2 ^ 53 + b * 2 ^ 50 + pred * 2 ^ 48 + k * 2 ^ 24

/-- The word of a micro-op; fields it does not use are zero. -/
def MicroOp.encode : MicroOp → Nat
  | .ld dst pred => microWord 0x01 dst 0 0 pred 0
  | .st dst pred => microWord 0x02 dst 0 0 pred 0
  | .add dst a b k pred => microWord 0x03 dst a b pred k.toNat
  | .sub dst a b k pred => microWord 0x04 dst a b pred k.toNat
  | .mulk dst a k pred => microWord 0x05 dst a 0 pred k.toNat
  | .shr dst a k pred => microWord 0x06 dst a 0 pred k.toNat
  | .decay dst a k pred => microWord 0x07 dst a 0 pred k.toNat
  | .slot pred => microWord 0x08 0 0 0 pred 0
  | .cmpge a b k pred => microWord 0x09 0 a b pred k.toNat
  | .cmplt a b k pred => microWord 0x0A 0 a b pred k.toNat
  | .sel dst a b k pred => microWord 0x0B dst a b pred k.toNat
  | .clr dst k pred => microWord 0x0C dst 0 0 pred k.toNat
  | .noise dst a k pred => microWord 0x0D dst a 0 pred k.toNat
  | .refr k pred => microWord 0x0E 0 0 0 pred k.toNat
  | .emit a k pred => microWord 0x0F 0 a 0 pred k.toNat
  | .fin pred => microWord 0x3F 0 0 0 pred 0

/-- The micro-op of a word; none for an illegal OP (R66). -/
def microDecode (w : Nat) : Option MicroOp :=
  let dst := Fin.ofNat 4 (bits w 57 56)
  let a := Fin.ofNat 8 (bits w 55 53)
  let b := Fin.ofNat 8 (bits w 52 50)
  let pred := Fin.ofNat 4 (bits w 49 48)
  let k : S24 := BitVec.ofNat 24 (bits w 47 24)
  match bits w 63 58 with
  | 0x01 => some (.ld dst pred)
  | 0x02 => some (.st dst pred)
  | 0x03 => some (.add dst a b k pred)
  | 0x04 => some (.sub dst a b k pred)
  | 0x05 => some (.mulk dst a k pred)
  | 0x06 => some (.shr dst a k pred)
  | 0x07 => some (.decay dst a k pred)
  | 0x08 => some (.slot pred)
  | 0x09 => some (.cmpge a b k pred)
  | 0x0A => some (.cmplt a b k pred)
  | 0x0B => some (.sel dst a b k pred)
  | 0x0C => some (.clr dst k pred)
  | 0x0D => some (.noise dst a k pred)
  | 0x0E => some (.refr k pred)
  | 0x0F => some (.emit a k pred)
  | 0x3F => some (.fin pred)
  | _ => none

/-! ## Lanes -/

/-- Value of a source (R67). -/
def Lane.src (l : Lane) (k : S24) (s : Fin 8) : Int :=
  match s with
  | 0 => l.v.toInt
  | 1 => l.a.toInt
  | 2 => l.i.toInt
  | 3 => l.x.toInt
  | 4 => k.toInt
  | 5 => l.t.toInt
  | 6 => (l.dt.toNat : Int)
  | 7 => 0

/-- Clamp to the range of a signed 24-bit value (R71). -/
def sat24 (x : Int) : S24 := BitVec.ofInt 24 (clampI (-8388608) 8388607 x)

/-- A lane register takes a value. -/
def Lane.put (l : Lane) (dst : Fin 4) (v : S24) : Lane :=
  match dst with
  | 0 => { l with v := v }
  | 1 => { l with a := v }
  | 2 => { l with i := v }
  | 3 => { l with x := v }

/-- A lane register. -/
def Lane.reg (l : Lane) (dst : Fin 4) : S24 :=
  match dst with
  | 0 => l.v | 1 => l.a | 2 => l.i | 3 => l.x

/-- A record field as ST left it in this line (R75). -/
def Lane.stored (l : Lane) (dst : Fin 4) : Option S24 :=
  match dst with
  | 0 => l.stV | 1 => l.stA | 2 => l.stI | 3 => l.stX

/-- ST into a record field. DEDUCED, log entry 6. -/
def Lane.putSt (l : Lane) (dst : Fin 4) (v : S24) : Lane :=
  match dst with
  | 0 => { l with stV := some v }
  | 1 => { l with stA := some v }
  | 2 => { l with stI := some v }
  | 3 => { l with stX := some v }

/-- Whether PRED enables a lane of the mask (R68). -/
def Lane.enabled (l : Lane) (pred : Fin 4) : Bool :=
  match pred with
  | 0 => true
  | 1 => l.p
  | 2 => !l.p
  | 3 => !l.q

/-! ## Engines -/

/-- Index of engine `e` of tile `t`. -/
def engIx (t e : Nat) : Nat := t * 9 + e

/-- Rotate a 32-bit word left. -/
def rotl32 (x : W32) (n : Nat) : W32 := x.rotateLeft (n % 32)

/-- The 32 noise LFSRs after a seed (R72). -/
def noiseSeeds (seed : W32) : List W32 := (List.range 32).map (fun l => rotl32 seed l ||| 1)

/-- The 32 rounding LFSRs after a seed (R111). -/
def srSeeds (seed : W32) : List W16 := (List.range 32).map (fun l => (rotl32 seed l).setWidth 16 ||| 1)

/-- One step of a Galois LFSR that shifts right, with its tap mask. -/
def lfsrStep {w : Nat} (mask s : BitVec w) : BitVec w := if s.getLsbD 0 then (s >>> 1) ^^^ mask else s >>> 1

/-- An engine after reset: its lane generators seeded from the reset seeds. DEDUCED, log entry 25. -/
def Engine.init : Engine := { noise := noiseSeeds 1, sr := srSeeds 1 }

/-- Engine `e` of tile `t`. -/
def Dev.eng (d : Dev) (t e : Nat) : Engine := Tab.get Engine.init d.engs (engIx t e)

/-- Engine `e` of tile `t` becomes `g`. -/
def Dev.setEng (d : Dev) (t e : Nat) (g : Engine) : Dev := { d with engs := Tab.set Engine.init d.engs (engIx t e) g }

/-- Unit state: STATE and REASON; a unit not listed is In service (R417, R418). DEDUCED, log entry 21. -/
def Dev.unit (d : Dev) (type index : Nat) : Nat × Nat := Tab.get (0, 0) d.units (type * 2 ^ 48 + index)

/-- A unit takes a state and reason. -/
def Dev.setUnit (d : Dev) (type index state reason : Nat) : Dev :=
  { d with units := Tab.set (0, 0) d.units (type * 2 ^ 48 + index) (state, reason) }

/-- The committed descriptor of population `n`. -/
def Dev.popCommitted (d : Dev) (t e n : Nat) : Desc :=
  ⟨d.rd NE_POP_LO (engIx t e * 64 + n), d.rd NE_POP_HI (engIx t e * 64 + n)⟩

/-- The descriptor in effect: the committed one, or the one it replaces until the next phase boundary (R57). -/
def Dev.pop (d : Dev) (t e n : Nat) : Desc := ((d.eng t e).popEff.lookup n).getD (d.popCommitted t e n)

/-- A field of a descriptor's LO. -/
def Desc.l (p : Desc) (f : Fld) : Nat := f.get p.lo
/-- VALID. -/
def Desc.valid (p : Desc) : Bool := p.l NE_POP_LO_VALID != 0
/-- CONTEXT. -/
def Desc.ctx (p : Desc) : Nat := p.l NE_POP_LO_CONTEXT
/-- EXPRESS. -/
def Desc.express (p : Desc) : Bool := p.l NE_POP_LO_EXPRESS != 0
/-- Ring depth D (R135). -/
def Desc.depth (p : Desc) : Nat := 2 ^ (p.l NE_POP_LO_DEPTH_CODE + 1)
/-- BASE. -/
def Desc.base (p : Desc) : Nat := NE_POP_HI_BASE.get p.hi
/-- SIZE. -/
def Desc.size (p : Desc) : Nat := NE_POP_HI_SIZE.get p.hi
/-- KEY_BASE. -/
def Desc.keyBase (p : Desc) : Nat := NE_POP_HI_KEY_BASE.get p.hi
/-- The decay table that K[1:0] selects. -/
def Desc.dtab (p : Desc) (k : Nat) : Nat :=
  match k % 4 with
  | 0 => p.l NE_POP_LO_DTAB0 | 1 => p.l NE_POP_LO_DTAB1 | 2 => p.l NE_POP_LO_DTAB2 | _ => p.l NE_POP_LO_DTAB3

/-- Valid populations of a context in an engine, express ones first, then by index (R58). -/
def Dev.popsOf (d : Dev) (t e c : Nat) : List Nat :=
  let all := (List.range 64).filter (fun n => (d.pop t e n).valid && (d.pop t e n).ctx == c)
  all.filter (fun n => (d.pop t e n).express) ++ all.filter (fun n => !(d.pop t e n).express)

/-- Whether an engine holds a population of a context. -/
def Dev.holds (d : Dev) (t e c : Nat) : Bool :=
  (List.range 64).any (fun n => (d.pop t e n).valid && (d.pop t e n).ctx == c)

/-- Word `w` of an engine's running-order table (R63). -/
def Dev.roWord (d : Dev) (t e w : Nat) : Nat := d.ld (engBase t e + 0x2F8000 + w * 8) 8

/-- Address of a neuron's record (R51). -/
def recAddr (t e i : Nat) : Nat := engBase t e + 0x2A0000 + i * 16

/-- Byte offset of a variable in the record: V, A, I, X (R51). -/
def varOff (v : Fin 4) : Nat := 3 * v.val

/-- Address of the slot of neuron `i` for tick `m` (R136, R137). -/
def slotAddr (t e : Nat) (p : Desc) (i m : Nat) : Nat :=
  let row := (p.l NE_POP_LO_SLOT_BASE / 32 + (i - p.base) / 32 * p.depth + m % p.depth) % 8192
  engBase t e + 0x200000 + (row * 32 + i % 32) * 2

/-- A touch bit is set: plane `s`, neuron `i` (R138). -/
def Dev.touch (d : Dev) (t e s i : Nat) : Dev :=
  let a := engBase t e + 0x2E0000 + (s * 8192 + i) / 8
  d.stB a (d.ldB a ||| BitVec.ofNat 8 (2 ^ (i % 8)))

/-- Bits `i` to `i + 31` of a touch plane, `i` a multiple of 32. -/
def Dev.touchRow (d : Dev) (t e s i : Nat) : Nat := d.ld (engBase t e + 0x2E0000 + (s * 8192 + i) / 8) 4

/-- The same bits take a value. -/
def Dev.setTouchRow (d : Dev) (t e s i v : Nat) : Dev := d.st (engBase t e + 0x2E0000 + (s * 8192 + i) / 8) 4 v

/-- Address of a trace-memory byte (R169). -/
def traceAddr (t e b : Nat) : Nat := engBase t e + 0x2C0000 + b

/-! ## Event words -/

/-- Assemble an event word (R240). -/
def evWord (kind tick key data : Nat) : W64 :=
  BitVec.ofNat 64 (kind % 16 * 2 ^ 60 + tick % 4096 * 2 ^ 48 + key % 2 ^ 32 * 2 ^ 16 + data % 2 ^ 16)
/-- KIND. -/
def evKind (w : W64) : Nat := bits w.toNat 63 60
/-- TICK, bits [11:0] of the stamp. -/
def evTick (w : W64) : Nat := bits w.toNat 59 48
/-- KEY. -/
def evKey (w : W64) : Nat := bits w.toNat 47 16
/-- DATA. -/
def evData (w : W64) : Nat := bits w.toNat 15 0

/-- The full stamp of a word: the value congruent to TICK modulo 4,096 in T − 2,047 to T + 2,048, modulo 2^48 (R242, R383). -/
def fullTick (T tick : Nat) : Nat :=
  let lo : Int := (T : Int) - 2047
  ((lo + ((tick : Int) - lo) % 4096) % 281474976710656).toNat

/-- The last tick started of a context. -/
def Dev.tickOf (d : Dev) (c : Nat) : Nat := d.fld CLP_TICK c CLP_TICK_TICK

/-! ## Calliope, Tumbler and context settings -/

/-- The generator of a context. -/
def Dev.gen (d : Dev) (c : Nat) : Gen := Tab.get {} d.gens c
/-- The generator of a context becomes `g`. -/
def Dev.setGen (d : Dev) (c : Nat) (g : Gen) : Dev := { d with gens := Tab.set {} d.gens c g }

/-- Tumbler's setting of a context in a tile. -/
def Dev.tc (d : Dev) (t c : Nat) : TumCtx := Tab.get {} d.tumCtx (t * 8 + c)
/-- Tumbler's setting becomes `x`. -/
def Dev.setTc (d : Dev) (t c : Nat) (x : TumCtx) : Dev := { d with tumCtx := Tab.set {} d.tumCtx (t * 8 + c) x }

/-- The epoch of a tick under a setting: none with learning off or before its base (R172, R174). -/
def TumCtx.epoch (x : TumCtx) (n : Nat) : Option Nat :=
  if x.len = 0 ∨ n < x.base then none else some ((n - x.base) / x.len)

/-- Confidential mode of a context (R438). -/
def Dev.confidential (d : Dev) (c : Nat) : Bool := d.flag SEC_CTX_STATUS c SEC_CTX_STATUS_CONFIDENTIAL

/-- The half of a tile: 0 West, 1 East (R23). -/
def halfOf (t : Nat) : Nat := if t % 8 < 4 then 0 else 1

/-- The tiles of gateways G0 to G7 (R26). -/
def gwTiles : List Nat := [0, 3, 4, 7, 24, 27, 28, 31]

/-! ## In-flight counters (R143) -/

/-- Key of an in-flight counter; place 32 is the rim. -/
def flightKey (place c par ver : Nat) : Nat := ((place * 8 + c) * 2 + par) * 2 + ver

/-- An in-flight counter changes by `n`. -/
def Dev.flight (d : Dev) (place c par ver : Nat) (n : Int) : Dev :=
  { d with inflight := Tab.upd 0 d.inflight (flightKey place c par ver) (· + n) }

/-- A new copy presented to `left` engines of a tile; its number is `nextCopy`. -/
def Dev.openCopy (d : Dev) (c par ver left : Nat) : Dev :=
  { d with copies := Tab.set ⟨0, 0, 0, 0⟩ d.copies d.nextCopy ⟨c, par, ver, left⟩, nextCopy := d.nextCopy + 1 }

/-- One engine of tile `t` has handled a copy; the last of them completes the tile's share (R143). -/
def Dev.copyDone (d : Dev) (t copy : Nat) : Dev :=
  let r := Tab.get (⟨0, 0, 0, 0⟩ : CopyRec) d.copies copy
  if r.left = 0 then d
  else if r.left = 1 then
    ({ d with copies := Tab.set ⟨0, 0, 0, 0⟩ d.copies copy ⟨0, 0, 0, 0⟩ }).flight t r.ctx r.par r.ver (-1)
  else { d with copies := Tab.set ⟨0, 0, 0, 0⟩ d.copies copy { r with left := r.left - 1 } }

end Sys2Proof.Machine
end

