-- ==== Sys2Proof/Machine/Flags.lean ====
section
/-! DEFINITION. The flag computations of the neuron pipeline: FLAGS (R52), the predicates P and Q (R68, R69, R79), the
refractory count, and what the arithmetic micro-ops compute (R71, R72, R77). -/

namespace Sys2Proof.Machine

/-- ALWAYS_ACTIVE of a FLAGS byte. -/
def flagAA (f : Byte) : Bool := f.getLsbD 0
/-- IN_REFR of a FLAGS byte. -/
def flagInRefr (f : Byte) : Bool := f.getLsbD 1

/-- FLAGS as END writes it: RESET_MARK and ALWAYS_ACTIVE kept, FIRED and IN_REFR from the update (R52, R83). -/
def flagsAtEnd (f : Byte) (fired q : Bool) : Byte :=
  (f &&& 0x21) ||| (if fired then 4 else 0) ||| (if q then 2 else 0)

/-- FLAGS of a record reset after an uncorrectable error (R54). -/
def flagsReset (aa : Bool) : Byte := if aa then 0x21 else 0x20

/-- SHR: an arithmetic right shift by K[4:0]; 24 or more leave 0 or −1 (R71). -/
def shr24 (a : Int) (k : Nat) : Int := a / ((2 ^ (k % 32) : Nat) : Int)

/-- MULK: the product with K ÷ 2^16, rounded and saturated (R71). -/
def mulk (a k : Int) : S24 := sat24 (rha (a * k) 65536)

/-- A decayed value: rest plus the rounded part of a − rest that a factor num ÷ den leaves (R77). -/
def decayBy (a rest : Int) (num : Int) (den : Nat) : S24 := sat24 (rest + rha ((a - rest) * num) den)

/-- DECAY of a value over d ticks: E0 is entry 0, Ed entry d for d below 64, Er entry d mod 64 (R77). The long path's
factor is the exact power with a relative deviation of at most 2^-12 that the manual does not state. DESIGN CHOICE, log entry 4. -/
def decayVal (a rest : Int) (E : Nat → Nat) (d : Nat) (exact : Bool) : S24 :=
  if d = 0 then sat24 a
  else if d ≤ 63 then decayBy a rest (E d) 65536
  else if !exact then sat24 rest
  else
    let q := d / 64
    let r := d % 64
    let er := if r = 0 then 65536 else E r
    let num := (E 0) ^ q * er
    let den := 65536 ^ q * 65536
    if E 0 = 0 ∨ num * 65536 < den then sat24 rest
    else
      let eps := clampI (-1048576) 1048576 (Config.decayDeviation (E 0) er q)
      decayBy a rest ((num : Int) * (4294967296 + eps)) (den * 4294967296)

/-- SLOT: the slot value scaled by SLOT_SHIFT (R71). -/
def slotVal (slot : Int) (shift : Nat) : S24 := sat24 (slot * ((2 ^ shift : Nat) : Int))

/-- NOISE: a plus the shifted low 24 bits of the LFSR (R71, R72). -/
def noiseVal (a : Int) (s : W32) (k : Nat) : S24 := sat24 (a + shr24 (sgn 24 s.toNat) k)

/-- Comparison flag of CMPGE and CMPLT in a lane of the mask: written 0 where PRED does not enable it (R69). -/
def cmpFlag (enabled cond : Bool) : Bool := enabled && cond

/-- REFR set form: count and Q (R79). -/
def refrSet (k : Nat) : Byte × Bool := (BitVec.ofNat 8 k, decide (k % 256 > 0))

/-- REFR test form: count and Q (R79). -/
def refrTest (r : Byte) (dt : W16) : Byte × Bool :=
  let c := r.toNat - dt.toNat
  (BitVec.ofNat 8 c, decide (c > 0))

/-- A graded payload (R81): GRADED with or without SIGNED, the source value, K. -/
def payloadOf (signed : Bool) (a : Int) (k : Nat) : Nat :=
  if signed then min 255 (a.natAbs / 2 ^ (k % 32)) else (clampI 0 255 (shr24 a k)).toNat

end Sys2Proof.Machine
end

