-- ==== Sys2Proof/Machine/Units.lean ====
section
/-! DEFINITION. Units in and out of service (R413, R417 to R420, R431): the one operation that moves a unit, automatic retirement, and
what errors found in a memory row or an LPDDR5X page lead to. -/

namespace Sys2Proof.Machine

/-- DETAIL of a unit state change: TYPE, STATE, REASON and index. -/
def unitDetail (type index state reason : Nat) : BitVec 96 :=
  BitVec.ofNat 96 (type + state * 2 ^ 8 + reason * 2 ^ 16 + index % 2 ^ 48 * 2 ^ 32)

/-- A unit moves to a STATE with a REASON; each change counts and is recorded with 0x3B30 (R418). DEDUCED, log entry 21. -/
def Dev.moveUnit (d : Dev) (type index state reason : Nat) : Dev :=
  if (d.unit type index).1 = state then d.setUnit type index state reason
  else ((d.setUnit type index state reason).bump FLT_CNT 6 1).occur 0x3B30 1 0xFF srcRm (unitDetail type index state reason)

/-- Automatic retirement of a unit for a reason: with AUTO_RETIRE it leaves service, without it the case is only recorded;
a lane is retired in either case (R420). An SRAM row or LPDDR5X page whose contents move at once goes Out; an engine or tile
starts Draining. DEDUCED, log entry 21. -/
def Dev.autoRetire (d : Dev) (type index reason : Nat) : Dev :=
  if (d.unit type index).1 ≠ 0 then d
  else if type = 5 ∨ d.flag FLT_CTRL 0 FLT_CTRL_AUTO_RETIRE then
    let d := d.moveUnit type index 1 reason
    if type = 3 ∨ type = 5 then d.moveUnit type index 2 reason else d
  else d.occur 0x3B30 1 0xFF srcRm (unitDetail type index (d.unit type index).1 reason)

/-- The unit that an address of a memory lies in: an LPDDR5X page or an SRAM row (R417). -/
def memUnit (a : Nat) : Nat × Nat := if a < usableBytes then (4, a / 4096 * 4096) else (3, a / 1024 * 1024)

/-- The Roustabout that covers an address on the die: 0 to 31 the tiles', 32 the rim's (R431). -/
def roustaboutOf (a : Nat) : Nat := if a < rmSram then (a - 0x1000000000) / 0x2000000 else 32

/-- A region on the die is to be tested out of turn (R413, R431). -/
def Dev.testSoon (d : Dev) (a : Nat) : Dev :=
  let r := a / 4096 * 4096
  if a < usableBytes ∨ d.testDue.contains r then d else { d with testDue := d.testDue ++ [r] }

/-- An uncorrectable error is found at an address: its row or page is retired, and a region on the die is tested out of turn (R413,
R420). -/
def Dev.damaged (d : Dev) (a : Nat) : Dev :=
  if memMaps a && decide (a < flashBase) then (d.autoRetire (memUnit a).1 (memUnit a).2 1).testSoon a else d

/-- A corrected error at an address: a row or page with FLT_CTRL.CE_LIMIT of them in 24 hours is retired, a region with
RAB_CTRL.CE_LIMIT of them in one hour is tested out of turn (R420, R431). Hours are those of the operating-time count. -/
def Dev.mended (d : Dev) (a : Nat) : Dev :=
  let now := d.fld BRK_OPTIME 0 BRK_OPTIME_SECONDS
  let d := { d with ceLog := d.ceLog.filter (fun (x : Nat × Nat) => decide (now < x.2 + 86400)) ++ [(a, now)] }
  let u := memUnit a
  let rows := (d.ceLog.filter (fun (x : Nat × Nat) => memUnit x.1 == u)).length
  let d := if d.fld FLT_CTRL 0 FLT_CTRL_CE_LIMIT ≠ 0 ∧ d.fld FLT_CTRL 0 FLT_CTRL_CE_LIMIT ≤ rows then d.autoRetire u.1 u.2 1 else d
  let limit : Nat := d.fld RAB_CTRL (roustaboutOf a) RAB_CTRL_CE_LIMIT
  let region : Nat := (d.ceLog.filter (fun (x : Nat × Nat) => decide (x.1 / 4096 = a / 4096) && decide (now < x.2 + 3600))).length
  if limit ≠ 0 ∧ limit ≤ region then d.testSoon a else d

end Sys2Proof.Machine
end

