-- ==== Sys2Proof/Machine/Neuron.lean ====
section
/-! DEFINITION. The neuron pipeline: the sequencer's update phases and lines (R56 to R63), the micro-ops (R66 to R84),
and the neuron-side register commands (R88, R92, R93). A micro-op command acts when the sequencer's next word of the line
being run is that micro-op (R63); otherwise the engine does not issue it and nothing changes. -/

namespace Sys2Proof.Machine

/-! ## Lines and phases -/

/-- An uncorrectable record is rewritten to rest values before its routine runs; the rewrite takes two core cycles, which are
back-starved (R54, R84, R91). -/
def Dev.resetRecord (d : Dev) (t e : Nat) (p : Desc) (i n : Nat) : Dev :=
  let a := recAddr t e i
  let rest := d.fld NE_DECAY_REST (engIx t e * 16 + p.dtab 0) NE_DECAY_REST_REST
  let d := d.st a 3 rest
  let d := d.fill (a + 3) 10 0
  let d := d.stB (a + 13) (flagsReset (p.l NE_POP_LO_AA_RESET != 0))
  let d := d.st (a + 14) 2 (n % 65536)
  ((d.bump NE_NPCNT (engIx t e * 12 + 10) 1).bump NE_NPCNT (engIx t e * 12 + 3) 64).occur 0x3103 2 p.ctx (srcEng t e) 0 |>.damaged a

/-- An uncorrectable 64-bit word of an engine's slots or touch bitmaps, by its address: four slots are set to 0, 64 touch bits to 1;
it counts and is recorded (R412). -/
def Dev.cellReset (d : Dev) (t e c a : Nat) : Dev :=
  let o := a - engBase t e
  if a < engBase t e ∨ a % 8 ≠ 0 then d
  else if 0x200000 ≤ o ∧ o < 0x280000 then (((d.fill a 8 0).bump FLT_CNT 3 1).occur 0x3B13 2 c (srcEng t e) 0).damaged a
  else if 0x2E0000 ≤ o ∧ o < 0x2F0000 then (((d.fill a 8 0xFF).bump FLT_CNT 4 1).occur 0x3B14 2 c (srcEng t e) 0).damaged a
  else d

/-- Whether the scan of tick n of context c reads touch-bitmap word `w`, 64 neurons of one plane (R59, R138). -/
def Dev.scanReads (d : Dev) (t e c n w : Nat) : Bool :=
  (d.popsOf t e c).any (fun k =>
    let p := d.pop t e k
    w / 128 == n % p.depth && decide (p.base < w % 128 * 64 + 64) && decide (w % 128 * 64 < p.base + p.size))

/-- Records of a mask of lanes of a line are reset. -/
def Dev.resetRecords (d : Dev) (t e : Nat) (p : Desc) (line n : Nat) (lanes : W32) : Dev :=
  (ones 32 lanes.toNat).foldl (fun d l => d.resetRecord t e p (line * 32 + l) n) d

/-- Lane `l` of a line as the sequencer loads it: REFR, FLAGS and LAST_TICK from the record, the lane registers with
undefined contents (R70). DESIGN CHOICE, log entry 4. -/
def Dev.loadLane (d : Dev) (t e line n l : Nat) : Lane :=
  let a := recAddr t e (line * 32 + l)
  let flags := d.ldB (a + 13)
  { v := Config.freeBits 24 (d.free + 4 * l), a := Config.freeBits 24 (d.free + 4 * l + 1)
    i := Config.freeBits 24 (d.free + 4 * l + 2), x := Config.freeBits 24 (d.free + 4 * l + 3)
    q := flagInRefr flags, refr := d.ldB (a + 12), flags := flags
    dt := BitVec.ofNat 16 (n + 65536 - d.ld (a + 14) 2) }

/-- A touched line begins: damaged records of its lanes are reset, then the lanes are loaded (R54, R59, R70). -/
def Dev.startLine (d : Dev) (t e n : Nat) (job : LineJob) (bad : W32) : Dev :=
  let p := d.pop t e job.pop
  let d := d.resetRecords t e p job.line n (bad &&& job.mask)
  let lanes := (List.range 32).map (d.loadLane t e job.line n)
  let g := d.eng t e
  { (d.setEng t e { g with line := some { job := job, lanes := lanes } }) with free := d.free + 128 }

/-- The age sweep of one further line of the context's populations (R62). -/
def Dev.ageSweep (d : Dev) (t e c n : Nat) : Dev :=
  if d.flag NE_CTRL (engIx t e) NE_CTRL_AGE_SWEEP then
    let lines := (d.popsOf t e c).flatMap (fun k =>
      let p := d.pop t e k
      (List.range (cdiv p.size 32)).map (fun j => (k, p.base / 32 + j)))
    if lines.length = 0 then d
    else
      let g := d.eng t e
      let at' := Tab.get 0 g.ageAt c % lines.length
      let (k, line) := lines.getD at' (0, 0)
      let p := d.pop t e k
      let d := d.setEng t e { g with ageAt := Tab.set 0 g.ageAt c ((at' + 1) % lines.length) }
      (List.range 32).foldl (fun d l =>
        let i := line * 32 + l
        if i < p.base + p.size ∧ (n + 65536 - d.ld (recAddr t e i + 14) 2) % 65536 ≥ 16384 then
          (d.touch t e ((n + 1) % p.depth) i).bump NE_NPCNT (engIx t e * 12 + 11) 1
        else d) d
  else d

/-- The update phase of tick n of context c ends: the scan cycles for which no touched line was ready count as front-starved, the
age sweep, the end recorded, and written descriptors take effect at this boundary (R57, R62, R90, R91, R142). -/
def Dev.endPhase (d : Dev) (t e c n : Nat) : Dev :=
  let g := d.eng t e
  let d := (d.setEng t e { g with scan := [] }).bump NE_NPCNT (engIx t e * 12 + 2) (32 * (g.scan.map (·.2)).sum)
  let d := d.ageSweep t e c n
  let g := d.eng t e
  (d.setEng t e { g with phase := none, line := none, updDone := Tab.set 0 g.updDone c n, popEff := [] }).setF
    NE_STATUS (engIx t e) NE_STATUS_UPDATING 0

/-- Whether a neuron of an engine belongs to a context in confidential mode (R92, R439). -/
def Dev.neuronClosed (d : Dev) (t e i : Nat) : Bool :=
  (List.range 64).any (fun n =>
    let p := d.pop t e n
    p.valid && decide (p.base ≤ i) && decide (i < p.base + p.size) && d.confidential p.ctx)

/-- All 16 bytes of the record that NE_DBG_IDX selects are captured; the access that asked for them returns them, so latches that it
filled hold the captured upper half of LO (R18, R93). -/
def Dev.dbgCapture (d : Dev) (t e : Nat) : Dev :=
  let i := engIx t e
  let nrn := d.fld NE_DBG_IDX i NE_DBG_IDX_NEURON
  let g := d.eng t e
  let shut := d.neuronClosed t e nrn
  let lo : W64 := if shut then 0 else BitVec.ofNat 64 (d.ld (recAddr t e nrn) 8)
  let hi : W64 := if shut then 0 else BitVec.ofNat 64 (d.ld (recAddr t e nrn + 8) 8)
  let d := (d.setEng t e { g with dbgCap := some hi, dbgWant := false }).wr NE_DBG_REC_LO i lo
  { d with latches := d.latches.map (fun l => if l.reg = NE_DBG_REC_LO.key i then { l with high := BitVec.ofNat 32 (lo.toNat / 2 ^ 32) } else l) }

/-- Debug commits and running-order writes that waited for the end of a line are applied, then a debug read that waited captures its
record and returns it (R88, R93). -/
def Dev.betweenLines (d : Dev) (t e : Nat) : Dev :=
  let g := d.eng t e
  let d := d.setEng t e { g with dbgDue := [], roDue := [], roBad := g.roBad.filter (fun w => !(g.roDue.any (fun x => x.1 == w))) }
  let d := g.dbgDue.foldl (fun d w => (d.st (recAddr t e w.1) 8 w.2.1.toNat).st (recAddr t e w.1 + 8) 8 w.2.2.toNat) d
  let d := g.roDue.foldl (fun d w => d.st (engBase t e + 0x2F8000 + w.1 * 8) 8 w.2.toNat) d
  if g.dbgWant then
    let d := d.dbgCapture t e
    { d with ret := d.rd NE_DBG_REC_LO (engIx t e) }
  else d

/-- The next touched line of the phase begins, or the phase ends. -/
def Dev.nextLine (d : Dev) (t e : Nat) (bad : W32) : Dev :=
  let d := d.betweenLines t e
  let g := d.eng t e
  match g.phase, g.jobs with
  | some (c, n), [] => d.endPhase t e c n
  | some (_, n), j :: js => (d.setEng t e { g with jobs := js, line := none }).startLine t e n j bad
  | none, _ => d

/-- Scan of one population's touch bits for slot n mod depth: the bits read are cleared, and each line with a 1 is a
touched line with its lane mask (R59). -/
def Dev.scanPop (d : Dev) (t e n k : Nat) : List LineJob × Dev :=
  let p := d.pop t e k
  (List.range (cdiv p.size 32)).foldl (fun acc j =>
    let (jobs, d) := acc
    let i := p.base + 32 * j
    let s := n % p.depth
    let live := 2 ^ (min 32 (p.size - 32 * j)) - 1
    let row := d.touchRow t e s i
    let m := row &&& live
    if m = 0 then (jobs, d)
    else (jobs ++ [⟨k, i / 32, BitVec.ofNat 32 m⟩], d.setTouchRow t e s i (row - m))) ([], d)

/-- UPDATE_PHASE_BEGIN: the engine takes its oldest tick start, sets U, counts the phase and its front-starved cycles, repairs the
touch-bitmap words found uncorrectable, scans the touch bits of the context's populations in order, and starts the first touched line
(R58, R59, R91, R146, R412). DESIGN CHOICE, log entry 31. -/
def Dev.phaseBegin (d : Dev) (t e : Nat) (bad : W32) (touchBad : List (Fin 8192)) : Dev :=
  let g := d.eng t e
  match g.phase, g.startQ with
  | none, (c, n) :: q =>
    let d := d.setEng t e { g with startQ := q, phase := some (c, n), u := Tab.set 0 g.u c n, popEff := [] }
    let d := (d.setF NE_STATUS (engIx t e) NE_STATUS_UPDATING 1).setF NE_STATUS (engIx t e) NE_STATUS_PHASE_CTX c
    let d := d.bump NE_TCNT (engIx t e * 2 + 1) 1
    let pops := d.popsOf t e c
    let d := d.bump NE_NPCNT (engIx t e * 12 + 2) (64 * (1 + pops.length))
    let d := touchBad.foldl (fun d w =>
      if d.scanReads t e c n w then d.cellReset t e c (engBase t e + 0x2E0000 + w * 8) else d) d
    let (jobs, d) := pops.foldl (fun acc k =>
      let (js, d) := acc.2.scanPop t e n k
      (acc.1 ++ js, d)) (([] : List LineJob), d)
    let g := d.eng t e
    let scan := pops.foldl (fun s k => Tab.set 0 s k (cdiv (d.pop t e k).size 128)) []
    (d.setEng t e { g with jobs := jobs, scan := scan }).nextLine t e bad
  | _, _ => d

/-- UPDATE_PHASE_BEGIN; `touchBad` are touch-bitmap words found uncorrectable, `idle` the core cycles since the engine's last update
phase (R91, R146, R412). -/
def execUpdatePhaseBegin (t : Tile) (e : Eng) (bad : W32) (touchBad : List (Fin 8192)) (idle : Nat) (s : State) :
    Host.Outcome State Fault Refusal :=
  run (fun d =>
    if (d.eng t e).resetting then d
    else
      let due := (d.eng t e).phase.isNone && !(d.eng t e).startQ.isEmpty
      (if due then d.bump NE_NPCNT (engIx t e * 12 + 4) idle else d).phaseBegin t e bad touchBad) s

/-! ## Issuing micro-ops -/

/-- Index in the running-order table of the word that the line executes next: routine × 64 + word (R63). -/
def Dev.lineIx (d : Dev) (t e : Nat) (ln : Line) : Nat := (d.pop t e ln.job.pop).l NE_POP_LO_ROUTINE * 64 + ln.word

/-- A word without a legal OP: what a line meets in a damaged word of the table (R75, R412). -/
def damagedWord : Nat := 0

/-- The word of the running-order table that the line executes next (R63, R412). -/
def Dev.lineWord (d : Dev) (t e : Nat) (ln : Line) : Nat :=
  if (d.eng t e).roBad.contains (d.lineIx t e ln) then damagedWord else d.roWord t e (d.lineIx t e ln)

/-- The sequencer issues a micro-op when it is the next word of the line being run, no EMIT is held, and word 63 is not
passed by anything but END (R63, R75, R82). `f` is its effect on the device and the line; the line then moves one word
on and has taken one core cycle (R73). DEDUCED, log entry 6. -/
def Dev.issue (d : Dev) (t e : Nat) (op : MicroOp) (f : Dev → Line → Dev × Line) : Dev :=
  match (d.eng t e).line with
  | none => d
  | some ln =>
    if ln.held = 0 ∧ microDecode (d.lineWord t e ln) = some op ∧ ln.word < 63 then
      let (d, ln) := f d ln
      let g := d.eng t e
      d.setEng t e { g with line := some { ln with word := ln.word + 1, cycles := ln.cycles + 1 } }
    else d

/-- Whether lane `l` of a line is in its mask and enabled by PRED (R60, R68). -/
def Line.acts (ln : Line) (pred : Fin 4) (l : Nat) : Bool :=
  ln.job.mask.getLsbD l && (ln.lanes.getD l {}).enabled pred

/-- An effect on each enabled lane, other lanes unchanged (R69). -/
def Line.each (ln : Line) (pred : Fin 4) (f : Nat → Lane → Lane) : Line :=
  { ln with lanes := ln.lanes.zipIdx.map (fun x => if ln.acts pred x.2 then f x.2 x.1 else x.1) }

/-- A micro-op that only computes a lane register. -/
def Dev.issueReg (d : Dev) (t e : Nat) (op : MicroOp) (pred : Fin 4) (f : Lane → Lane) : Dev :=
  d.issue t e op (fun d ln => (d, ln.each pred (fun _ l => f l)))

/-- LD: the record's field into the register, after damaged records are reset; corrected errors wait for a write-back, each lane's for
a cycle of its own. A record found damaged here has REFR, FLAGS, Q and Δt loaded again and the lane's pending ST dropped; the lane
registers, T and P stay (R54, R71, R84). DESIGN CHOICE, log entry 31. -/
def execLd (t : Tile) (e : Eng) (dst pred : Fin 4) (sbe bad : W32) (s : State) : Host.Outcome State Fault Refusal :=
  run (fun d => d.issue t e (.ld dst pred) (fun d ln =>
    let n := ((d.eng t e).phase.getD (0, 0)).2
    let hit := (List.range 32).filter (fun l => ln.acts pred l)
    let bads := hit.filter (fun l => bad.getLsbD l)
    let d := bads.foldl (fun d l => d.resetRecord t e (d.pop t e ln.job.pop) (ln.job.line * 32 + l) n) d
    let ln := { ln with lanes := ln.lanes.zipIdx.map (fun (x : Lane × Nat) =>
      if bads.contains x.2 then
        let l := d.loadLane t e ln.job.line n x.2
        { x.1 with q := l.q, refr := l.refr, flags := l.flags, dt := l.dt, stV := none, stA := none, stI := none, stX := none }
      else x.1) }
    let g := d.eng t e
    let d := d.setEng t e { g with writeback := g.writeback + (hit.filter (fun l => sbe.getLsbD l)).length }
    let d := (hit.filter (fun l => sbe.getLsbD l)).foldl (fun d l => d.mended (recAddr t e (ln.job.line * 32 + l))) d
    (d, ln.each pred (fun l x => x.put dst ((x.stored dst).getD
      (BitVec.ofNat 24 (d.ld (recAddr t e (ln.job.line * 32 + l) + varOff dst) 3))))))) s

/-- ST: the register into the record's field; the store stays pending until END (R71, R75, R89). -/
def execSt (t : Tile) (e : Eng) (dst pred : Fin 4) (s : State) : Host.Outcome State Fault Refusal :=
  run (fun d => d.issueReg t e (.st dst pred) pred (fun l => l.putSt dst (l.reg dst))) s

/-- ADD (R71). -/
def execAdd (t : Tile) (e : Eng) (dst : Fin 4) (a b : Fin 8) (k : S24) (pred : Fin 4) (s : State) :
    Host.Outcome State Fault Refusal :=
  run (fun d => d.issueReg t e (.add dst a b k pred) pred (fun l => l.put dst (sat24 (l.src k a + l.src k b)))) s

/-- SUB (R71). -/
def execSub (t : Tile) (e : Eng) (dst : Fin 4) (a b : Fin 8) (k : S24) (pred : Fin 4) (s : State) :
    Host.Outcome State Fault Refusal :=
  run (fun d => d.issueReg t e (.sub dst a b k pred) pred (fun l => l.put dst (sat24 (l.src k a - l.src k b)))) s

/-- MULK (R71). -/
def execMulk (t : Tile) (e : Eng) (dst : Fin 4) (a : Fin 8) (k : S24) (pred : Fin 4) (s : State) :
    Host.Outcome State Fault Refusal :=
  run (fun d => d.issueReg t e (.mulk dst a k pred) pred (fun l => l.put dst (mulk (l.src k a) k.toInt))) s

/-- SHR (R71). -/
def execShr (t : Tile) (e : Eng) (dst : Fin 4) (a : Fin 8) (k : S24) (pred : Fin 4) (s : State) :
    Host.Outcome State Fault Refusal :=
  run (fun d => d.issueReg t e (.shr dst a k pred) pred (fun l => l.put dst (sat24 (shr24 (l.src k a) k.toNat)))) s

/-- A decay table's factor E[i] (R76). -/
def Dev.decayFactor (d : Dev) (t e tab i : Nat) : Nat := d.fld NE_DECAY ((engIx t e * 16 + tab) * 64 + i) NE_DECAY_FACTOR

/-- DECAY with the population's table; a line in which an enabled lane takes the long path costs 3 core cycles more and
is counted (R77, R78). -/
def execDecay (t : Tile) (e : Eng) (dst : Fin 4) (a : Fin 8) (k : S24) (pred : Fin 4) (s : State) :
    Host.Outcome State Fault Refusal :=
  run (fun d => d.issue t e (.decay dst a k pred) (fun d ln =>
    let p := d.pop t e ln.job.pop
    let tab := p.dtab k.toNat
    let exact := p.l NE_POP_LO_EXACT_LONG != 0
    let rest := sgn 24 (d.fld NE_DECAY_REST (engIx t e * 16 + tab) NE_DECAY_REST_REST)
    let long := exact && (List.range 32).any (fun l => ln.acts pred l && decide ((ln.lanes.getD l {}).dt.toNat ≥ 64))
    let ln' := ln.each pred (fun _ l => l.put dst (decayVal (l.src k a) rest (d.decayFactor t e tab) l.dt.toNat exact))
    (if long && !ln.long then d.bump NE_NPCNT (engIx t e * 12 + 8) 1 else d,
     { ln' with long := ln.long || long, cycles := if long then ln.cycles + 3 else ln.cycles }))) s

/-- The slot of a neuron for a tick, as a signed value. -/
def Dev.slot (d : Dev) (t e : Nat) (p : Desc) (i m : Nat) : Int := sgn 16 (d.ld (slotAddr t e p i m) 2)

/-- Whether the slot of neuron `i` for tick `m` lies in a row that a population's region, passing row 8,191, aliases; what such a
slot holds is unpredictable (R137). -/
def Dev.slotAliased (d : Dev) (t e : Nat) (p : Desc) (i m : Nat) : Bool :=
  let row := (p.l NE_POP_LO_SLOT_BASE / 32 + (i - p.base) / 32 * p.depth + m % p.depth) % 8192
  (List.range 64).any (fun n =>
    let q := d.pop t e n
    q.valid && decide (row + 8192 < q.l NE_POP_LO_SLOT_BASE / 32 + cdiv q.size 32 * q.depth))

/-- SLOT: each enabled lane takes its slot for tick n, scaled, and the slot is cleared (R71, R74, R140). Bit j of `bad` says that the
word of lanes 4j to 4j + 3 is uncorrectable (R412); `hold` is the core cycles held behind a Roustabout redirection of a bank, which
are back-starved (R91). -/
def execSlot (t : Tile) (e : Eng) (pred : Fin 4) (bad : Byte) (hold : Fin 5) (s : State) : Host.Outcome State Fault Refusal :=
  run (fun d => d.issue t e (.slot pred) (fun d ln =>
    let (c, n) := (d.eng t e).phase.getD (0, 0)
    let p := d.pop t e ln.job.pop
    let ls := (List.range 32).filter (fun l => ln.acts pred l)
    let d := ((List.range 8).filter (fun j => bad.getLsbD j && ls.any (fun l => l / 4 == j))).foldl (fun d j =>
      d.cellReset t e c (slotAddr t e p (ln.job.line * 32 + 4 * j) n)) d
    let ln' := ln.each pred (fun l x =>
      let i := ln.job.line * 32 + l
      let v := if d.slotAliased t e p i n then (Config.freeBits 16 (d.free + l)).toInt else d.slot t e p i n
      { x with t := slotVal v (p.l NE_POP_LO_SLOT_SHIFT) })
    let d := if ls.any (fun l => d.slotAliased t e p (ln.job.line * 32 + l) n) then { d with free := d.free + 32 } else d
    let d := ls.foldl (fun d l => d.st (slotAddr t e p (ln.job.line * 32 + l) n) 2 0) d
    (d.bump NE_NPCNT (engIx t e * 12 + 3) (32 * hold.val),
     { ln' with slotDone := ls.foldl (fun m l => m ||| BitVec.ofNat 32 (2 ^ l)) ln.slotDone }))) s

/-- A compare writes P in every lane of the mask: the condition in enabled lanes, 0 in the others (R69). -/
def Dev.issueCmp (d : Dev) (t e : Nat) (op : MicroOp) (pred : Fin 4) (cond : Lane → Bool) : Dev :=
  d.issue t e op (fun d ln => (d, ln.each 0 (fun _ l => { l with p := cmpFlag (l.enabled pred) (cond l) })))

/-- CMPGE (R69, R71). -/
def execCmpge (t : Tile) (e : Eng) (a b : Fin 8) (k : S24) (pred : Fin 4) (s : State) :
    Host.Outcome State Fault Refusal :=
  run (fun d => d.issueCmp t e (.cmpge a b k pred) pred (fun l => decide (l.src k a ≥ l.src k b))) s

/-- CMPLT (R69, R71). -/
def execCmplt (t : Tile) (e : Eng) (a b : Fin 8) (k : S24) (pred : Fin 4) (s : State) :
    Host.Outcome State Fault Refusal :=
  run (fun d => d.issueCmp t e (.cmplt a b k pred) pred (fun l => decide (l.src k a < l.src k b))) s

/-- SEL (R71); a source wider than a register saturates. -/
def execSel (t : Tile) (e : Eng) (dst : Fin 4) (a b : Fin 8) (k : S24) (pred : Fin 4) (s : State) :
    Host.Outcome State Fault Refusal :=
  run (fun d => d.issueReg t e (.sel dst a b k pred) pred
    (fun l => l.put dst (sat24 (if l.p then l.src k a else l.src k b)))) s

/-- CLR (R71). -/
def execClr (t : Tile) (e : Eng) (dst : Fin 4) (k : S24) (pred : Fin 4) (s : State) :
    Host.Outcome State Fault Refusal :=
  run (fun d => d.issueReg t e (.clr dst k pred) pred (fun l => l.put dst k)) s

/-- NOISE: each enabled lane reads its LFSR, then steps it once (R72). -/
def execNoise (t : Tile) (e : Eng) (dst : Fin 4) (a : Fin 8) (k : S24) (pred : Fin 4) (s : State) :
    Host.Outcome State Fault Refusal :=
  run (fun d => d.issue t e (.noise dst a k pred) (fun d ln =>
    let g := d.eng t e
    let ln' := ln.each pred (fun l x => x.put dst (noiseVal (x.src k a) (g.noise.getD l 0) k.toNat))
    (d.setEng t e { g with noise := g.noise.zipIdx.map (fun x => if ln.acts pred x.2 then lfsrStep 0x80200003 x.1 else x.1) },
     ln'))) s

/-- REFR, set or test form by K[23]; a lane left refractory is touched again (R79, R80). -/
def execRefr (t : Tile) (e : Eng) (k : S24) (pred : Fin 4) (s : State) : Host.Outcome State Fault Refusal :=
  run (fun d => d.issue t e (.refr k pred) (fun d ln =>
    let n := ((d.eng t e).phase.getD (0, 0)).2
    let p := d.pop t e ln.job.pop
    let form (x : Lane) : Byte × Bool := if k.getLsbD 23 then refrTest x.refr x.dt else refrSet k.toNat
    let ln' := ln.each pred (fun _ x => { x with refr := (form x).1, q := (form x).2 })
    let d := ((List.range 32).filter (fun l => ln.acts pred l && (ln'.lanes.getD l {}).q)).foldl (fun d l =>
      let r := (ln'.lanes.getD l {}).refr.toNat
      d.touch t e ((n + min r (p.depth - 1)) % p.depth) (ln.job.line * 32 + l)) d
    (d, ln'))) s

/-! ## Emission -/

/-- Free entries of an emit-queue section (R37). -/
def Engine.room (g : Engine) (express : Bool) : Nat := if express then 16 - g.emitX.length else 112 - g.emitO.length

/-- The event that a lane's EMIT makes: none when K[8] = 1 and the graded payload is 0 (R81). -/
def emission (p : Desc) (n : Nat) (a : Int) (k i : Nat) : Option W64 :=
  if p.l NE_POP_LO_GRADED = 0 then some (evWord 1 n (p.keyBase + (i - p.base)) 0)
  else
    let signed := p.l NE_POP_LO_SIGNED != 0
    let pay := payloadOf signed a k
    if k.testBit 8 ∧ pay = 0 then none
    else if signed then some (evWord 2 n (p.keyBase + 2 * (i - p.base) + (if a < 0 then 1 else 0)) pay)
    else some (evWord 2 n (p.keyBase + (i - p.base)) pay)

/-- What has become of an EMIT in progress: the device, the line, the lanes still held. -/
structure EmitAcc where
  d : Dev
  ln : Line
  held : W32
  post : Bool

/-- EMIT in one lane, in ascending order; once a lane is held, so are those after it (R81 to R83, R174). -/
def emitLane (t e : Nat) (a : Fin 8) (k : S24) (acc : EmitAcc) (l : Nat) : EmitAcc :=
  if acc.held ≠ 0 then { acc with held := acc.held ||| BitVec.ofNat 32 (2 ^ l) }
  else
    let d := acc.d
    let g := d.eng t e
    let (c, n) := g.phase.getD (0, 0)
    let p := d.pop t e acc.ln.job.pop
    let i := acc.ln.job.line * 32 + l
    let x := acc.ln.lanes.getD l {}
    match emission p n (x.src k a) k.toNat i with
    | none => acc
    | some w =>
      if x.emitted then { acc with d := d.drop .engEmitDup (engIx t e) c (if p.express then 0 else 1) (evKey w) 1 }
      else
        let ep := (d.tc t c).epoch n
        if g.room p.express = 0 then { acc with held := BitVec.ofNat 32 (2 ^ l) }
        else if ep.isSome ∧ 32 ≤ g.postQ.length then { acc with held := BitVec.ofNat 32 (2 ^ l), post := true }
        else
          let ev : Emitted := ⟨w, c, p.express⟩
          let g := if p.express then { g with emitX := g.emitX ++ [ev] } else { g with emitO := g.emitO ++ [ev] }
          let g := match ep with
            | some k => { g with postQ := g.postQ ++ [⟨c, n, i, k % 2 == 1⟩] }
            | none => g
          { acc with
            d := (d.setEng t e g).bump NE_NPCNT (engIx t e * 12 + 6) 1
            ln := { acc.ln with lanes := acc.ln.lanes.set l { x with emitted := true } } }

/-- EMIT over a mask of lanes. -/
def emitLanes (d : Dev) (t e : Nat) (ln : Line) (a : Fin 8) (k : S24) (mask : Nat) : EmitAcc :=
  (ones 32 mask).foldl (emitLane t e a k) ⟨d, ln, 0, false⟩

/-- The lanes of a line that PRED enables, as a mask. -/
def Line.mask (ln : Line) (pred : Fin 4) : Nat :=
  ((List.range 32).filter (fun l => ln.acts pred l)).foldl (fun m l => m + 2 ^ l) 0

/-- EMIT: events of the enabled lanes in ascending order, as many as the section has room for; the rest are held
(R81 to R83). -/
def execEmit (t : Tile) (e : Eng) (a : Fin 8) (k : S24) (pred : Fin 4) (s : State) : Host.Outcome State Fault Refusal :=
  run (fun d =>
    match (d.eng t e).line with
    | none => d
    | some ln =>
      if ln.held = 0 ∧ microDecode (d.lineWord t e ln) = some (.emit a k pred) ∧ ln.word < 63 then
        let r := emitLanes d t e ln a k (ln.mask pred)
        let ln := if r.held = 0 then { r.ln with word := r.ln.word + 1, cycles := r.ln.cycles + 1 }
          else { r.ln with held := r.held, heldPost := r.post }
        let g := r.d.eng t e
        r.d.setEng t e { g with line := some ln }
      else d) s

/-- EMIT_CONTINUE: the core cycles stalled are counted, and a held EMIT writes further lanes as entries have come free
(R82, R91, R174). -/
def execEmitContinue (t : Tile) (e : Eng) (stall : Nat) (s : State) : Host.Outcome State Fault Refusal :=
  run (fun d =>
    match (d.eng t e).line with
    | none => d
    | some ln =>
      match decide (ln.held = 0), microDecode (d.lineWord t e ln) with
      | false, some (.emit a k _) =>
        let d := if ln.heldPost then d else d.bump NE_NPCNT (engIx t e * 12 + 7) stall
        let d := d.bump NE_NPCNT (engIx t e * 12 + 3) (32 * stall)
        let r := emitLanes d t e { ln with held := 0, heldPost := false } a k ln.held.toNat
        let ln := if r.held = 0 then { r.ln with word := r.ln.word + 1, cycles := r.ln.cycles + 1 }
          else { r.ln with held := r.held, heldPost := r.post }
        let g := r.d.eng t e
        r.d.setEng t e { g with line := some ln }
      | _, _ => d) s

/-! ## Ends of lines -/

/-- A line that ended without SLOT in some lane of its mask has those slots cleared, and is counted (R140). -/
def Dev.slotEndClear (d : Dev) (t e n : Nat) (ln : Line) : Dev :=
  let rest := ones 32 (ln.job.mask &&& ~~~ ln.slotDone).toNat
  let p := d.pop t e ln.job.pop
  if rest.length = 0 then d
  else (rest.foldl (fun d l => d.st (slotAddr t e p (ln.job.line * 32 + l) n) 2 0) d).bump NE_TCNT (engIx t e * 2) 1

/-- Pending ST results of a lane reach its record (R71, R75). -/
def Dev.storeLane (d : Dev) (t e i : Nat) (x : Lane) : Dev :=
  ([(0, x.stV), (1, x.stA), (2, x.stI), (3, x.stX)] : List (Fin 4 × Option S24)).foldl (fun d p =>
    match p.2 with
    | some v => d.st (recAddr t e i + varOff p.1) 3 v.toNat
    | none => d) d

/-- The fields END writes in an enabled lane: LAST_TICK, REFR, FLAGS, and the touch bit for n + 1 of an always-active
neuron (R61, R71, R83). -/
def Dev.endLane (d : Dev) (t e n : Nat) (p : Desc) (i : Nat) (x : Lane) : Dev :=
  let d := d.stB (recAddr t e i + 12) x.refr
  let d := d.stB (recAddr t e i + 13) (flagsAtEnd x.flags x.emitted x.q)
  let d := d.st (recAddr t e i + 14) 2 (n % 65536)
  if flagAA x.flags then d.touch t e ((n + 1) % p.depth) i else d

/-- The scan cycles of a population that the words of a finished line cover (R90). -/
def Dev.coverScan (d : Dev) (t e : Nat) (ln : Line) : Dev :=
  let g := d.eng t e
  d.setEng t e { g with scan := Tab.upd 0 g.scan ln.job.pop (· - (ln.word + 1)) }

/-- Lane-slot counts of a finished line: retired in the lane mask, wasted outside it (R91). -/
def Dev.countLine (d : Dev) (t e : Nat) (ln : Line) : Dev :=
  let m := popc 32 ln.job.mask.toNat
  let d := d.bump NE_NPCNT (engIx t e * 12) (m * ln.cycles)
  (d.bump NE_NPCNT (engIx t e * 12 + 1) ((32 - m) * ln.cycles)).bump NE_NPCNT (engIx t e * 12 + 5) 1

/-- END: the line is written and finished, and the next touched line starts or the phase ends (R71, R91).
DEDUCED, log entry 6. -/
def execEndLine (t : Tile) (e : Eng) (pred : Fin 4) (bad : W32) (s : State) : Host.Outcome State Fault Refusal :=
  run (fun d =>
    match (d.eng t e).line, (d.eng t e).phase with
    | some ln, some (_, n) =>
      if ln.held = 0 ∧ microDecode (d.lineWord t e ln) = some (.fin pred) then
        let p := d.pop t e ln.job.pop
        let base := ln.job.line * 32
        let d := ln.lanes.zipIdx.foldl (fun d x => if ln.job.mask.getLsbD x.2 then d.storeLane t e (base + x.2) x.1 else d) d
        let d := ln.lanes.zipIdx.foldl (fun d x => if ln.acts pred x.2 then d.endLane t e n p (base + x.2) x.1 else d) d
        let d := d.slotEndClear t e n ln
        let d := (d.countLine t e { ln with cycles := ln.cycles + 1 }).coverScan t e ln
        d.nextLine t e bad
      else d
    | _, _ => d) s

/-- The running-order word that the line executes next is found uncorrectable: lines that meet it end there until it is rewritten
(R412). -/
def Dev.damagedLine (d : Dev) (t e : Nat) : Dev :=
  let g := d.eng t e
  match g.line with
  | some ln =>
    let k := d.lineIx t e ln
    if ln.held ≠ 0 ∨ g.roBad.contains k then d
    else (d.setEng t e { g with roBad := g.roBad ++ [k] }).damaged (engBase t e + 0x2F8000 + k * 8)
  | none => d

/-- RUNNING_ORDER_FAULT: an illegal OP, a word found uncorrectable now (`damaged`) or before, or word 63 that is not END, ends the
line; pending stores and END fields are not written, the fault is counted and recorded, and all the line's lane-slots are wasted
(R75, R91, R140, R412). -/
def execRunningOrderFault (t : Tile) (e : Eng) (damaged : Bool) (bad : W32) (s : State) : Host.Outcome State Fault Refusal :=
  run (fun d =>
    let d := if damaged then d.damagedLine t e else d
    match (d.eng t e).line, (d.eng t e).phase with
    | some ln, some (c, n) =>
      let op := microDecode (d.lineWord t e ln)
      let isEnd := match op with | some (.fin _) => true | _ => false
      if ln.held = 0 ∧ (op = none ∨ (63 ≤ ln.word ∧ !isEnd)) then
        let i := engIx t e
        let d := d.bump NE_NPCNT (i * 12 + 9) 1
        let d := d.setF NE_STATUS i NE_STATUS_FAULT_ROUTINE ((d.pop t e ln.job.pop).l NE_POP_LO_ROUTINE)
        let d := d.setF NE_STATUS i NE_STATUS_FAULT_WORD ln.word
        let d := d.setF NE_STATUS i NE_STATUS_RO_FAULT 1
        let d := d.occur 0x3102 2 c (srcEng t e) 0
        let d := d.bump NE_NPCNT (i * 12 + 1) (32 * (ln.cycles + 1))
        let d := d.bump NE_NPCNT (i * 12 + 5) 1
        let d := (d.slotEndClear t e n ln).coverScan t e ln
        d.nextLine t e bad
      else d
    | _, _ => d) s

/-- STATE_WRITEBACK: one corrected word is written back; the cycle is back-starved (R84, R91). -/
def execStateWriteback (t : Tile) (e : Eng) (s : State) : Host.Outcome State Fault Refusal :=
  run (fun d =>
    let g := d.eng t e
    if g.writeback = 0 then d
    else (d.setEng t e { g with writeback := g.writeback - 1 }).bump NE_NPCNT (engIx t e * 12 + 3) 32) s

/-- One post count rises, saturating at 15, in the half of its epoch's parity (R169, R174). -/
def Dev.postCount (d : Dev) (t e : Nat) (p : PostInc) : Dev :=
  let a := traceAddr t e (8192 + p.neuron)
  let b := (d.ldB a).toNat
  let lo := b % 16
  let hi := b / 16
  d.stB a (BitVec.ofNat 8 (if p.odd then lo + 16 * min 15 (hi + 1) else min 15 (lo + 1) + 16 * hi))

/-- POST_COUNT_WRITE: the oldest queued post-count increment reaches trace memory (R174). -/
def execPostCountWrite (t : Tile) (e : Eng) (s : State) : Host.Outcome State Fault Refusal :=
  run (fun d =>
    let g := d.eng t e
    match g.postQ with
    | [] => d
    | p :: q => (d.setEng t e { g with postQ := q }).postCount t e p) s

/-- Whether an engine has done all of tick n of context c: its phase ended, its stamped events looked up, its post
counts written (R142, R174). -/
def Dev.engineDone (d : Dev) (t e c n : Nat) : Bool :=
  let g := d.eng t e
  !(d.holds t e c) ||
  (Tab.get 0 g.updDone c == n && !(g.startQ.any (fun x => x.1 == c)) && !(g.phase.any (fun x => x.1 == c))
   && !((g.emitX ++ g.emitO).any (fun x => x.ctx == c && evTick x.word == n % 4096))
   && !(g.postQ.any (fun x => x.ctx == c && x.tick == n)) && !g.resetting)

/-- Engines that take part in update completion: those in service (R142, R417). -/
def Dev.engineServes (d : Dev) (t e : Nat) : Bool :=
  (d.unit 1 (engIx t e)).1 != 2 && (d.unit 2 t).1 != 2

/-- Whether tick n of context c is update-complete. -/
def Dev.updateComplete (d : Dev) (c n : Nat) : Bool :=
  (List.range 32).all (fun t => (List.range 9).all (fun e => !(d.engineServes t e) || d.engineDone t e c n))

/-- UPDATE_COMPLETE: once every engine of the context is done, Calliope takes tick n as update-complete at edge `now`
(R142). -/
def execUpdateComplete (c : Ctx) (now : Nat) (s : State) : Host.Outcome State Fault Refusal :=
  run (fun d =>
    let g := d.gen c
    if !g.upd ∧ d.updateComplete c (d.tickOf c) then d.setGen c { g with upd := true, updEdge := now } else d) s

/-! ## Descriptors, seeds, debug access -/

/-- A descriptor that an engine rejects (R56). -/
def descBad (p : Desc) : Bool :=
  p.valid && (decide (p.l NE_POP_LO_DEPTH_CODE = 0) || decide (p.l NE_POP_LO_DEPTH_CODE > 5) || decide (p.base % 32 ≠ 0)
    || decide (p.size = 0) || decide (p.base + p.size > 8192))

/-- A descriptor is committed: in effect at once when no phase runs, else at the next boundary (R57). -/
def Dev.commitDesc (d : Dev) (t e n : Nat) (new : Desc) : Dev :=
  let g := d.eng t e
  let i := engIx t e * 64 + n
  let eff := if g.phase.isSome ∧ (g.popEff.lookup n).isNone then (n, d.popCommitted t e n) :: g.popEff else g.popEff
  ((d.setEng t e { g with popEff := eff }).wr NE_POP_LO i new.lo).wr NE_POP_HI i new.hi

/-- DESCRIPTOR_WRITE: a write of NE_POP_LO_n that covers its high half commits LO with the held HI, or is rejected with
DESC_ERR; it takes effect at once when no phase runs, else at the next boundary (R18, R56, R57). -/
def execDescriptorWrite (t : Tile) (e : Eng) (n : Fin 64) (half : Half) (v : W64) (s : State) :
    Host.Outcome State Fault Refusal :=
  run (fun d =>
    let i := engIx t e
    let g := d.eng t e
    let old := d.popCommitted t e n
    let present := Tab.get old.lo g.popLow n
    let lo := NE_POP_LO.written present v (halfCover half)
    if !(halfCommits half) then d.setEng t e { g with popLow := Tab.set old.lo g.popLow n lo }
    else
      let new : Desc := ⟨lo, Tab.get old.hi g.popHeld n⟩
      let g := { g with popLow := g.popLow.filter (fun x => x.1 != n), popHeld := g.popHeld.filter (fun x => x.1 != n) }
      let d := d.setEng t e g
      if descBad new then (d.setF NE_STATUS i NE_STATUS_DESC_ERR 1).setF NE_STATUS i NE_STATUS_DESC_ERR_IDX n
      else d.commitDesc t e n new) s

/-- A write of NE_POP_HI_n is held for the write of LO that commits both. DEDUCED, log entry 10. -/
def Dev.popHiWrite (d : Dev) (t e n : Nat) (half : Half) (v : W64) : Dev :=
  let g := d.eng t e
  let old := d.popCommitted t e n
  let hi := NE_POP_HI.written (Tab.get old.hi g.popHeld n) v (halfCover half)
  d.setEng t e { g with popHeld := Tab.set old.hi g.popHeld n hi }

/-- DESCRIPTOR_TAKE_EFFECT: at a boundary between update phases, written descriptors are the ones in effect (R57). -/
def execDescriptorTakeEffect (t : Tile) (e : Eng) (s : State) : Host.Outcome State Fault Refusal :=
  run (fun d =>
    let g := d.eng t e
    if g.phase.isNone then d.setEng t e { g with popEff := [] } else d) s

/-- NE_NOISE_SEED_WRITE: the seed is held and the 32 lane generators are seeded from it (R72). -/
def execNeNoiseSeedWrite (t : Tile) (e : Eng) (v : W32) (s : State) : Host.Outcome State Fault Refusal :=
  run (fun d =>
    let g := d.eng t e
    (d.setEng t e { g with noise := noiseSeeds v }).setF NE_NOISE_SEED (engIx t e) NE_NOISE_SEED_SEED v.toNat) s

/-- NE_SR_SEED_WRITE: the seed is held and the 32 rounding generators are seeded from it (R111). -/
def execNeSrSeedWrite (t : Tile) (e : Eng) (v : W32) (s : State) : Host.Outcome State Fault Refusal :=
  run (fun d =>
    let g := d.eng t e
    (d.setEng t e { g with sr := srSeeds v }).setF NE_SR_SEED (engIx t e) NE_SR_SEED_SEED v.toNat) s

/-- NE_DBG_REC_LO_READ: all 16 bytes of the selected record are captured between lines; LO shows the lower half and a following read
of HI the captured upper half. While a line runs, the capture waits for its END (R93). DESIGN CHOICE, log entry 31. -/
def execNeDbgRecLoRead (t : Tile) (e : Eng) (s : State) : Host.Outcome State Fault Refusal :=
  run (fun d =>
    let i := engIx t e
    let g := d.eng t e
    if d.neuronClosed t e (d.fld NE_DBG_IDX i NE_DBG_IDX_NEURON) then (d.dbgCapture t e).closed NE_DBG_REC_LO i
    else if g.line.isSome then d.setEng t e { g with dbgWant := true }
    else d.dbgCapture t e) s

/-- NE_DBG_REC_HI_WRITE: held until the next write of LO; ignored for a neuron of a confidential context (R92, R93, R439). -/
def execNeDbgRecHiWrite (t : Tile) (e : Eng) (half : Half) (v : W64) (s : State) : Host.Outcome State Fault Refusal :=
  run (fun d =>
    let i := engIx t e
    let g := d.eng t e
    if d.neuronClosed t e (d.fld NE_DBG_IDX i NE_DBG_IDX_NEURON) then d.closed NE_DBG_REC_HI i
    else d.setEng t e { g with dbgHeld := halfMerge half g.dbgHeld v }) s

/-- NE_DBG_REC_LO_WRITE: a write that covers the high half commits all 16 bytes between lines, after the END of a line
being updated; with no HI written since the last commit, the upper half is the one last held (R18, R93). DESIGN CHOICE, log
entry 31. -/
def execNeDbgRecLoWrite (t : Tile) (e : Eng) (half : Half) (v : W64) (s : State) : Host.Outcome State Fault Refusal :=
  run (fun d =>
    let i := engIx t e
    let nrn := d.fld NE_DBG_IDX i NE_DBG_IDX_NEURON
    let lo := halfMerge half (d.rd NE_DBG_REC_LO i) v
    if d.neuronClosed t e nrn then d.closed NE_DBG_REC_LO i
    else
      let d := d.wr NE_DBG_REC_LO i lo
      if !(halfCommits half) then d
      else
        let g := d.eng t e
        let d := d.setEng t e { g with dbgDue := g.dbgDue ++ [(nrn, lo, g.dbgHeld)] }
        if g.line.isSome then d else d.betweenLines t e) s

/-- RUNNING_ORDER_WRITE: a word of the selected page is applied between lines, unchecked (R88). -/
def execRunningOrderWrite (t : Tile) (e : Eng) (w : Fin 512) (half : Half) (v : W64) (s : State) :
    Host.Outcome State Fault Refusal :=
  run (fun d =>
    let word := d.fld NE_RO_BASE (engIx t e) NE_RO_BASE_PAGE * 512 + w
    let g := d.eng t e
    let held := (g.roDue.reverse.lookup word).getD (BitVec.ofNat 64 (d.roWord t e word))
    let d := d.setEng t e { g with roDue := g.roDue ++ [(word, halfMerge half held v)] }
    if g.line.isSome then d else d.betweenLines t e) s

end Sys2Proof.Machine
end

