-- ==== Sys2Proof/Machine/Synapse.lean ====
section
/-! DEFINITION. The synapse pipeline: source-index lookup (R94 to R96), row formats (R98 to R103), the arithmetic of one
addition (R110 to R113), scatter and gather (R114 to R117), late and early additions (R147 to R150), spilled rows (R128,
R129), refetches (R130) and drops (R132). Core cycles lost to arbitration, waits and credit are outside the model. -/

namespace Sys2Proof.Machine

/-! ## Row descriptors and rows -/

/-- A field of a row descriptor (R96). -/
def rdBits (x : BitVec 128) (hi lo : Nat) : Nat := bits x.toNat hi lo
/-- KEY. -/
def rdKey (x : BitVec 128) : Nat := rdBits x 127 96
/-- CTX. -/
def rdCtx (x : BitVec 128) : Nat := rdBits x 93 91
/-- FMT: 0 F32, 1 C16, 2 D4, 3 K8. -/
def rdFmt (x : BitVec 128) : Nat := rdBits x 90 89
/-- SPILL. -/
def rdSpill (x : BitVec 128) : Bool := rdBits x 88 88 != 0
/-- PROJ. -/
def rdProj (x : BitVec 128) : Nat := rdBits x 87 83
/-- ADDR. -/
def rdAddr (x : BitVec 128) : Nat := rdBits x 74 45
/-- LENGTH. -/
def rdLen (x : BitVec 128) : Nat := rdBits x 44 31
/-- SGRP. -/
def rdSgrp (x : BitVec 128) : Nat := rdBits x 30 19

/-- Words of a row of a format and length (R98 to R103, R122). -/
def rowWords (fmt n : Nat) : Nat :=
  match fmt with
  | 0 => cdiv n 16 | 1 => if n = 0 then 0 else cdiv (n + 4) 32 | 2 => cdiv n 128 | _ => cdiv n 64

/-- Core cycles that word `w` of a row takes: one, or one for each 32 synapses of a D4 or K8 word (R122). -/
def wordCycles (fmt n w : Nat) : Nat :=
  match fmt with
  | 2 => min 4 (cdiv (n - 128 * w) 32) | 3 => min 2 (cdiv (n - 64 * w) 32) | _ => 1

/-- Home bucket of a key (R95). -/
def homeBucket (key : Nat) : Nat := key * 0x9E3779B1 % 2 ^ 32 / 2 ^ 21

/-- Entry `i` of an engine's source index. -/
def Dev.sidx (d : Dev) (t e i : Nat) : BitVec 128 := BitVec.ofNat 128 (d.ld (engBase t e + 0x280000 + i * 16) 16)

/-- Entries of an engine's source index in which some byte is listed; every other entry is zero. -/
def Dev.sidxListed (d : Dev) (t e : Nat) : List Nat :=
  let a := engBase t e + 0x280000
  (d.mem.filterMap (fun (p : Host.Cell) => if a ≤ p.1 ∧ p.1 < a + 0x20000 then some ((p.1 - a) / 16) else none)).eraseDups

/-- Valid entries of an engine's source index, in entry order (R96, R97). -/
def Dev.validEntries (d : Dev) (t e : Nat) : List Nat :=
  let l := d.sidxListed t e
  (List.range 8192).filter (fun i => l.contains i && rdBits (d.sidx t e i) 95 95 == 1)

/-- The buckets a lookup reads: up to eight, going on while a valid entry of the bucket has CONT (R95). -/
def Dev.probed (d : Dev) (t e h : Nat) : Nat → List Nat
  | 0 => []
  | k + 1 =>
    let more := (List.range 4).any (fun w => let x := d.sidx t e (h * 4 + w); rdBits x 95 95 == 1 && rdBits x 94 94 == 1)
    h :: (if more then d.probed t e ((h + 1) % 2048) k else [])

/-- The rows of an event's key and context, in bucket and way order (R95). -/
def Dev.lookupRows (d : Dev) (t e key ctx : Nat) : List RowJob :=
  ((d.probed t e (homeBucket key) 8).flatMap (fun h => (List.range 4).map (fun w => h * 4 + w))).filterMap (fun i =>
    let x := d.sidx t e i
    if rdBits x 95 95 = 1 ∧ rdKey x = key ∧ rdCtx x = ctx then some { desc := x, index := i } else none)

/-- A projection descriptor's field. -/
def Dev.proj (d : Dev) (t e p : Nat) (f : Fld) : Nat := d.fld NE_PROJ (engIx t e * 32 + p) f

/-- One synapse of a row: its target, delay, weight code, the row word it lies in, its entry position there, and whether
it adds anything (a skip entry or clipped tap does not). -/
structure Syn where
  tgt : Int
  delay : Nat
  code : Int
  word : Nat
  pos : Nat
  live : Bool
  clip : Bool := false

/-- The synapses of a row, read through `rb offset n`, the little-endian number of `n` bytes at a byte offset of the row
(R99 to R103). -/
def Dev.synapses (d : Dev) (t e : Nat) (x : BitVec 128) (rb : Nat → Nat → Nat) : List Syn :=
  let n := rdLen x
  let p := rdProj x
  match rdFmt x with
  | 0 => (List.range n).map (fun j =>
      let v := rb (4 * j) 4
      ⟨(bits v 17 5 : Nat), bits v 23 18 + 1, sgn 8 (bits v 31 24), j / 16, j % 16, true, false⟩)
  | 1 =>
      let h := rb 0 8
      ((List.range n).foldl (fun (acc : Int × List Syn) j =>
        let v := rb (8 + 2 * j) 2
        let tgt := acc.1 + (bits v 7 3 : Nat)
        let c := sgn 8 (bits v 15 8)
        (tgt, ⟨tgt, bits h 59 54 + bits v 2 0, c, (j + 4) / 32, (j + 4) % 32, c != 0, false⟩ :: acc.2))
        (((bits h 12 0 : Nat) : Int), [])).2.reverse
  | 2 => (List.range n).map (fun j =>
      let v := rb (j / 2) 1
      ⟨(rdBits x 12 0 + j : Nat), rdBits x 18 13, sgn 4 (if j % 2 = 0 then v % 16 else v / 16), j / 128, j % 128, true, false⟩)
  | _ =>
      let kw := d.proj t e p NE_PROJ_KW
      let kc := d.proj t e p NE_PROJ_KC
      let mw := d.proj t e p NE_PROJ_MAP_W
      let pop := d.pop t e (d.proj t e p NE_PROJ_TPOP)
      let mh := pop.size / (mw * kc)
      let y0 := sgn 8 (rdBits x 15 8)
      let x0 := sgn 8 (rdBits x 7 0)
      (List.range n).map (fun i =>
        let c := i % kc
        let dx := i / kc % kw
        let dy := i / kc / kw
        let xx := x0 + (dx : Nat)
        let yy := y0 + (dy : Nat)
        let out := decide (xx < 0) || decide (xx ≥ (mw : Nat)) || decide (yy < 0) || decide (yy ≥ (mh : Nat))
        ⟨(pop.base : Int) + (yy * (mw : Nat) + xx) * (kc : Nat) + (c : Nat), d.proj t e p NE_PROJ_KDELAY,
          sgn 8 (rb i 1), i / 64, i % 64, !out, out⟩)

/-- Whether a synapse of a row is within its population and its delay within the ring (R104). -/
def synIn (p : Desc) (s : Syn) : Bool :=
  decide ((p.base : Int) ≤ s.tgt) && decide (s.tgt < (p.base + p.size : Nat)) && decide (1 ≤ s.delay)
    && decide (s.delay ≤ p.depth - 1)

/-- Group width of a projection (R105). -/
def Dev.gwidth (d : Dev) (t e p : Nat) : Nat := 32 * 2 ^ d.proj t e p NE_PROJ_GWIDTH

/-- Scale index of a target of a source group (R106). -/
def Dev.scaleIx (d : Dev) (t e p sgrp tgt : Nat) : Nat :=
  d.proj t e p NE_PROJ_SCALE_BASE + sgrp * d.proj t e p NE_PROJ_TGRP_COUNT
    + (tgt - (d.pop t e (d.proj t e p NE_PROJ_TPOP)).base) / d.gwidth t e p

/-- MULT and EXP of a scale word (R106). -/
def Dev.scale (d : Dev) (t e i : Nat) : Nat × Int :=
  let v := d.ld (engBase t e + 0x2F0000 + 2 * i) 2
  (v / 256, sgn 8 v)

/-! ## One addition -/

/-- The rescaled contribution of an exact value x × 2^EXP, and whether it used a stochastic rounding (R110). -/
def contribution (x : Int) (ex : Int) (sround : Bool) (r : W16) : Int × Bool :=
  if ex ≥ 0 then (x * ((2 ^ ex.toNat : Nat) : Int), false)
  else
    let s := (-ex).toNat
    if !sround then (rha x (2 ^ s), false)
    else
      let rr : Nat := if s ≤ 16 then r.toNat % 2 ^ s else r.toNat * 2 ^ (s - 16)
      ((x + (rr : Int)) / ((2 ^ s : Nat) : Int), true)

/-- What additions have done so far: late drops and early drops of the item (R572), additions made. -/
structure AddAcc where
  d : Dev
  late : Nat := 0
  early : Nat := 0
  added : Nat := 0

/-- A value added into the slot of neuron `i` for tick `m`, saturating, with the touch bit set (R112, R113).
DESIGN CHOICE, log entry 4. -/
def Dev.slotAdd (d : Dev) (t e : Nat) (p : Desc) (i m : Nat) (v : Int) : Dev :=
  let (f, d') := d.takeFree 16
  let (old, d) := if d.slotAliased t e p i m then (f.toInt, d') else (d.slot t e p i m, d)
  let new := clampI (-32768) 32767 (old + v)
  let d := d.st (slotAddr t e p i m) 2 (enc 16 new)
  let d := d.touch t e (m % p.depth) i
  if new = old + v then d else d.bump NE_SPCNT (engIx t e * 20 + 14) 1

/-- A counter of NE_LATE_DATA rises. -/
def Dev.lateCount (d : Dev) (t e point ctx cls n : Nat) : Dev :=
  d.bump NE_LATE ((engIx t e * 8 + point) * 16 + ctx * 2 + cls) n

/-- One addition is classified against U and made, retimed or set down as dropped (R147 to R150). -/
def addOne (t e : Nat) (p : Desc) (cls : Nat) (i m : Nat) (v : Int) (acc : AddAcc) : AddAcc :=
  let c := p.ctx
  let g := acc.d.eng t e
  let u := Tab.get 0 g.u c
  let d := acc.d.lateCount t e 3 c cls 1
  let ahead := sgn 48 (m + 2 ^ 48 - u % 2 ^ 48)
  if ahead ≤ 0 then
    if (d.gen c).policy = 2 then { acc with d := d, late := acc.late + 1 }
    else { acc with d := (d.slotAdd t e p i (u + 1) v).lateCount t e 0 c cls 1, added := acc.added + 1 }
  else if ahead < (p.depth : Int) ∨ (ahead = (p.depth : Int) ∧ g.phase ≠ some (c, u)) then
    { acc with d := d.slotAdd t e p i m v, added := acc.added + 1 }
  else { acc with d := d, early := acc.early + 1 }

/-- Drops of one item at DP-ENG-LATE and DP-ENG-EARLY, one occurrence each (R150, R147, R572). -/
def Dev.lateDrops (d : Dev) (t e ctx cls key late early : Nat) : Dev :=
  let d := if late = 0 then d else d.drop .engLate (engIx t e) ctx cls key late
  if early = 0 then d else d.drop .engEarly (engIx t e) ctx cls key early

/-- The rounding generator of a lane steps where a rounding used it (R111). -/
def Dev.roundStep (d : Dev) (t e lane : Nat) (used : Bool) : Dev :=
  let g := d.eng t e
  if used then d.setEng t e { g with sr := g.sr.set lane (lfsrStep 0xB400 (g.sr.getD lane 0)) } else d

/-- A product through its scale into a slot: MULT, EXP, rounding by the lane's generator (R110, R111). -/
def addProduct (t e proj : Nat) (p : Desc) (cls lane sgrp i m : Nat) (prod : Int) (acc : AddAcc) : AddAcc :=
  let x := acc.d.scale t e (acc.d.scaleIx t e proj sgrp i)
  let y := contribution (prod * (x.1 : Nat)) x.2 (acc.d.proj t e proj NE_PROJ_SROUND != 0) ((acc.d.eng t e).sr.getD lane 0)
  addOne t e p cls i m y.1 { acc with d := acc.d.roundStep t e lane y.2 }

/-! ## Pieces of an event -/

/-- The event has `n` more parts in this engine that its copy waits for (R117, R128). -/
def Dev.addPiece (d : Dev) (t e copy n : Nat) : Dev :=
  let g := d.eng t e
  d.setEng t e { g with pieces := Tab.upd 0 g.pieces copy (· + n) }

/-- A part of the event is done; the last reports the event handled in this engine (R143). -/
def Dev.endPiece (d : Dev) (t e copy : Nat) : Dev :=
  let g := d.eng t e
  let n := Tab.get 0 g.pieces copy
  let d := d.setEng t e { g with pieces := Tab.set 0 g.pieces copy (n - 1) }
  if n ≤ 1 then d.copyDone t copy else d

/-! ## Gather -/

/-- Scale lines fetched beyond the first of a row's words (R108). DEDUCED, log entry 10. -/
def scaleFetches (ix : List Nat) : Nat :=
  match ix with
  | [] => 0
  | i :: r => (r.foldl (fun (acc : Nat × Nat) k => if k / 32 = acc.1 then acc else (k / 32, acc.2 + 1)) (i / 32, 0)).2

/-- The scale lines that a flush of the held state reads, one for each flagged target. -/
def Dev.flushScales (d : Dev) (t e : Nat) : List Nat :=
  match (d.eng t e).gather with
  | none => []
  | some h => h.partials.map (fun x => d.scaleIx t e h.proj h.sgrp x.1)

/-- Address of the 64-byte scale line that holds scale `i`. -/
def scaleUnit (t e i : Nat) : Nat := engBase t e + 0x2F0000 + i / 32 * 64

/-- The damaged unit that a flush of the held state meets. -/
def Dev.flushHit (d : Dev) (t e : Nat) (bad : Option Nat) : Option Nat :=
  bad.filter (fun u => ((d.flushScales t e).map (scaleUnit t e)).contains u)

/-- The additions of a flush: each flagged target, in ascending order, takes its partial through the scale, rounded once (R108, R116).
DESIGN CHOICE, log entry 32. -/
def Dev.flushAdds (d : Dev) (t e : Nat) (h : Gather) : AddAcc :=
  h.partials.foldl (fun acc x => addProduct t e h.proj (d.pop t e (d.proj t e h.proj NE_PROJ_TPOP)) (if h.express then 0 else 1)
    (x.1 % 32) h.sgrp x.1 h.tick x.2 acc) { d := d.setEng t e { d.eng t e with gather := none } }

/-- The held gather state is flushed: its additions are made, its late and early drops recorded with key 0, and the copies that
waited on it are reported (R108, R116, R117). DESIGN CHOICE, log entry 32. -/
def Dev.gatherFlush (d : Dev) (t e : Nat) : Dev :=
  match (d.eng t e).gather with
  | none => d
  | some h =>
    let acc := d.flushAdds t e h
    let d' := acc.d.lateDrops t e h.ctx (if h.express then 0 else 1) 0 acc.late acc.early
    let i := engIx t e * 20
    let fetch := scaleFetches (h.partials.map (fun x => d'.scaleIx t e h.proj h.sgrp x.1))
    h.copies.foldl (fun d c => d.endPiece t e c)
      (((d'.bump NE_SPCNT (i + 16) 1).bump NE_SPCNT (i + 11) fetch).bump NE_SPCNT (i + 3) (32 * fetch))

/-- The held gather state is lost as one row at DP-ENG-ROWLOST: a scale line that its flush needs has no good copy left (R130, R132).
DESIGN CHOICE, log entry 32. -/
def Dev.gatherLost (d : Dev) (t e : Nat) : Dev :=
  let g := d.eng t e
  match g.gather with
  | none => d
  | some h =>
    let d := (d.setEng t e { g with gather := none }).drop .engRowLost (engIx t e) h.ctx (if h.express then 0 else 1) 0 1
    h.copies.foldl (fun d c => d.endPiece t e c) d

/-- Held gather states of a context are flushed in every engine (R116). -/
def Dev.flushContext (d : Dev) (c : Nat) : Dev :=
  (List.range 288).foldl (fun d k =>
    if (d.eng (k / 9) (k % 9)).gather.any (fun h => h.ctx == c) then d.gatherFlush (k / 9) (k % 9) else d) d

/-- Window base of a gathered row: its lowest target, clipped taps and skip entries excluded, rounded down to a multiple of
32; none when it has no target (R115). DEDUCED, log entry 5. -/
def gatherBase : List Syn → Option Nat
  | [] => none
  | s :: r => some (r.foldl (fun a x => min a x.tgt.toNat) s.tgt.toNat / 32 * 32)

/-- Whether a gathered row whose live targets are `whole` opens or joins a state of another key than the held one, so that the held
state is flushed first (R115, R116). -/
def Dev.gatherDiffers (d : Dev) (t e : Nat) (ctx : Nat) (x : BitVec 128) (n : Nat) (whole : List Syn) : Bool :=
  match gatherBase whole, whole.head?, (d.eng t e).gather with
  | some w, some s0, some h =>
    !(h.ctx == ctx && h.proj == rdProj x && h.sgrp == rdSgrp x && h.tick == n + s0.delay && h.window == w)
  | _, _, _ => false

/-- A gathered row, or its part between two words: the products `live` are added to the partial sums of the held state, or of a new
one after a held state of another key has been flushed. `whole` are all targets of the row; a row with none leaves the held state
alone (R115, R116). DEDUCED, log entry 5. -/
def Dev.gatherRow (d : Dev) (t e : Nat) (ev : Delivered) (express : Bool) (x : BitVec 128) (n : Nat) (payload : Int)
    (whole live : List Syn) : Dev :=
  let p := rdProj x
  match gatherBase whole, whole.head? with
  | some w, some s0 =>
    let m := n + s0.delay
    let d := if d.gatherDiffers t e ev.ctx x n whole then d.gatherFlush t e else d
    if live.isEmpty then d
    else
      let g := d.eng t e
      let h : Gather := g.gather.getD ⟨ev.ctx, p, rdSgrp x, m, w, true, 0, [], []⟩
      let parts := live.foldl (fun (ps : Tab Int) s =>
        let k := s.tgt.toNat
        let old := (ps.lookup k).getD 0
        (ps.filter (fun q => q.1 < k)) ++ [(k, clampI (-8388608) 8388607 (old + s.code * payload))]
          ++ ps.filter (fun q => k < q.1)) h.partials
      let h : Gather := { h with partials := parts, express := h.express && express }
      let joins := !h.copies.contains ev.copy
      let h : Gather := if joins then { h with events := h.events + 1, copies := h.copies ++ [ev.copy] } else h
      let d := d.setEng t e { g with gather := some h }
      let d := if joins then d.addPiece t e ev.copy 1 else d
      d.bump NE_SPCNT (engIx t e * 20 + 8) live.length
  | _, _ => d

/-- Whether the held state has taken as many events as its group is wide, which flushes it after the row (R116). -/
def Dev.gatherFull (d : Dev) (t e : Nat) : Bool :=
  (d.eng t e).gather.any (fun h => decide (d.gwidth t e h.proj ≤ h.events))

/-- The flush of a full state. -/
def Dev.flushFull (d : Dev) (t e : Nat) : Dev := if d.gatherFull t e then d.gatherFlush t e else d

/-! ## Rows -/

/-- The bounds entry of a context in an engine (R435). -/
def Dev.bounds (d : Dev) (t e c : Nat) : Option W64 :=
  ((List.range 4).map (fun k => d.rd NE_BOUNDS (engIx t e * 4 + k))).find? (fun v =>
    NE_BOUNDS_VALID.get v == 1 && NE_BOUNDS_CTX.get v == c)

/-- Start of a context's spill part and bytes in it (R541). -/
def Dev.spillPart (d : Dev) (c : Nat) : Nat × Nat :=
  let b := d.fld MEM_CTX c MEM_CTX_BASE
  let s := d.fld MEM_CTX c MEM_CTX_SIZE
  let h := d.fld MEM_CTX c MEM_CTX_HOME
  ((b + h) * 2 ^ 26, (s - h) * 2 ^ 26)

/-- Whether a row lies outside its context's bounds (R436). -/
def Dev.rowOutside (d : Dev) (t e : Nat) (x : BitVec 128) : Bool :=
  match d.bounds t e (rdCtx x) with
  | none => true
  | some b =>
    let words := rowWords (rdFmt x) (rdLen x)
    let p := rdProj x
    let tg := d.proj t e p NE_PROJ_TGRP_COUNT
    let s0 := d.proj t e p NE_PROJ_SCALE_BASE + rdSgrp x * tg
    let word := if rdSpill x then decide (rdAddr x * 64 + words * 64 > (d.spillPart (rdCtx x)).2)
      else decide (words > 0) && (decide (rdAddr x < NE_BOUNDS_SMEM_LO.get b)
        || decide (rdAddr x + words - 1 > NE_BOUNDS_SMEM_HI.get b))
    let scale := decide (tg > 0) && (decide (s0 < NE_BOUNDS_SCALE_LO.get b) || decide (s0 + tg - 1 > NE_BOUNDS_SCALE_HI.get b))
    word || scale

/-- SPILL_MAX in effect. -/
def Dev.spillMax (d : Dev) (t e : Nat) : Nat := min 8 (d.fld NE_SYN_CTRL (engIx t e) NE_SYN_CTRL_SPILL_MAX)

/-- Causes of DP-ENG-BADDESC that hold for empty rows too: the projection, the context, and SPILL = 1 where no landing buffer
is kept (R105, R128, R132). -/
def Dev.projBad (d : Dev) (t e : Nat) (x : BitVec 128) : Bool :=
  let p := rdProj x
  let pop := d.pop t e (d.proj t e p NE_PROJ_TPOP)
  d.proj t e p NE_PROJ_VALID == 0 || !pop.valid || pop.ctx != rdCtx x || d.proj t e p NE_PROJ_GWIDTH == 3
    || (rdSpill x && d.spillMax t e == 0)

/-- Causes of DP-ENG-BADDESC that the descriptor of a row with entries decides (R132). -/
def Dev.descRowBad (d : Dev) (t e : Nat) (x : BitVec 128) : Bool :=
  let p := rdProj x
  let words := rowWords (rdFmt x) (rdLen x)
  let kw := d.proj t e p NE_PROJ_KW
  let kh := d.proj t e p NE_PROJ_KH
  let kc := d.proj t e p NE_PROJ_KC
  let k8 := rdFmt x == 3 && (kw == 0 || kh == 0 || kc == 0 || d.proj t e p NE_PROJ_MAP_W == 0 || rdLen x != kw * kh * kc)
  let place := if rdSpill x then decide (words > 64)
    else decide (rdAddr x + words > 32768 - 64 * d.spillMax t e)
  k8 || place

/-- Causes of DP-ENG-BADDESC that a row's contents decide: the C16 header, the scale index of a synapse `live` within its
population, and the gather window over the targets `whole` of the row (R106, R115, R132). DEDUCED, log entry 5. -/
def Dev.contentBad (d : Dev) (t e : Nat) (x : BitVec 128) (rb : Nat → Nat → Nat) (whole live : List Syn) : Bool :=
  let p := rdProj x
  let hdr := rdFmt x == 1 && (bits (rb 0 8) 63 60 != 1 || bits (rb 0 8) 47 32 != rdLen x)
  let base := (d.pop t e (d.proj t e p NE_PROJ_TPOP)).base
  let sc := live.any (fun s => decide (d.scaleIx t e p (rdSgrp x) s.tgt.toNat > 16383)
    || decide ((s.tgt.toNat - base) / d.gwidth t e p ≥ d.proj t e p NE_PROJ_TGRP_COUNT))
  let gather := decide (2 ≤ rdFmt x) && d.proj t e p NE_PROJ_GATHER_EN == 1
  let wide := gather && whole.any (fun s => decide (s.tgt.toNat ≥ (gatherBase whole).getD 0 + 1024))
  hdr || sc || wide

/-- Whether a row's projection is plastic and learning is on for its context (R172, R174). -/
def Dev.plasticRow (d : Dev) (t e : Nat) (x : BitVec 128) : Bool :=
  (d.fld TUM_PLASTIC_PROJ (t * 9 + e) TUM_PLASTIC_PROJ_MASK).testBit (rdProj x) && (d.tc t (rdCtx x)).len != 0

/-- A pre record for Tumbler when the row's projection is plastic and learning is on for its context (R172, R174). -/
def Dev.preRecord (d : Dev) (t e : Nat) (j : RowJob) (n cls : Nat) : Dev :=
  if d.plasticRow t e j.desc then
    { d with preQ := Tab.upd [] d.preQ t (· ++ [⟨e, j.index, rdCtx j.desc, n, cls⟩]) }
  else d

/-- Whether Tumbler's queue has room for the pre records of rows not yet begun (R174). -/
def Dev.preRoom (d : Dev) (t e : Nat) (js : List RowJob) : Bool :=
  let need := (js.filter (fun j => !j.begun && d.plasticRow t e j.desc)).length
  need = 0 || decide ((Tab.get [] d.preQ t).length + need ≤ 64)

/-- Extra Carousel cycles of a group of additions: the most in one bank, less one (R124). -/
def carouselExtra (tgts : List Nat) : Nat :=
  ((List.range 32).map (fun b => (tgts.filter (fun i => i % 32 == b)).length)).foldl max 0 - 1

/-- The words `w0` to `w1 − 1` of a row that has passed its checks: dropped synapses, gathered or scattered products, and
the row's lane-slots; the synapses read are the live ones (R104, R108, R114, R115, R123, R124). DESIGN CHOICE, log entry 3, DEDUCED, log entry 10, DESIGN CHOICE, log entry 32. -/
def Dev.rowBody (d : Dev) (t e : Nat) (ev : Delivered) (express : Bool) (x : BitVec 128) (syns : List Syn) (w0 w1 : Nat) :
    Dev :=
  let i := engIx t e
  let cls := if express then 0 else 1
  let p := rdProj x
  let pop := d.pop t e (d.proj t e p NE_PROJ_TPOP)
  let n := fullTick (d.tickOf ev.ctx) (evTick ev.word)
  let payload : Int := if evKind ev.word = 2 then (evData ev.word % 256 : Nat) else 1
  let part := syns.filter (fun s => decide (w0 ≤ s.word) && decide (s.word < w1))
  let here := part.filter (fun s => s.live)
  let live := here.filter (synIn pop)
  let bad := here.length - live.length
  let d := d.bump NE_SDP ((i * 8 + 5) * 16 + ev.ctx * 2 + cls) here.length
  let d := if bad = 0 then d else d.drop .engSynRange i ev.ctx cls (evKey ev.word) bad
  let clipped := (part.filter (fun s => s.clip)).length
  let d := d.bump NE_SPCNT (i * 20 + 17) clipped
  let total := 32 * ((List.range (w1 - w0)).map (fun k => wordCycles (rdFmt x) (rdLen x) (w0 + k))).sum
  let lines := fun w => scaleFetches (((syns.filter (fun s => s.live && synIn pop s && decide (s.word < w)))).map
    (fun s => d.scaleIx t e p (rdSgrp x) s.tgt.toNat))
  let fetch := lines w1 - lines w0
  let d := (d.bump NE_SPCNT (i * 20 + 11) fetch).bump NE_SPCNT (i * 20 + 3) (32 * fetch)
  if 2 ≤ rdFmt x ∧ d.proj t e p NE_PROJ_GATHER_EN = 1 then
    let d := if w0 = w1 then d else d.gatherRow t e ev express x n payload (syns.filter (fun s => s.live)) live
    (d.bump NE_SPCNT (i * 20) live.length).bump NE_SPCNT (i * 20 + 1) (total - live.length)
  else
    let (acc, hits) := live.foldl (fun (a : AddAcc × List Syn) s =>
      let acc := addProduct t e p pop cls (s.pos % 32) (rdSgrp x) s.tgt.toNat (n + s.delay) (s.code * payload) a.1
      (acc, if a.1.added < acc.added then s :: a.2 else a.2)) (({ d := d } : AddAcc), [])
    let d := acc.d.lateDrops t e ev.ctx cls (evKey ev.word) acc.late acc.early
    let lanes := acc.added * (if rdFmt x = 0 then 2 else 1)
    let d := (d.bump NE_SPCNT (i * 20) lanes).bump NE_SPCNT (i * 20 + 1) (total - lanes)
    let d := d.bump NE_SPCNT (i * 20 + 8) acc.added
    let extra := ((List.range (w1 - w0)).flatMap (fun k => (List.range 4).map (fun q =>
      carouselExtra ((hits.filter (fun s => s.word == w0 + k && s.pos / 32 == q)).map (fun s => s.tgt.toNat))))).sum
    (d.bump NE_SPCNT (i * 20 + 10) extra).bump NE_SPCNT (i * 20 + 3) (32 * extra)

/-- The 64-byte units whose damage stops a row at a word: the word itself, and the scale lines its synapses use. -/
def Dev.wordUnits (d : Dev) (t e : Nat) (x : BitVec 128) (syns : List Syn) (rowBase w : Nat) : List Nat :=
  (rowBase + 64 * w) :: ((syns.filter (fun s => s.word == w && s.live && decide (0 ≤ s.tgt))).map (fun s =>
    engBase t e + 0x2F0000 + d.scaleIx t e (rdProj x) (rdSgrp x) s.tgt.toNat / 32 * 64))

/-- A refetch is issued for a damaged unit: the stage stalls, the refetch counts and is recorded, and the lane-slots of a row's
replayed cycle are wasted (R123, R130). -/
def Dev.issueRefetch (d : Dev) (t e : Nat) (r : Refetch) : Dev :=
  let i := engIx t e
  let g := d.eng t e
  let d := (d.setEng t e { g with refetch := some r }).bump NE_SPCNT (i * 20 + 15) 1
  let d := if r.rows.isSome && !r.flush then d.bump NE_SPCNT (i * 20 + 1) 32 else d
  (d.occur 0x3206 2 r.ev.ctx (srcEng t e) 0).damaged r.unit

/-- The held state is flushed, or, where its flush meets the damaged unit `bad`, that unit is refetched first; a flush that a refetch
in progress is for waits (R116, R130). -/
def Dev.flushOrRefetch (d : Dev) (t e : Nat) (bad : Option Nat) : Dev :=
  let g := d.eng t e
  if g.refetch.any (fun r => r.flush) then d
  else
    match d.flushHit t e bad, g.gather with
    | some u, some h =>
      if g.refetch.isSome then d
      else d.issueRefetch t e ⟨u, ⟨0, h.ctx, if h.express then 0 else 1, 0, 0⟩, h.express, some [], none, true, true⟩
    | _, _ => d.gatherFlush t e

/-- A held gather state of projection `p` is flushed (R116). -/
def Dev.flushProj (d : Dev) (t e p : Nat) : Dev :=
  if (d.eng t e).gather.any (fun h => h.proj == p) then d.gatherFlush t e else d

/-- A write of NE_PROJ_p that takes effect: a held gather state of the projection is flushed under the old value (R116, R134). -/
def Dev.projWrite (d : Dev) (t e p : Nat) (half : Half) (v : W64) : Dev :=
  (d.flushProj t e p).store NE_PROJ (engIx t e * 32 + p) half v

/-- Whether a row of projection `p` that has begun, or a flush of its state, waits on a refetch (R134). -/
def Dev.projBusy (d : Dev) (t e p : Nat) : Bool :=
  let g := d.eng t e
  g.refetch.any (fun r => (r.flush && g.gather.any (fun h => h.proj == p))
    || (r.rows.getD []).any (fun j => j.begun && rdProj j.desc == p) || (r.landed.isSome && (r.rows.getD []).any (fun j => rdProj j.desc == p)))

/-- Writes of NE_PROJ that waited for a row take effect in order (R134). -/
def Dev.projSettle (d : Dev) (t e : Nat) : Dev :=
  let g := d.eng t e
  let ws := g.projDue.filter (fun w => !(d.projBusy t e w.1))
  if ws.isEmpty then d
  else ws.foldl (fun d w => d.projWrite t e w.1 w.2.1 w.2.2)
    (d.setEng t e { g with projDue := g.projDue.filter (fun w => d.projBusy t e w.1) })

/-! ## Landing buffers -/

/-- The LPDDR5X controller that a spilled row is fetched from (R538). -/
def Dev.jobController (d : Dev) (j : RowJob) : Nat := lpddrController ((d.spillPart (rdCtx j.desc)).1 + rdAddr j.desc * 64)

/-- Row fetches outstanding at an LPDDR5X controller. -/
def Dev.spillOut (d : Dev) (ctl : Nat) : Nat :=
  d.engs.foldl (fun n g => n + (g.2.parked.filter (fun k => k.issued && k.landed.isNone && d.jobController k.job == ctl)).length) 0

/-- Landing buffers in use: each issued row holds one until it is integrated (R128). DESIGN CHOICE, log entry 32. -/
def Engine.landing (g : Engine) : Nat :=
  (g.parked.filter (fun k => k.issued)).length + (if g.refetch.any (fun r => r.landed.isSome) then 1 else 0)

/-- SPILL_FETCH_SAMPLE: the tile firmware samples the descriptor of one spill fetch in every 64 (R223). -/
def Dev.sampleFetch (d : Dev) (t e i : Nat) : Dev :=
  let n := (Tab.get 0 d.fetched t + 1) % 64
  let d := { d with fetched := Tab.set 0 d.fetched t n }
  if n = 0 then { d with samples := Tab.upd 0 d.samples (engIx t e * 8192 + i) (· + 1) } else d

/-- Spilled rows that wait issue their fetches in order while a landing buffer is free and their controller has fewer than 256
row fetches outstanding (R46, R128). -/
def Dev.issueSpill (d : Dev) (t e : Nat) : Nat → Dev
  | 0 => d
  | k + 1 =>
    let g := d.eng t e
    match g.parked.findIdx? (fun x => !x.issued) with
    | none => d
    | some i =>
      if g.landing < d.spillMax t e ∧ (g.parked[i]?).all (fun x => decide (d.spillOut (d.jobController x.job) < 256)) then
        let d := d.setEng t e { g with parked := g.parked.modify i (fun x => { x with issued := true }) }
        let d := (g.parked[i]?).elim d (fun x => d.sampleFetch t e x.job.index)
        (d.bump NE_SPCNT (engIx t e * 20 + 12) 1).issueSpill t e k
      else d

/-- Engines whose spilled rows wait for a controller go on. -/
def Dev.issueWaiting (d : Dev) : Dev :=
  (d.engs.filter (fun g => g.2.parked.any (fun k => !k.issued))).foldl (fun d g => d.issueSpill (g.1 / 9) (g.1 % 9) 8) d

/-- A parked row leaves; spilled rows that waited may issue their fetches (R128). -/
def Dev.unpark (d : Dev) (t e k : Nat) : Dev :=
  let g := d.eng t e
  (d.setEng t e { g with parked := g.parked.eraseIdx k }).issueSpill t e 8

/-- Drop of a whole row. -/
def Dev.dropRow (d : Dev) (t e : Nat) (p : DropPt) (ev : Delivered) (express : Bool) : Dev :=
  d.drop p (engIx t e) ev.ctx (if express then 0 else 1) (evKey ev.word) 1

/-- How far a row came: to its end, to a word whose unit is damaged, to a flush before its products or after them that a damaged
scale line stops. -/
inductive RowStop where
  | done
  | word (j : RowJob) (u : Nat)
  | flushBefore (j : RowJob) (u : Nat)
  | flushAfter (u : Nat)

/-- Whether the rows of a descriptor are gathered (R115). -/
def Dev.gathers (d : Dev) (t e : Nat) (x : BitVec 128) : Bool :=
  decide (2 ≤ rdFmt x) && d.proj t e (rdProj x) NE_PROJ_GATHER_EN == 1

/-- The scale index and the gather window of a D4 or K8 row, which its descriptor alone decides (R106, R115, R128). -/
def Dev.geometryBad (d : Dev) (t e : Nat) (x : BitVec 128) : Bool :=
  let whole := (d.synapses t e x (fun _ _ => 0)).filter (fun s => s.live)
  d.contentBad t e x (fun _ _ => 0) whole (whole.filter (synIn (d.pop t e (d.proj t e (rdProj x) NE_PROJ_TPOP))))

/-- Whether a row fails a cause of DP-ENG-BADDESC before any word of it is read (R128, R132). -/
def Dev.rowBad (d : Dev) (t e : Nat) (x : BitVec 128) : Bool :=
  d.projBad t e x || (rdLen x != 0 && (d.descRowBad t e x || (rdSpill x && decide (2 ≤ rdFmt x) && d.geometryBad t e x)))

/-- The words of a row that is on die or has landed, from its next word on: the checks of its contents, a flush that its gather state
needs first, its products, the flush of a full state (R115, R116, R128, R130). -/
def Dev.rowWordsFrom (d : Dev) (t e : Nat) (ev : Delivered) (express : Bool) (j : RowJob) (landed : Option (List Byte))
    (bad : Option Nat) : Dev × RowStop :=
  let x := j.desc
  let base := if rdSpill x then (d.spillPart (rdCtx x)).1 + rdAddr x * 64 else engBase t e + rdAddr x * 64
  let rb (o k : Nat) : Nat := match landed with
    | some bs => at_ bs o k
    | none => d.ld (base + o) k
  let syns := d.synapses t e x rb
  let pop := d.pop t e (d.proj t e (rdProj x) NE_PROJ_TPOP)
  let whole := syns.filter (fun s => s.live)
  let live := whole.filter (synIn pop)
  let words := rowWords (rdFmt x) (rdLen x)
  let n := fullTick (d.tickOf ev.ctx) (evTick ev.word)
  if j.word = 0 ∧ d.contentBad t e x rb whole live then ((d.dropRow t e .engBadDesc ev express).flushFull t e, .done)
  else
    match (if d.gathers t e x && d.gatherDiffers t e ev.ctx x n whole then d.flushHit t e bad else none) with
    | some u => (d, .flushBefore { j with begun := true } u)
    | none =>
      let stop := match bad with
        | none => none
        | some u => (List.range words).find? (fun w => decide (j.word ≤ w) && (d.wordUnits t e x live base w).contains u)
      let d := d.rowBody t e ev express x syns j.word (stop.getD words)
      match stop with
      | some w => (d, .word { j with word := w, begun := true } (bad.getD 0))
      | none =>
        let d := d.bump NE_SPCNT (engIx t e * 20 + 7) 1
        if d.gatherFull t e then
          match d.flushHit t e bad with
          | some u => (d, .flushAfter u)
          | none => (d.gatherFlush t e, .done)
        else (d, .done)

/-- One row of an event, from its next word on: checks, empty rows, the parking of a spilled row, or its words (R105, R128, R130,
R132, R436). -/
def Dev.row (d : Dev) (t e : Nat) (ev : Delivered) (express : Bool) (j : RowJob) (landed : Option (List Byte))
    (bad : Option Nat) : Dev × RowStop :=
  let x := j.desc
  let i := engIx t e
  let n := fullTick (d.tickOf ev.ctx) (evTick ev.word)
  let first := !j.begun && landed.isNone
  if first ∧ d.rowOutside t e x then (d.dropRow t e .engBounds ev express, .done)
  else if first ∧ d.rowBad t e x then (d.dropRow t e .engBadDesc ev express, .done)
  else
    let d := if first then d.preRecord t e j n (if express then 0 else 1) else d
    if rdLen x = 0 then
      (((d.bump NE_SPCNT (i * 20 + 6) 1).bump NE_SPCNT (i * 20 + 7) 1).bump NE_SPCNT (i * 20 + 1) 32, .done)
    else if rdSpill x ∧ landed.isNone then
      let g := d.eng t e
      let k : Parked := { ev := ev, express := express, job := { j with begun := true }, issued := false }
      (((d.setEng t e { g with parked := g.parked ++ [k] }).addPiece t e ev.copy 1).issueSpill t e 8, .done)
    else d.rowWordsFrom t e ev express j landed bad

/-- The rows of an event in order; a damaged unit leaves the rest to the refetch, and a write of NE_PROJ that waited takes effect
between rows (R95, R130, R134). -/
def Dev.rows (d : Dev) (t e : Nat) (ev : Delivered) (express : Bool) (bad : Option Nat) : List RowJob → Dev
  | [] => (d.endPiece t e ev.copy).projSettle t e
  | j :: js =>
    match d.row t e ev express j none bad with
    | (d, .done) => (d.projSettle t e).rows t e ev express bad js
    | (d, .word j' u) => d.issueRefetch t e ⟨u, ev, express, some (j' :: js), none, false, false⟩
    | (d, .flushBefore j' u) => d.issueRefetch t e ⟨u, ev, express, some (j' :: js), none, true, false⟩
    | (d, .flushAfter u) => d.issueRefetch t e ⟨u, ev, express, some js, none, true, false⟩

/-! ## Events -/

/-- Lookup of an event and its rows: a damaged bucket is refetched, a miss is a non-target presentation (R41, R95,
R130). -/
def Dev.lookupEvent (d : Dev) (t e : Nat) (ev : Delivered) (express : Bool) (bad : Option Nat) : Dev :=
  let hs := d.probed t e (homeBucket (evKey ev.word)) 8
  let hit := match bad with
    | some u => hs.any (fun h => engBase t e + 0x280000 + h * 64 == u)
    | none => false
  if hit then d.issueRefetch t e ⟨bad.getD 0, ev, express, none, none, false, false⟩
  else
    match d.lookupRows t e (evKey ev.word) ev.ctx with
    | [] => (d.bump NE_SPCNT (engIx t e * 20 + 5) 1).endPiece t e ev.copy
    | js => d.rows t e ev express bad js

/-- A landed row that waited is integrated: its contents are judged, then its products are added (R128). -/
def Dev.landedRow (d : Dev) (t e : Nat) (k : Parked) (bs : List Byte) (bad : Option Nat) : Dev :=
  match d.row t e k.ev k.express k.job (some bs) bad with
  | (d, .done) => (d.endPiece t e k.ev.copy).projSettle t e
  | (d, .word j u) => d.issueRefetch t e ⟨u, k.ev, k.express, some [j], some bs, false, false⟩
  | (d, .flushBefore j u) => d.issueRefetch t e ⟨u, k.ev, k.express, some [j], some bs, true, false⟩
  | (d, .flushAfter u) => d.issueRefetch t e ⟨u, k.ev, k.express, some [], none, true, false⟩

/-- One event taken from a delivery queue (R120). -/
def Dev.takeEvent (d : Dev) (t e : Nat) (ev : Delivered) (express : Bool) (bad : Option Nat) : Dev :=
  let d := d.bump NE_SPCNT (engIx t e * 20 + 4) 1
  (d.addPiece t e ev.copy 1).lookupEvent t e ev express bad

/-- Whether an event of a queue can be taken: Tumbler's queue has room for its plastic rows (R174). -/
def Dev.eventRoom (d : Dev) (t e : Nat) (ev : Delivered) : Bool := d.preRoom t e (d.lookupRows t e (evKey ev.word) ev.ctx)

/-- Lane-slots of the core cycles that a pipeline lost, and the cycles that count by themselves (R121, R123, R126, R128). -/
def Dev.countStall (d : Dev) (t e : Nat) (y : SynStall) : Dev :=
  let i := engIx t e * 20
  let d := (d.bump NE_SPCNT (i + 2) (32 * y.front)).bump NE_SPCNT (i + 3) (32 * (y.smem + y.back + y.spill))
  (d.bump NE_SPCNT (i + 9) y.smem).bump NE_SPCNT (i + 13) y.spill

/-- What a pipeline takes next: the oldest express event, else a landed row, else the oldest ordinary event (R42, R128). -/
inductive NextTake where
  | event (ev : Delivered) (express : Bool)
  | landed (i : Nat) (k : Parked)
  | nothing
  deriving DecidableEq, Repr

/-- The choice of R42 and R128. -/
def Engine.nextTake (g : Engine) : NextTake :=
  match g.qX, g.parked.findIdx? (fun k => k.landed.isSome), g.qO with
  | ev :: _, _, _ => .event ev true
  | [], some i, _ => match g.parked[i]? with | some k => .landed i k | none => .nothing
  | [], none, ev :: _ => .event ev false
  | [], none, [] => .nothing

/-- Slot and touch-bitmap words that the additions of an event find uncorrectable are repaired first (R412). -/
def Dev.repairCells (d : Dev) (t e c : Nat) (slotBad : List (Fin 65536)) (touchBad : List (Fin 8192)) : Dev :=
  let d := slotBad.foldl (fun d w => d.cellReset t e c (engBase t e + 0x200000 + w.val * 8)) d
  touchBad.foldl (fun d w => d.cellReset t e c (engBase t e + 0x2E0000 + w.val * 8)) d

/-- EVENT_TAKE: the express queue first, then a landed row, then the ordinary queue; the event's rows are looked up and
integrated. `bad` is the 64-byte unit found uncorrectable, `corrected` the addresses of the words corrected in flight, `slotBad` and `touchBad` the slot
and touch-bitmap words that the additions find uncorrectable, `stall` the cycles lost since the last one (R120, R123, R128, R130, R412).
DESIGN CHOICE, log entry 3. -/
def execEventTake (t : Tile) (e : Eng) (bad : Option Nat) (corrected : List (BitVec 48)) (slotBad : List (Fin 65536)) (touchBad : List (Fin 8192))
    (stall : SynStall) (s : State) : Host.Outcome State Fault Refusal :=
  run (fun d =>
    let g := d.eng t e
    if g.resetting then d
    else
      let d := (corrected.foldl (fun (d : Dev) a => d.mended a.toNat) (d.bump NE_SPCNT (engIx t e * 20 + 19) corrected.length)).countStall t e stall
      if g.refetch.isSome then d
      else
        match g.nextTake with
        | .event ev x =>
          if d.eventRoom t e ev then
            let more := (d.probed t e (homeBucket (evKey ev.word)) 8).length - 1
            let d := if stall.dry then d.bump NE_SPCNT (engIx t e * 20 + 2) (32 * more) else d
            let d := d.setEng t e (if x then { g with qX := g.qX.tail } else { g with qO := g.qO.tail })
            (d.repairCells t e ev.ctx slotBad touchBad).takeEvent t e ev x bad
          else d
        | .landed i k => ((d.unpark t e i).repairCells t e k.ev.ctx slotBad touchBad).landedRow t e k (k.landed.getD []) (bad.or k.bad)
        | .nothing => d) s

/-- GATHER_FLUSH_IDLE: no event waits in either queue and no spill fetch has returned (R116). `bad` is the scale line found
uncorrectable (R130). -/
def execGatherFlushIdle (t : Tile) (e : Eng) (bad : Option Nat) (s : State) : Host.Outcome State Fault Refusal :=
  run (fun d =>
    let g := d.eng t e
    if g.qX.isEmpty && g.qO.isEmpty && !(g.parked.any (fun k => k.landed.isSome)) then d.flushOrRefetch t e bad else d) s

/-- GATHER_FLUSH_AGE: the state has been held FLUSH_AGE × 16 core cycles (R116). -/
def execGatherFlushAge (t : Tile) (e : Eng) (bad : Option Nat) (s : State) : Host.Outcome State Fault Refusal :=
  run (fun d => d.flushOrRefetch t e bad) s

/-- The first 64-byte unit of a stretch that holds the poison code (R539). -/
def Dev.poisoned (d : Dev) (a words : Nat) : Option Nat := ((List.range words).map (fun w => a + 64 * w)).find? (fun u => d.poison.contains u)

/-- SPILL_ROW_LAND: parked row `k` lands; it is integrated at once when no express event waits and nothing stalls the pipeline, else in
its turn. `bad` is a word of it found uncorrectable, as a unit with the poison code is (R128, R130, R539). -/
def execSpillRowLand (t : Tile) (e : Eng) (k : Nat) (bad : Option Nat) (s : State) : Host.Outcome State Fault Refusal :=
  run (fun d =>
    let g := d.eng t e
    match g.parked[k]? with
    | none => d
    | some r =>
      if !r.issued || r.landed.isSome then d
      else
        let x := r.job.desc
        let a := (d.spillPart (rdCtx x)).1 + rdAddr x * 64
        let n := rowWords (rdFmt x) (rdLen x)
        let bs := d.ldBytes a (64 * n)
        let bad := (bad.map (fun w => a + 64 * w)).or (d.poisoned a n)
        if g.qX.isEmpty && g.refetch.isNone then ((d.unpark t e k).landedRow t e r bs bad).issueWaiting
        else (d.setEng t e { g with parked := g.parked.set k { r with landed := some bs, bad := bad } }).issueWaiting) s

/-- Address of the good copy of a damaged unit: the engine image of R130, or a spilled row's home copy when its context
keeps one, else the unit itself. -/
def Dev.goodCopy (d : Dev) (t e : Nat) (r : Refetch) : Nat :=
  let img := d.fld NE_HOME_BASE (engIx t e) NE_HOME_BASE_IMAGE * 64
  let o := r.unit - engBase t e
  if r.unit < usableBytes then
    let c := r.ev.ctx
    let mirror := match d.bounds t e c with | some b => NE_BOUNDS_SPILL_MIRROR.get b == 1 | none => false
    if mirror then d.fld MEM_CTX c MEM_CTX_BASE * 2 ^ 26 + (r.unit - (d.spillPart c).1) else r.unit
  else if o < 0x200000 then img + o
  else if o < 0x2A0000 then img + 0x208000 + (o - 0x280000)
  else img + 0x200000 + (o - 0x2F0000)

/-- The rows that a refetch leaves to do find room in Tumbler's queue; an event whose lookup failed looks up again (R174). -/
def Dev.returnRoom (d : Dev) (t e : Nat) (r : Refetch) (ok : Bool) : Bool :=
  match r.rows with
  | some js => d.preRoom t e js
  | none => !ok || d.eventRoom t e r.ev

/-- A landed row goes on after its refetch: a damaged unit of the row itself is mended in its landing buffer alone (R130).
DESIGN CHOICE, log entry 32. -/
def Dev.landedReturn (d : Dev) (t e : Nat) (r : Refetch) (j : RowJob) (bs good : List Byte) (bad : Option Nat) : Dev :=
  let x := j.desc
  let a := (d.spillPart (rdCtx x)).1 + rdAddr x * 64
  let bs := if r.unit < usableBytes then bs.take (r.unit - a) ++ good ++ bs.drop (r.unit - a + 64) else bs
  (d.landedRow t e { ev := r.ev, express := r.express, job := j } bs bad).issueSpill t e 8

/-- The refetched unit is good: it is written back, a flush that waited on it is done, and the pipeline resumes (R130). -/
def Dev.refetchGood (d : Dev) (t e : Nat) (r : Refetch) (bad : Option Nat) : Dev :=
  let good := d.ldBytes (d.goodCopy t e r) 64
  let d := if r.landed.isSome && decide (r.unit < usableBytes) then d else d.stBytes r.unit good
  let d := if r.flush then d.gatherFlush t e else d
  if r.alone then d
  else
    match r.landed, r.rows with
    | some bs, some [j] => d.landedReturn t e r j bs good bad
    | _, some js => d.rows t e r.ev r.express bad js
    | _, none => d.lookupEvent t e r.ev r.express bad

/-- Its good copy is uncorrectable too: the held state, the event or the rest of the row is dropped (R130, R132). -/
def Dev.refetchLost (d : Dev) (t e : Nat) (r : Refetch) (bad : Option Nat) : Dev :=
  if r.flush then
    let d := d.gatherLost t e
    if r.alone then d
    else
      match r.landed, r.rows with
      | some bs, some [j] => d.landedReturn t e { r with unit := usableBytes } j bs [] bad
      | _, some js => d.rows t e r.ev r.express bad js
      | _, none => d
  else
    match r.rows with
    | none => (d.drop .engSidxErr (engIx t e) r.ev.ctx (if r.express then 0 else 1) (evKey r.ev.word) 1).endPiece t e r.ev.copy
    | some [] => d.endPiece t e r.ev.copy
    | some (_ :: js) => (((d.dropRow t e .engRowLost r.ev r.express).flushFull t e).rows t e r.ev r.express bad js).issueSpill t e 8

/-- REFETCH_RETURN: the unit is written back from its good copy and the pipeline resumes at the failed word; when that copy
is uncorrectable too, or holds the poison code, the event or the rest of the row is dropped. The return waits while Tumbler's queue
has no room for the rows that follow (R130 to R132, R174, R539). -/
def execRefetchReturn (t : Tile) (e : Eng) (ok : Bool) (bad : Option Nat) (s : State) :
    Host.Outcome State Fault Refusal :=
  run (fun d =>
    let g := d.eng t e
    match g.refetch with
    | none => d
    | some r =>
      let ok := ok && (d.poisoned (d.goodCopy t e r) 1).isNone
      if !(d.returnRoom t e r ok) then d
      else
        let d := d.setEng t e { g with refetch := none }
        ((if ok then d.refetchGood t e r bad else d.refetchLost t e r bad).projSettle t e).issueWaiting) s

/-! ## Registers of the synapse side -/

/-- NE_PROJ_WRITE: it takes effect between rows, after the flush of a held gather state of the projection under the old value; while a
row of the projection waits on a refetch, the write waits for its end (R116, R134). -/
def execNeProjWrite (t : Tile) (e : Eng) (p : Fin 32) (half : Half) (v : W64) (s : State) :
    Host.Outcome State Fault Refusal :=
  run (fun d =>
    let g := d.eng t e
    if d.projBusy t e p || g.projDue.any (fun w => w.1 == p.val) then d.setEng t e { g with projDue := g.projDue ++ [(p.val, half, v)] }
    else d.projWrite t e p half v) s

/-- The largest SPILL_MAX up to a value that keeps clear of the plastic region (R129). -/
def Dev.spillFit (d : Dev) (t e : Nat) : Nat → Nat
  | 0 => 0
  | k + 1 =>
    let pl := t * 9 + e
    if d.fld TUM_PL pl TUM_PL_BASE + d.fld TUM_PL pl TUM_PL_WORDS ≤ 32768 - 64 * (k + 1) then k + 1 else d.spillFit t e k

/-- SPILL_MAX takes the value `w` as far as the plastic region allows: the largest count up to it that stays clear, with SPILL_CLIP set
when that is below the value (R129). -/
def Dev.spillMaxTo (d : Dev) (t e w : Nat) : Dev :=
  let fit := d.spillFit t e (min 8 w)
  let d := d.setF NE_SYN_CTRL (engIx t e) NE_SYN_CTRL_SPILL_MAX fit
  if fit < w then d.setF NE_STATUS (engIx t e) NE_STATUS_SPILL_CLIP 1 else d

/-- SPILL_MAX_WRITE: a write of NE_SYN_CTRL; SPILL_MAX takes effect as far as the plastic region allows, and rows that wait for a
landing buffer may go on (R128, R129, R133). -/
def execSpillMaxWrite (t : Tile) (e : Eng) (v : W32) (s : State) : Host.Outcome State Fault Refusal :=
  run (fun d =>
    ((d.store NE_SYN_CTRL (engIx t e) .whole (v.setWidth 64)).spillMaxTo t e (NE_SYN_CTRL_SPILL_MAX.get (v.setWidth 64))).issueSpill t e 8) s

end Sys2Proof.Machine
end

