-- ==== Sys2Proof/Machine/Tumbler.lean ====
section
/-! DEFINITION. Tumbler: epochs and their settings (R172, R173), counts (R174, R175), sweeps (R177, R186 to R189), the
learning words (R178 to R182), modulators (R184), homeostasis (R185), write-through (R192) and its registers (R197). -/

namespace Sys2Proof.Machine

/-- Tumbler of a tile after reset: its 16 lane generators seeded from the reset seed (R180). -/
def TumTile.init : TumTile := { lfsr := (srSeeds 1).take 16 }
/-- Tumbler of a tile. -/
def Dev.tum (d : Dev) (t : Nat) : TumTile := Tab.get TumTile.init d.tums t
/-- Tumbler of a tile becomes `x`. -/
def Dev.setTum (d : Dev) (t : Nat) (x : TumTile) : Dev := { d with tums := Tab.set TumTile.init d.tums t x }

/-- Start of Tumbler working memory of a tile (R546). DEDUCED, log entry 10. -/
def tumMem (t : Nat) : Nat := sharedBase t + 0x80000
/-- Address of a learning word (R171, R178). -/
def ruleAddr (t c r w : Nat) : Nat := tumMem t + (c * 4 + r) * 64 + w * 4
/-- Address of the pre-count byte of a row descriptor (R171). -/
def preAddr (t e i : Nat) : Nat := tumMem t + 5 * 1024 + e * 8192 + i
/-- Address of the staged post-trace of a neuron: the trace the rule sees, and its POST flag (R171, R187). -/
def stageAddr (t e i : Nat) : Nat := tumMem t + 77 * 1024 + e % 2 * 16384 + i * 2
/-- Address of the dirty bit's byte of word `w` of an engine's plastic region (R171). -/
def dirtyAddr (t e w : Nat) : Nat := tumMem t + 109 * 1024 + (e * 7168 + w) / 8

/-! ## Learning words -/

/-- Assemble a learning word (R183). -/
def lrnWord (op dst a b pred k : Nat) : Nat := op * 2 ^ 28 + dst * 2 ^ 26 + a * 2 ^ 23 + b * 2 ^ 20 + pred * 2 ^ 17 + k

/-- The word of a learning op; fields it does not use are zero. -/
def LrnOp.encode : LrnOp → Nat
  | .add d a b k p => lrnWord 1 d a b p k.toNat
  | .sub d a b k p => lrnWord 2 d a b p k.toNat
  | .mul d a b k p => lrnWord 3 d a b p k.toNat
  | .mulk d a k p => lrnWord 4 d a 0 p k.toNat
  | .shr d a k p => lrnWord 5 d a 0 p k.toNat
  | .min d a b k p => lrnWord 6 d a b p k.toNat
  | .max d a b k p => lrnWord 7 d a b p k.toNat
  | .cmpge a b k p => lrnWord 8 0 a b p k.toNat
  | .cmplt a b k p => lrnWord 9 0 a b p k.toNat
  | .sel d a b k p => lrnWord 10 d a b p k.toNat
  | .srnd d a k p => lrnWord 11 d a 0 p k.toNat
  | .mov d a k p => lrnWord 12 d a 0 p k.toNat
  | .fin p => lrnWord 15 0 0 0 p 0

/-- The op of a learning word; none for an illegal OP or PRED 0b100 (R179, R180, R182). -/
def lrnDecode (w : Nat) : Option LrnOp :=
  let d := Fin.ofNat 4 (bits w 27 26)
  let a := Fin.ofNat 8 (bits w 25 23)
  let b := Fin.ofNat 8 (bits w 22 20)
  let p := Fin.ofNat 8 (bits w 19 17)
  let k := BitVec.ofNat 16 w
  if bits w 19 17 = 4 then none
  else match bits w 31 28 with
  | 1 => some (.add d a b k p)
  | 2 => some (.sub d a b k p)
  | 3 => some (.mul d a b k p)
  | 4 => some (.mulk d a k p)
  | 5 => some (.shr d a k p)
  | 6 => some (.min d a b k p)
  | 7 => some (.max d a b k p)
  | 8 => some (.cmpge a b k p)
  | 9 => some (.cmplt a b k p)
  | 10 => some (.sel d a b k p)
  | 11 => some (.srnd d a k p)
  | 12 => some (.mov d a k p)
  | 15 => some (.fin p)
  | _ => none

/-- Clamp to signed 16-bit (R179). -/
def sat16 (x : Int) : Int := clampI (-32768) 32767 x

/-- Value of a source (R179). -/
def LrnLane.src (l : LrnLane) (k : BitVec 16) (s : Fin 8) : Int :=
  match s with
  | 0 => l.w | 1 => l.e | 2 => l.dl | 3 => l.tt | 4 => l.x | 5 => l.y | 6 => l.m | 7 => k.toInt

/-- A learning register takes a value. -/
def LrnLane.put (l : LrnLane) (dst : Fin 4) (v : Int) : LrnLane :=
  match dst with
  | 0 => { l with w := v } | 1 => { l with e := v } | 2 => { l with dl := v } | 3 => { l with tt := v }

/-- Whether PRED enables the lane (R179). -/
def LrnLane.enabled (l : LrnLane) (pred : Fin 8) : Bool :=
  match pred with
  | 0 => true | 1 => l.pre | 2 => l.post | 3 => l.p | 4 => false | 5 => !l.pre | 6 => !l.post | 7 => !l.p

/-- Whether a rule runs without fault: every word up to its END is legal, and there is an END (R182). -/
def ruleOk : List Nat → Bool
  | [] => false
  | w :: r => match lrnDecode w with
    | none => false
    | some (.fin _) => true
    | some _ => ruleOk r

/-- The words of a rule slot. -/
def Dev.ruleWords (d : Dev) (t c r : Nat) : List Nat := (List.range 16).map (fun w => d.ld (ruleAddr t c r w) 4)

/-- A lane executes a learning op when that is the next word of its rule (R182); `f` is the op's effect. -/
def Dev.learn (d : Dev) (t : Nat) (lane : Nat) (op : LrnOp) (f : LrnLane → LrnLane) : Dev :=
  let g := d.tum t
  match g.sweep with
  | none => d
  | some sw =>
    match sw.word with
    | none => d
    | some (a, ls) =>
      match ls[lane]? with
      | none => d
      | some l =>
        if !l.done ∧ lrnDecode (d.ld (ruleAddr t sw.ctx l.rule l.pc) 4) = some op then
          let l' := f l
          d.setTum t { g with sweep := some { sw with word := some (a, ls.set lane { l' with pc := l.pc + 1 }) } }
        else d

/-- A learning op that computes a register of an enabled lane. -/
def Dev.learnReg (d : Dev) (t lane : Nat) (op : LrnOp) (pred : Fin 8) (dst : Fin 4) (v : LrnLane → Int) : Dev :=
  d.learn t lane op (fun l => if l.enabled pred then l.put dst (v l) else l)

/-- LRN_ADD (R180). -/
def execLrnAdd (t : Tile) (lane : Fin 16) (dst : Fin 4) (a b : Fin 8) (k : BitVec 16) (pred : Fin 8) (s : State) :
    Host.Outcome State Fault Refusal :=
  run (fun d => d.learnReg t lane (.add dst a b k pred) pred dst (fun l => sat16 (l.src k a + l.src k b))) s

/-- LRN_SUB (R180). -/
def execLrnSub (t : Tile) (lane : Fin 16) (dst : Fin 4) (a b : Fin 8) (k : BitVec 16) (pred : Fin 8) (s : State) :
    Host.Outcome State Fault Refusal :=
  run (fun d => d.learnReg t lane (.sub dst a b k pred) pred dst (fun l => sat16 (l.src k a - l.src k b))) s

/-- LRN_MUL (R180). -/
def execLrnMul (t : Tile) (lane : Fin 16) (dst : Fin 4) (a b : Fin 8) (k : BitVec 16) (pred : Fin 8) (s : State) :
    Host.Outcome State Fault Refusal :=
  run (fun d => d.learnReg t lane (.mul dst a b k pred) pred dst (fun l => sat16 (rha (l.src k a * l.src k b) 256))) s

/-- LRN_MULK (R180). -/
def execLrnMulk (t : Tile) (lane : Fin 16) (dst : Fin 4) (a : Fin 8) (k : BitVec 16) (pred : Fin 8) (s : State) :
    Host.Outcome State Fault Refusal :=
  run (fun d => d.learnReg t lane (.mulk dst a k pred) pred dst (fun l => sat16 (rha (l.src k a * k.toInt) 256))) s

/-- LRN_SHR (R180). -/
def execLrnShr (t : Tile) (lane : Fin 16) (dst : Fin 4) (a : Fin 8) (k : BitVec 16) (pred : Fin 8) (s : State) :
    Host.Outcome State Fault Refusal :=
  run (fun d => d.learnReg t lane (.shr dst a k pred) pred dst
    (fun l => l.src k a / ((2 ^ (k.toNat % 16) : Nat) : Int))) s

/-- LRN_MIN (R180). -/
def execLrnMin (t : Tile) (lane : Fin 16) (dst : Fin 4) (a b : Fin 8) (k : BitVec 16) (pred : Fin 8) (s : State) :
    Host.Outcome State Fault Refusal :=
  run (fun d => d.learnReg t lane (.min dst a b k pred) pred dst (fun l => Min.min (l.src k a) (l.src k b))) s

/-- LRN_MAX (R180). -/
def execLrnMax (t : Tile) (lane : Fin 16) (dst : Fin 4) (a b : Fin 8) (k : BitVec 16) (pred : Fin 8) (s : State) :
    Host.Outcome State Fault Refusal :=
  run (fun d => d.learnReg t lane (.max dst a b k pred) pred dst (fun l => Max.max (l.src k a) (l.src k b))) s

/-- LRN_CMPGE: P, written 0 where PRED does not enable the lane (R180). -/
def execLrnCmpge (t : Tile) (lane : Fin 16) (a b : Fin 8) (k : BitVec 16) (pred : Fin 8) (s : State) :
    Host.Outcome State Fault Refusal :=
  run (fun d => d.learn t lane (.cmpge a b k pred) (fun l =>
    { l with p := cmpFlag (l.enabled pred) (decide (l.src k a ≥ l.src k b)) })) s

/-- LRN_CMPLT (R180). -/
def execLrnCmplt (t : Tile) (lane : Fin 16) (a b : Fin 8) (k : BitVec 16) (pred : Fin 8) (s : State) :
    Host.Outcome State Fault Refusal :=
  run (fun d => d.learn t lane (.cmplt a b k pred) (fun l =>
    { l with p := cmpFlag (l.enabled pred) (decide (l.src k a < l.src k b)) })) s

/-- LRN_SEL (R180). -/
def execLrnSel (t : Tile) (lane : Fin 16) (dst : Fin 4) (a b : Fin 8) (k : BitVec 16) (pred : Fin 8) (s : State) :
    Host.Outcome State Fault Refusal :=
  run (fun d => d.learnReg t lane (.sel dst a b k pred) pred dst (fun l => if l.p then l.src k a else l.src k b)) s

/-- The state of a lane's sweep word is such that it executes `op` next. DEDUCED, log entry 6. -/
def Dev.learns (d : Dev) (t lane : Nat) (op : LrnOp) (pred : Fin 8) : Bool :=
  match (d.tum t).sweep with
  | none => false
  | some sw =>
    match sw.word with
    | none => false
    | some (_, ls) =>
      match ls[lane]? with
      | none => false
      | some l => !l.done && lrnDecode (d.ld (ruleAddr t sw.ctx l.rule l.pc) 4) == some op && l.enabled pred

/-- LRN_SRND: stochastic rounding by the lane's generator, which then steps once (R180). -/
def execLrnSrnd (t : Tile) (lane : Fin 16) (dst : Fin 4) (a : Fin 8) (k : BitVec 16) (pred : Fin 8) (s : State) :
    Host.Outcome State Fault Refusal :=
  run (fun d =>
    let r := (d.tum t).lfsr.getD lane 0
    let n := 2 ^ (k.toNat % 16)
    let hit := d.learns t lane (.srnd dst a k pred) pred
    let d := d.learnReg t lane (.srnd dst a k pred) pred dst
      (fun l => sat16 ((l.src k a + ((r.toNat % n : Nat) : Int)) / (n : Int)))
    let g := d.tum t
    if hit then d.setTum t { g with lfsr := g.lfsr.set lane (lfsrStep 0xB400 r) } else d) s

/-- LRN_MOV (R180). -/
def execLrnMov (t : Tile) (lane : Fin 16) (dst : Fin 4) (a : Fin 8) (k : BitVec 16) (pred : Fin 8) (s : State) :
    Host.Outcome State Fault Refusal :=
  run (fun d => d.learnReg t lane (.mov dst a k pred) pred dst (fun l => l.src k a)) s

/-- The values END commits: W and E to eight bits, D to within one of the old delay and then to the ring (R181). -/
def LrnLane.commit (l : LrnLane) : LrnLane :=
  { l with
    w := clampI (-128) 127 l.w
    e := clampI (-128) 127 l.e
    dl := clampI 1 l.maxD (clampI ((l.oldD : Int) - 1) (l.oldD + 1) l.dl) }

/-- LRN_END: an enabled lane commits; a lane that PRED leaves out commits nothing and keeps its synapse (R181). -/
def execLrnEnd (t : Tile) (lane : Fin 16) (pred : Fin 8) (s : State) : Host.Outcome State Fault Refusal :=
  run (fun d => d.learn t lane (.fin pred) (fun l =>
    if l.enabled pred then { l.commit with done := true } else { l with done := true, rule := 4 })) s

/-! ## Sweeps -/

/-- Nibble of a count byte for an epoch's parity (R169). -/
def countOf (b : Byte) (odd : Bool) : Nat := if odd then b.toNat / 16 else b.toNat % 16
/-- The count byte with that nibble cleared. -/
def countClear (b : Byte) (odd : Bool) : Byte := if odd then b &&& 0x0F else b &&& 0xF0
/-- The count byte with that nibble one higher, saturating at 15. -/
def countUp (b : Byte) (odd : Bool) : Byte :=
  if odd then BitVec.ofNat 8 (b.toNat % 16 + 16 * min 15 (b.toNat / 16 + 1))
  else BitVec.ofNat 8 (min 15 (b.toNat % 16 + 1) + 16 * (b.toNat / 16))

/-- A changed 64-byte unit is listed for the write-through (R192). -/
def Dev.markChanged (d : Dev) (t a : Nat) : Dev :=
  let g := d.tum t
  let u := a / 64 * 64
  if g.changed.contains u then d else d.setTum t { g with changed := g.changed ++ [u] }

/-- Post-traces and post counts of the neurons of a context in an engine, with what the rule sees staged (R177, R187). -/
def Dev.postTraces (d : Dev) (t e c : Nat) (odd : Bool) : Dev :=
  let ky := d.fld TUM_TRACE (t * 8 + c) TUM_TRACE_KY
  let inc := d.fld TUM_TRACE (t * 8 + c) TUM_TRACE_INCY
  ((d.popsOf t e c).flatMap (fun k => let p := d.pop t e k; (List.range p.size).map (p.base + ·))).foldl (fun d i =>
    let y := (rha ((d.ldB (traceAddr t e i)).toNat * ky : Nat) 256).toNat
    let b := d.ldB (traceAddr t e (8192 + i))
    let n := countOf b odd
    let d := d.stB (traceAddr t e i) (BitVec.ofNat 8 (min 255 (y + inc * n)))
    let d := d.stB (traceAddr t e (8192 + i)) (countClear b odd)
    (d.stB (stageAddr t e i) (BitVec.ofNat 8 y)).stB (stageAddr t e i + 1) (if n > 0 then 1 else 0)) d

/-- Valid descriptors of the plastic projections of a context, in entry order (R187). -/
def Dev.plasticEntries (d : Dev) (t e c : Nat) : List Nat :=
  let mask := d.fld TUM_PLASTIC_PROJ (t * 9 + e) TUM_PLASTIC_PROJ_MASK
  (d.validEntries t e).filter (fun i => rdCtx (d.sidx t e i) == c && mask.testBit (rdProj (d.sidx t e i)))

/-- Homeostatic adjustment of one scale word (R185). -/
def homeoMult (mult mean target band : Nat) : Nat :=
  if mean > target + band ∧ mult > 1 then mult - 1
  else if mean + band < target ∧ mult < 255 ∧ mult > 0 then mult + 1 else mult

/-- Homeostatic adjustment of the enabled projections of an engine (R185). -/
def Dev.homeo (d : Dev) (t e c : Nat) : Dev :=
  let target := d.fld TUM_HOMEO (t * 8 + c) TUM_HOMEO_Y_TARGET
  let band := d.fld TUM_HOMEO (t * 8 + c) TUM_HOMEO_BAND
  (List.range 32).foldl (fun d p =>
    let hp := (t * 9 + e) * 32 + p
    let pop := d.pop t e (d.proj t e p NE_PROJ_TPOP)
    if d.flag TUM_HPROJ hp TUM_HPROJ_EN ∧ d.proj t e p NE_PROJ_VALID = 1 ∧ pop.ctx = c then
      let w := d.gwidth t e p
      let tg := d.proj t e p NE_PROJ_TGRP_COUNT
      (List.range tg).foldl (fun d g =>
        let members := (List.range w).filter (fun k => decide (g * w + k < pop.size))
        if members.length = 0 then d
        else
          let sum := (members.map (fun k => (d.ldB (traceAddr t e (pop.base + g * w + k))).toNat)).sum
          let mean := sum / members.length
          (List.range (d.fld TUM_HPROJ hp TUM_HPROJ_NSGRP + 1)).foldl (fun d s =>
            let ix := d.proj t e p NE_PROJ_SCALE_BASE + s * tg + g
            let a := engBase t e + 0x2F0000 + 2 * ix + 1
            let m := (d.ldB a).toNat
            let m' := homeoMult m mean target band
            if m' = m ∨ ix > 16383 then d else (d.stB a (BitVec.ofNat 8 m')).markChanged t a) d) d
    else d) d

/-- Address in the engine image of a unit of engine memory (R130). -/
def Dev.imageOf (d : Dev) (t a : Nat) : Nat :=
  let e := (a - tileBase t) / 0x300000
  let o := a - engBase t e
  let img := d.fld NE_HOME_BASE (engIx t e) NE_HOME_BASE_IMAGE * 64
  if o < 0x200000 then img + o else if o < 0x2A0000 then img + 0x208000 + (o - 0x280000) else img + 0x200000 + (o - 0x2F0000)

/-- A unit of engine memory that Tumbler finds uncorrectable is refetched from the engine's image (R130, R194). -/
def Dev.sweepRefetch (d : Dev) (t e c a : Nat) : Dev :=
  let d := (d.bump NE_SPCNT (engIx t e * 20 + 15) 1).occur 0x3206 2 c (srcEng t e) 0
  (d.damaged a).stBytes a (d.ldBytes (d.imageOf t a) 64)

/-- Bytes of Tumbler's or trace memory found uncorrectable are set to 0, counted and recorded (R194, R412). -/
def Dev.traceReset (d : Dev) (t c a n : Nat) : Dev :=
  (((d.st a n 0).bump TUM_CNT (t * 12 + 7) 1).occur 0x3504 2 c (srcTile t) 0).damaged a

/-- A dirty-bitmap word found uncorrectable is set to ones, so that its words of plastic regions are written through again (R412). -/
def Dev.dirtyAll (d : Dev) (t c k : Nat) : Dev :=
  let e := k * 64 / 7168
  let w0 := k * 64 % 7168
  let d := (((d.fill (tumMem t + 109 * 1024 + 8 * k) 8 0xFF).bump FLT_CNT 4 1).occur 0x3B14 2 c (srcTile t) 0).damaged (tumMem t + 109 * 1024 + 8 * k)
  let pl := d.fld TUM_PL (t * 9 + e) TUM_PL_BASE
  ((List.range 64).filter (fun j => decide (w0 + j < d.fld TUM_PL (t * 9 + e) TUM_PL_WORDS))).foldl (fun d j =>
    d.markChanged t (engBase t e + (pl + w0 + j) * 64)) d

/-- What a sweep mends before it goes on; a damaged synapse word, index entry or rule acts where it is met (R130, R194, R412). -/
def Dev.sweepMend (d : Dev) (t c : Nat) : SweepFinding → Dev
  | .trace e k => d.traceReset t c (traceAddr t e (8 * k)) 8
  | .pre e i => d.traceReset t c (preAddr t e i) 1
  | .scale e l => d.sweepRefetch t e c (engBase t e + 0x2F0000 + 64 * l)
  | .dirty k => d.dirtyAll t c k
  | .synapse _ => d
  | .index _ _ _ => d
  | .rule _ => d

/-- The finding of a source-index entry: whether its image is uncorrectable too. -/
def indexFinding (found : List SweepFinding) (e i : Nat) : Option Bool :=
  found.findSome? (fun f => match f with
    | .index e' i' lost => if e'.val = e ∧ i'.val = i then some lost else none
    | _ => none)

/-- Whether a row is swept, and whether it counts as outside (R170): F32, not spilled, wholly in the plastic region. -/
def Dev.sweptRow (d : Dev) (t e : Nat) (x : BitVec 128) : Bool :=
  let b := d.fld TUM_PL (t * 9 + e) TUM_PL_BASE
  let n := d.fld TUM_PL (t * 9 + e) TUM_PL_WORDS
  !rdSpill x && decide (b ≤ rdAddr x) && decide (rdAddr x + rowWords 0 (rdLen x) ≤ b + n)

/-- One source-index entry of the walk: a damaged one is refetched with its bucket or, where the image is damaged too, ends at
DP-ENG-SIDXERR; else its pre-trace and pre count, and whether its words are read (R130, R170, R177, R187, R194). -/
def Dev.sweepEntry (d : Dev) (t e i : Nat) (found : List SweepFinding) (sw : Sweep) : Dev × Sweep :=
  match indexFinding found e i with
  | some true => (d.drop .engSidxErr (engIx t e) sw.ctx 1 (rdKey (d.sidx t e i)) 1, { sw with row := none })
  | hit =>
    let d := if hit.isSome then d.sweepRefetch t e sw.ctx (engBase t e + 0x280000 + i / 4 * 64) else d
    let x := d.sidx t e i
    let odd := sw.epoch % 2 == 1
    let n := countOf (d.ldB (preAddr t e i)) odd
    let kx := d.fld TUM_TRACE (t * 8 + sw.ctx) TUM_TRACE_KX
    let inc := d.fld TUM_TRACE (t * 8 + sw.ctx) TUM_TRACE_INCX
    let old := rdBits x 82 75
    let new := min 255 ((rha (old * kx : Nat) 256).toNat + inc * n)
    let a := engBase t e + 0x280000 + i * 16
    let d := d.st a 16 (x.toNat - old * 2 ^ 75 + new * 2 ^ 75)
    let d := if new = old then d else d.markChanged t a
    let d := d.stB (preAddr t e i) (countClear (d.ldB (preAddr t e i)) odd)
    let sw := { sw with x := new, pre := decide (n > 0), row := none }
    if rdFmt x ≠ 0 ∨ (rdLen x = 0 ∧ !rdSpill x) then (d, sw)
    else if !rdSpill x ∧ d.rowOutside t e x then (d.drop .engBounds (engIx t e) sw.ctx 1 (rdKey x) 1, sw)
    else if d.sweptRow t e x then (d, { sw with row := some (i, 0) })
    else ((d.bump TUM_CNT (t * 12 + 8) 1).occur 0x3505 1 sw.ctx (srcTile t) 0, sw)

/-- The sweep moves on to its next plastic word: rows of the engine, then R185, then the next engine. Answers whether there
is a word to read. -/
def Dev.sweepOn (d : Dev) (t : Nat) (found : List SweepFinding) : Nat → Sweep → Dev × Sweep × Bool
  | 0, sw => (d, sw, false)
  | fuel + 1, sw =>
    match sw.eng with
    | none =>
      match sw.engines with
      | [] => (d, sw, false)
      | e :: es =>
        let d := d.postTraces t e sw.ctx (sw.epoch % 2 == 1)
        d.sweepOn t found fuel { sw with eng := some e, engines := es, rows := d.plasticEntries t e sw.ctx, row := none }
    | some e =>
      let more := match sw.row with
        | some (i, w) => decide (w < rowWords 0 (rdLen (d.sidx t e i)))
        | none => false
      if more then (d, sw, true)
      else
        match sw.rows with
        | i :: is =>
          let (d, sw) := d.sweepEntry t e i found { sw with rows := is }
          d.sweepOn t found fuel sw
        | [] => (d.homeo t e sw.ctx).sweepOn t found fuel { sw with eng := none, row := none }

/-- Enough moves for nine engines of 8,192 entries. -/
def sweepFuel : Nat := 80000

/-- Engines of a tile that hold a population of a context. -/
def Dev.engsOf (d : Dev) (t c : Nat) : List Nat := (List.range 9).filter (fun e => d.holds t e c)

/-- Held rule words are applied between sweeps (R182). -/
def Dev.applyRules (d : Dev) (t : Nat) : Dev :=
  let g := d.tum t
  let d := d.setTum t { g with ruleDue := [] }
  g.ruleDue.foldl (fun d w => d.st (tumMem t + w.1) 4 w.2.toNat) d

/-- The tile starts its oldest waiting sweep when none runs: the modulator accumulators of the epoch's parity are read and
cleared (R184, R187). -/
def Dev.startSweep (d : Dev) (t : Nat) : Dev :=
  let g := d.tum t
  match g.sweep, g.sweepQ with
  | none, (c, k, since) :: q =>
    let key (ch : Nat) : Nat := (c * 4 + ch) * 2 + k % 2
    let mods := (List.range 4).map (fun ch => Tab.get 0 g.acc (key ch))
    let acc := (List.range 4).foldl (fun a ch => Tab.set 0 a (key ch) 0) g.acc
    let sw : Sweep := { ctx := c, epoch := k, since := since, engines := d.engsOf t c, mods := mods }
    let d := d.applyRules t
    let g := d.tum t
    let d := d.setTum t { g with sweepQ := q, sweep := some sw, acc := acc }
    let x := d.tc t c
    let d := if x.since = since then d.setTc t c { x with begun := some k } else d
    (d.setF TUM_STATUS t TUM_STATUS_SWEEPING 1).setF TUM_STATUS t TUM_STATUS_SWEEP_CTX c
  | _, _ => d

/-- An epoch of a context is due for its sweep in a tile. -/
def Dev.queueSweep (d : Dev) (t c k since : Nat) : Dev :=
  let g := d.tum t
  (d.setTum t { g with sweepQ := g.sweepQ ++ [(c, k, since)] }).startSweep t

/-- Whether the sweep of an epoch has begun or waits. -/
def Dev.sweepAsked (d : Dev) (t c k : Nat) : Bool :=
  let x := d.tc t c
  (x.begun.any (fun b => decide (k ≤ b))) || (d.tum t).sweepQ.any (fun q => q.1 == c && q.2.1 == k && q.2.2 == x.since)

/-- What a tile's Tumbler does at the start of tick n of a context: the ended epoch's Background sweep, and the effect of
an armed setting (R173, R186). Every tile that has a setting sweeps, also one with no engine of the context. DESIGN CHOICE, log
entry 33. -/
def Dev.tumTickStart (d : Dev) (c n : Nat) (t : Nat) : Dev :=
  let x := d.tc t c
  let first := decide (x.len ≠ 0) && decide (x.base ≤ n) && decide ((n - x.base) % x.len = 0)
  let d := if first ∧ x.base < n ∧ !d.sweepAsked t c ((n - x.base) / x.len - 1) then
      d.queueSweep t c ((n - x.base) / x.len - 1) x.since else d
  let x := d.tc t c
  let d := match x.armed with
    | some (len, base, mode) =>
      if base ≤ n ∧ (x.len = 0 ∨ first) then
        d.setTc t c { len := len, base := base, mode := mode, since := n, armed := none, begun := none }
      else d
    | none => d
  match (d.tc t c).epoch n with
  | some k => d.setF TUM_EPOCH_NOW (t * 8 + c) TUM_EPOCH_NOW_EPOCH k
  | none => d

/-- Whether a tile's unended sweeps hold the start of tick n: the first tick of epoch k + 2 waits for the sweep of k
(R189). -/
def Dev.sweepHolds (d : Dev) (c n t : Nat) : Bool :=
  let x := d.tc t c
  let first := decide (x.len ≠ 0) && decide (x.base ≤ n) && decide ((n - x.base) % x.len = 0)
  let e := (n - x.base) / x.len
  let g := d.tum t
  let open' := (g.sweepQ ++ match g.sweep with | some sw => [(sw.ctx, sw.epoch, sw.since)] | none => [])
  first && open'.any (fun q => q.1 == c && (if q.2.2 == x.since then decide (q.2.1 + 2 ≤ e) else decide (1 ≤ e)))

/-- Whether the standing request of Intermission mode asks for an Intermission after tick n (R186): tick n is the last of
an epoch in a tile whose mode is Intermission. -/
def Dev.sweepInterm (d : Dev) (c n t : Nat) : Bool :=
  let x := d.tc t c
  decide (x.len ≠ 0) && x.mode == 1 && decide (x.base ≤ n) && decide ((n + 1 - x.base) % x.len = 0)

/-! ## Words of a sweep -/

/-- A lane as it is read from an entry of a plastic word (R99, R179). -/
def Dev.loadLrn (d : Dev) (t e : Nat) (sw : Sweep) (x : BitVec 128) (v elig : Nat) : LrnLane :=
  let r := bits v 4 3
  let tgt := bits v 17 5
  let pop := d.pop t e (d.proj t e (rdProj x) NE_PROJ_TPOP)
  let st := stageAddr t e tgt
  let ch := d.fld TUM_CFG (t * 8 + sw.ctx) TUM_CFG_MODSEL / 4 ^ r % 4
  let valid := (d.fld TUM_CFG (t * 8 + sw.ctx) TUM_CFG_RULE_VALID).testBit r
  { rule := r, w := sgn 8 (bits v 31 24), e := sgn 8 elig, dl := (bits v 23 18 + 1 : Nat)
    x := sw.x, y := (d.ldB st).toNat, m := sw.mods.getD ch 0, pre := sw.pre, post := d.ldB (st + 1) != 0
    oldD := bits v 23 18 + 1, maxD := pop.depth - 1, done := !(valid && bits v 2 2 == 1) }

/-- A faulted lane: counted, recorded, unchanged (R182). -/
def Dev.ruleFault (d : Dev) (t c : Nat) : Dev :=
  ((d.bump TUM_CNT (t * 12 + 6) 1).setF TUM_STATUS t TUM_STATUS_RULE_FAULT 1).occur 0x3503 2 c (srcTile t) 0

/-- The lanes of a plastic word: those without a valid rule or a plastic synapse are done at once, and so is, unchanged, one whose rule
faults or whose slot is damaged; every other and every faulting lane counts as a synapse evaluated (R178, R182, R412).
DESIGN CHOICE, log entry 33. -/
def Dev.readLanes (d : Dev) (t e i w : Nat) (sw : Sweep) : Dev :=
  let x := d.sidx t e i
  let a := engBase t e + (rdAddr x + w) * 64
  let el := traceAddr t e (16384 + (rdAddr x + w - d.fld TUM_PL (t * 9 + e) TUM_PL_BASE) * 16)
  let lanes := (List.range (min 16 (rdLen x - 16 * w))).map (fun j => d.loadLrn t e sw x (d.ld (a + 4 * j) 4) (d.ldB (el + j)).toNat)
  let bad (l : LrnLane) : Bool := !l.done && (sw.ruleBad.contains l.rule || !ruleOk (d.ruleWords t sw.ctx l.rule))
  let d := (lanes.filter bad).foldl (fun d _ => d.ruleFault t sw.ctx) d
  let d := d.bump TUM_CNT (t * 12 + 2) ((lanes.filter (fun l => !l.done)).length)
  let lanes := lanes.map (fun l => if bad l then { l with done := true, rule := 4 } else if l.done then { l with rule := 4 } else l)
  d.setTum t { d.tum t with sweep := some { sw with row := some (i, w + 1), word := some (rdAddr x + w, lanes) } }

/-- SWEEP_WORD_READ: the next plastic word is read into the lanes; a damaged word is refetched, and where its image is damaged too the
rest of the row is dropped (R130, R178, R182, R187, R194, R412). DESIGN CHOICE, log entry 3. -/
def execSweepWordRead (t : Tile) (found : List SweepFinding) (corrected : List (BitVec 48)) (s : State) :
    Host.Outcome State Fault Refusal :=
  run (fun d =>
    match (d.tum t).sweep with
    | none => d
    | some sw =>
      if sw.word.isSome then d
      else
        let rules := found.filterMap (fun f => match f with | .rule r => some r.val | _ => none)
        let d := found.foldl (fun d f => d.sweepMend t sw.ctx f) d
        let (d, sw, more) := d.sweepOn t found sweepFuel { sw with ruleBad := sw.ruleBad ++ rules }
        match more, sw.eng, sw.row with
        | true, some e, some (i, w) =>
          let x := d.sidx t e i
          let d := corrected.foldl (fun (d : Dev) a => d.mended a.toNat) (d.bump NE_SPCNT (engIx t e * 20 + 19) corrected.length)
          if found.contains (.synapse true) then
            ((d.sweepRefetch t e sw.ctx (engBase t e + (rdAddr x + w) * 64)).setTum t { d.tum t with sweep := some { sw with row := none } }).drop
              .engRowLost (engIx t e) sw.ctx 1 (rdKey x) 1
          else
            (if found.contains (.synapse false) then d.sweepRefetch t e sw.ctx (engBase t e + (rdAddr x + w) * 64) else d).readLanes t e i w sw
        | _, _, _ => d.setTum t { d.tum t with sweep := some sw }) s

/-- SWEEP_WORD_WRITE: once every lane is done, a word with a changed field is written back with its eligibilities and
marked dirty (R181). -/
def execSweepWordWrite (t : Tile) (s : State) : Host.Outcome State Fault Refusal :=
  run (fun d =>
    let g := d.tum t
    match g.sweep with
    | none => d
    | some sw =>
      match sw.word, sw.eng with
      | some (w, ls), some e =>
        if ls.all (fun l => l.done) then
          let base := d.fld TUM_PL (t * 9 + e) TUM_PL_BASE
          let a := engBase t e + w * 64
          let el := traceAddr t e (16384 + (w - base) * 16)
          let before := d.ldBytes a 64
          let d1 := ls.zipIdx.foldl (fun d p =>
            let l := p.1
            if l.rule = 4 then d
            else
              let v := d.ld (a + 4 * p.2) 4
              let v' := v % 2 ^ 18 + enc 6 (l.dl - 1) * 2 ^ 18 + enc 8 l.w * 2 ^ 24
              (d.st (a + 4 * p.2) 4 v').stB (el + p.2) (BitVec.ofInt 8 l.e)) d
          let g := d1.tum t
          let d1 := d1.setTum t { g with sweep := some { sw with word := none } }
          if d1.ldBytes a 64 = before then d1
          else
            let da := dirtyAddr t e (w - base)
            ((d1.stB da (d1.ldB da ||| BitVec.ofNat 8 (2 ^ ((e * 7168 + (w - base)) % 8)))).markChanged t a).bump TUM_CNT (t * 12 + 3) 1
        else d
      | _, _ => d) s

/-- A write-through begins with every unit changed so far (R192). -/
def Dev.startWriteThrough (d : Dev) (t : Nat) : Dev :=
  let g := d.tum t
  match g.wt, g.ended with
  | none, ended@(_ :: _) =>
    (d.setTum t { g with wt := some (g.changed, ended), changed := [], ended := [] }).setF TUM_STATUS t TUM_STATUS_WT_BUSY 1
  | _, _ => d

/-- SWEEP_END: with no word left the tile's sweep ends; SWEPT advances, the write-through starts, and the next sweep may
start (R187, R188, R192). -/
def execSweepEnd (t : Tile) (cycles hold wait : Nat) (s : State) : Host.Outcome State Fault Refusal :=
  run (fun d =>
    match (d.tum t).sweep with
    | none => d
    | some sw =>
      if sw.word.isSome then d
      else
        let (d, sw, more) := d.sweepOn t [] sweepFuel sw
        let g := d.tum t
        if more then d.setTum t { g with sweep := some sw }
        else
          let d := d.setTum t { g with sweep := none, ended := g.ended ++ [(sw.ctx, sw.epoch)] }
          let d := { d with migrs := d.migrs.map (fun (m : Migr) => if m.ctx = sw.ctx ∧ m.src.tile = t.val then { m with swept := true } else m) }
          let d := d.setF TUM_STATUS t TUM_STATUS_SWEEPING 0
          let d := d.setF TUM_SWEPT (t * 8 + sw.ctx) TUM_SWEPT_EPOCH sw.epoch
          let d := ((d.bump TUM_CNT (t * 12) 1).bump TUM_CNT (t * 12 + 1) cycles).bump TUM_CNT (t * 12 + 4) wait
          let d := d.bump TUM_CNT (t * 12 + 5) hold
          (d.startWriteThrough t).startSweep t) s

/-- Units of the next packet of a write-through: up to eight that follow one another, 512 bytes (R192). -/
def packetUnits (l : List Nat) : Nat := ((l.take 8).zipIdx.takeWhile (fun x => x.1 == l.headD 0 + 64 * x.2)).length

/-- Units of the next `k` packets. -/
def unitsOfPackets : Nat → List Nat → Nat
  | 0, _ => 0
  | k + 1, l => packetUnits l + (if packetUnits l = 0 then 0 else unitsOfPackets k (l.drop (packetUnits l)))

/-- A unit is read for writing, its dirty bit clears, and it reaches the image (R192). -/
def Dev.writeUnit (d : Dev) (t a : Nat) : Dev :=
  let e := (a - tileBase t) / 0x300000
  let o := a - engBase t e
  let w := o / 64 - d.fld TUM_PL (t * 9 + e) TUM_PL_BASE
  let d := if o < 0x200000 then
      let da := dirtyAddr t e w
      d.stB da (d.ldB da &&& BitVec.ofNat 8 (255 - 2 ^ ((e * 7168 + w) % 8)))
    else d
  d.stBytes (d.imageOf t a) (d.ldBytes a 64)

/-- WRITE_THROUGH_COMPLETE: `packets` packets of the write-through complete; with the last of them TUM_WT advances, and what changed
since goes into the next write-through (R192). DESIGN CHOICE, log entry 3, DEDUCED, log entry 10. -/
def execWriteThroughComplete (t : Tile) (packets : Nat) (s : State) : Host.Outcome State Fault Refusal :=
  run (fun d =>
    match (d.tum t).wt with
    | none => d
    | some (units, epochs) =>
      let n := unitsOfPackets packets units
      let d := ((units.take n).foldl (fun d a => d.writeUnit t a) d).bump TUM_CNT (t * 12 + 9) (min n units.length)
      let g := d.tum t
      if n < units.length then d.setTum t { g with wt := some (units.drop n, epochs) }
      else
        let d := epochs.foldl (fun d k => d.setF TUM_WT (t * 8 + k.1) TUM_WT_EPOCH k.2) d
        ((d.setTum t { g with wt := none }).setF TUM_STATUS t TUM_STATUS_WT_BUSY 0).startWriteThrough t) s

/-! ## Counts and modulators -/

/-- Whether a stamp's epoch has begun its sweep in the tile, or the stamp precedes the setting (R174, R175). -/
def TumCtx.stale (x : TumCtx) (n : Nat) : Bool :=
  decide (n < x.since) || match x.epoch n with
    | none => true
    | some k => x.begun.any (fun b => decide (k ≤ b))

/-- TUM_PRE_RECORD: the oldest pre record adds 1 to the pre count of its epoch's parity, or is stale (R174, R175). -/
def execTumPreRecord (t : Tile) (s : State) : Host.Outcome State Fault Refusal :=
  run (fun d =>
    match Tab.get [] d.preQ t with
    | [] => d
    | r :: q =>
      let d := { d with preQ := Tab.set [] d.preQ t q }
      let x := d.tc t r.ctx
      if x.stale r.tick then d.drop .tumStale t r.ctx r.cls (rdKey (d.sidx t r.eng r.index)) 1
      else
        let a := preAddr t r.eng r.index
        let odd := ((r.tick - x.base) / x.len) % 2 == 1
        (d.stB a (countUp (d.ldB a) odd)).bump TUM_CNT (t * 12 + 10) 1) s

/-- TUM_MODULATOR: a presented modulator is added into every matching channel's accumulator of its epoch's parity, or is
dropped; the copy is then complete (R184). DEDUCED, log entry 10. -/
def execTumModulator (t : Tile) (s : State) : Host.Outcome State Fault Refusal :=
  run (fun d =>
    let g := d.tum t
    match g.modQ with
    | [] => d
    | ev :: q =>
      let d := d.setTum t { g with modQ := q }
      let c := ev.ctx
      let x := d.tc t c
      let n := fullTick (d.tickOf c) (evTick ev.word)
      let hits := (List.range 4).filter (fun ch =>
        (d.fld TUM_CFG (t * 8 + c) TUM_CFG_MOD_VALID).testBit ch
          && d.fld TUM_MOD_KEY ((t * 8 + c) * 4 + ch) TUM_MOD_KEY_KEY == evKey ev.word)
      let d :=
        if x.len = 0 ∨ hits = [] then d.drop .tumModMiss t c ev.cls (evKey ev.word) 1
        else if x.stale n then d.drop .tumStale t c ev.cls (evKey ev.word) 1
        else
          let par := ((n - x.base) / x.len) % 2
          let g := d.tum t
          let acc := hits.foldl (fun a ch =>
            Tab.upd 0 a ((c * 4 + ch) * 2 + par) (fun v => sat16 (v + sgn 16 (evData ev.word)))) g.acc
          (d.setTum t { g with acc := acc }).bump TUM_CNT (t * 12 + 11) 1
      d.copyDone t ev.copy) s

/-! ## Registers -/

/-- The setting of a context in a tile is armed from its registers (R173). -/
def Dev.armEpoch (d : Dev) (t c : Nat) : Dev :=
  let i := t * 8 + c
  d.setTc t c { d.tc t c with armed := some (d.fld TUM_EPOCH_LEN i TUM_EPOCH_LEN_LEN, d.fld TUM_EPOCH_BASE i TUM_EPOCH_BASE_BASE, d.fld TUM_EPOCH_LEN i TUM_EPOCH_LEN_MODE) }

/-- TUM_EPOCH_LEN_WRITE: arms length, base and mode (R173). -/
def execTumEpochLenWrite (t : Tile) (c : Ctx) (v : W32) (s : State) : Host.Outcome State Fault Refusal :=
  run (fun d => (d.store TUM_EPOCH_LEN (t * 8 + c) .whole (v.setWidth 64)).armEpoch t c) s

/-- The plastic region is set unless it is too long or meets the landing buffers (R129, R197). -/
def Dev.tumPl (d : Dev) (t e : Nat) (v : W64) : Dev :=
  let words := TUM_PL_WORDS.get v
  if words > 7168 ∨ TUM_PL_BASE.get v + words > 32768 - 64 * d.spillMax t e then d.setF TUM_STATUS t TUM_STATUS_CFG_ERR 1
  else d.store TUM_PL (t * 9 + e) .whole v

/-- TUM_PL_WRITE (R129, R197). -/
def execTumPlWrite (t : Tile) (e : Eng) (v : W32) (s : State) : Host.Outcome State Fault Refusal :=
  run (fun d => d.tumPl t e (v.setWidth 64)) s

/-- TUM_SEED_WRITE: the seed is held and the 16 lane generators are seeded from it (R180). -/
def execTumSeedWrite (t : Tile) (v : W32) (s : State) : Host.Outcome State Fault Refusal :=
  run (fun d =>
    let g := d.tum t
    (d.setTum t { g with lfsr := (srSeeds v).take 16 }).setF TUM_SEED t TUM_SEED_SEED v.toNat) s

/-- RULE_APERTURE_WRITE: a learning word is held, unchecked, to be applied between sweeps (R182). -/
def execRuleApertureWrite (t : Tile) (c : Ctx) (r : Fin 4) (w : Fin 16) (v : W32) (s : State) :
    Host.Outcome State Fault Refusal :=
  run (fun d =>
    let g := d.tum t
    d.setTum t { g with ruleDue := g.ruleDue ++ [((c.val * 4 + r) * 64 + w * 4, v)] }) s

/-- RULE_WRITE_APPLY: held rule words are applied when no sweep runs (R182). -/
def execRuleWriteApply (t : Tile) (s : State) : Host.Outcome State Fault Refusal :=
  run (fun d => if (d.tum t).sweep.isNone then d.applyRules t else d) s

end Sys2Proof.Machine
end

