-- ==== Sys2Proof/Machine/Midway.lean ====
section
/-! DEFINITION. Midway, the on-die mesh: the fan-out lookup (R38, R243 to R245), flits (R236 to R239), the tree (R249),
service (R246 to R248), class-0 slots (R251 to R256), combining (R258 to R260), local ports (R250), table versions (R261 to
R263), and the mirror taps (R529 to R533). -/

namespace Sys2Proof.Machine

/-! ## Route headers (R236, R237) -/

/-- CLASS. -/
def Flit.cls (f : Flit) : Nat := bits f.hdr.toNat 63 62
/-- VER. -/
def Flit.ver (f : Flit) : Nat := bits f.hdr.toNat 61 61
/-- WORDS. -/
def Flit.nwords (f : Flit) : Nat := bits f.hdr.toNat 60 59
/-- HOPS. -/
def Flit.hops (f : Flit) : Nat := bits f.hdr.toNat 58 53
/-- RIM. -/
def Flit.rim (f : Flit) : Nat := bits f.hdr.toNat 51 51
/-- CTX. -/
def Flit.ctx (f : Flit) : Nat := bits f.hdr.toNat 50 48
/-- MASK. -/
def Flit.mask (f : Flit) : Nat := bits f.hdr.toNat 47 16
/-- AUX. -/
def Flit.aux (f : Flit) : Nat := bits f.hdr.toNat 15 0
/-- FLOW of a class-0 flit. -/
def Flit.flow (f : Flit) : Nat := f.aux
/-- HELD of a class-1 flit. -/
def Flit.held (f : Flit) : Nat := bits f.aux 8 8
/-- COUNT of a class-1 flit. -/
def Flit.count (f : Flit) : Nat := bits f.aux 7 0
/-- DFLITS of a class-2 or class-3 head flit. -/
def Flit.dflits (f : Flit) : Nat := bits f.aux 4 0

/-- A header with even parity over its 64 bits. -/
def hdrOf (cls ver words hops rim ctx mask aux : Nat) : W64 :=
  let h := cls % 4 * 2 ^ 62 + ver % 2 * 2 ^ 61 + words % 4 * 2 ^ 59 + hops % 64 * 2 ^ 53 + rim % 2 * 2 ^ 51
    + ctx % 8 * 2 ^ 48 + mask % 2 ^ 32 * 2 ^ 16 + aux % 2 ^ 16
  BitVec.ofNat 64 (h + popc 64 h % 2 * 2 ^ 52)

/-- A flit with fields of its header replaced and its parity made even. -/
def Flit.rehead (f : Flit) (cls words mask aux : Nat) : Flit :=
  { f with hdr := hdrOf cls f.ver words f.hops f.rim f.ctx mask aux }

/-- Whether a header passes the checks of R238: parity, WORDS, DFLITS within its class's limit. -/
def Flit.headerOk (f : Flit) : Bool :=
  popc 64 f.hdr.toNat % 2 == 0 && f.nwords != 0
  && !(f.cls == 2 && f.dflits > 16) && !(f.cls == 3 && f.dflits > 8)

/-- The head flit and data flits of a packet. -/
def Packet.flits (k : Packet) : List Flit :=
  { hdr := k.hdr, words := k.words, via := k.via } :: k.data.map (fun b => { hdr := k.hdr, isData := true, data := b, via := k.via })

/-- A packet's head as a flit. -/
def Packet.head (k : Packet) : Flit := { hdr := k.hdr, words := k.words, via := k.via }

/-- Remove the first `n` elements that satisfy a predicate. -/
def dropFirst {α : Type} (p : α → Bool) : Nat → List α → List α
  | 0, l => l
  | _, [] => []
  | n + 1, x :: r => if p x then dropFirst p n r else x :: dropFirst p (n + 1) r

/-- The first packet of a class among flits and what remains, once all of its data flits are there (R247); no packet where the next
head comes before them, a data flit having been dropped on the way (R270). DEDUCED, log entry 11. -/
def assemble (cls : Nat) (fs : List Flit) : Option (Option Packet × List Flit) :=
  let mine := fs.filter (fun f => f.cls == cls)
  let stray := (mine.takeWhile (·.isData)).length
  match mine.drop stray with
  | [] => none
  | h :: after =>
    let ds := (after.takeWhile (·.isData)).take h.dflits
    let rest := dropFirst (fun f => f.cls == cls && f.isData) (stray + ds.length) (dropFirst (fun f => f.cls == cls && !f.isData) 1 fs)
    if ds.length = h.dflits then some (some ⟨h.hdr, h.words, ds.map (·.data), h.via⟩, rest)
    else if after.any (fun f => !f.isData) then some (none, rest)
    else none

/-! ## Routers, halves, mirrors -/

/-- The router of tile `t`. -/
def Dev.router (d : Dev) (t : Nat) : Router := Tab.get {} d.routers t
/-- The router of tile `t` becomes `r`. -/
def Dev.setRouter (d : Dev) (t : Nat) (r : Router) : Dev := { d with routers := Tab.set {} d.routers t r }

/-- Step code of a half: 0 to 3, or 4 stopped (R497). -/
def Dev.halfStep (d : Dev) (h : Nat) : Nat :=
  if h = 0 then d.fld PWR_STATUS 0 PWR_STATUS_WEST else d.fld PWR_STATUS 0 PWR_STATUS_EAST
/-- Whether a half is stopped. -/
def Dev.halfStopped (d : Dev) (h : Nat) : Bool := d.halfStep h == 4

/-- The version that lookups of context `c` use in tile `t` (R38, R261). -/
def Dev.midVer (d : Dev) (t c : Nat) : Nat := if (d.fld MID_VER_SEL t MID_VER_SEL_VER).testBit c then 1 else 0

/-- A bit of a field takes a value. -/
def Dev.setBitF (d : Dev) (r : Reg) (i : Nat) (f : Fld) (b : Nat) (v : Bool) : Dev :=
  let old := d.fld r i f
  d.setF r i f (if v then old ||| 2 ^ b else old - (if old.testBit b then 2 ^ b else 0))

/-- MID_VER_SEL of a tile is written: a flipped context's deselected version is not drained until a wave finds it so
(R261, R262). -/
def Dev.midVerWrite (d : Dev) (t v : Nat) : Dev :=
  let flipped := (d.fld MID_VER_SEL t MID_VER_SEL_VER) ^^^ (v % 256)
  let d := d.setF MID_VER_SEL t MID_VER_SEL_VER v
  d.setF MID_VER_STATUS t MID_VER_STATUS_DRAINED ((d.fld MID_VER_STATUS t MID_VER_STATUS_DRAINED) &&& (255 - flipped))

/-- Whether a context's old version still forwards: from the flip of a migration to the end of its hold-over, no table update may
overwrite it (R226). -/
def Dev.forwarding (d : Dev) (c : Nat) : Bool := d.migrs.any (fun m => m.ctx == c && decide (3 ≤ m.step))

/-- Whether tile `t` accepts a write into version `v` of context `c` (R226, R263). -/
def Dev.midWritable (d : Dev) (t c v : Nat) : Bool :=
  d.midVer t c != v && (d.fld MID_VER_STATUS t MID_VER_STATUS_DRAINED).testBit c && !(d.forwarding c)

/-- Sum of a context's in-flight parts of one parity and version over the tiles and the rim (R143, R262, R303). -/
def Dev.flightSum (d : Dev) (c par ver : Nat) : Int :=
  (List.range 33).foldl (fun a p => a + Tab.get 0 d.inflight (flightKey p c par ver)) 0

/-- Records of a Hall of Mirrors ring, a power of two of 32 to 2^26 (R532, R534). -/
def Dev.homSize (d : Dev) (h : Nat) : Nat := 2 ^ max 5 (min 26 (d.fld HOM_DEST h HOM_DEST_SIZE))

/-- Whether a session with STOP = 1 takes no more copies: the write after those staged would reach the record at RD (R532). -/
def Dev.homFull (d : Dev) (h : Nat) : Bool :=
  let n := d.homSize h
  let staged := (d.mirrors.map (fun x => if x.1 % 8 = h then x.2.length else 0)).sum
  d.flag HOM_DEST h HOM_DEST_STOP
    && decide (n ≤ (d.fld HOM_STATUS h HOM_STATUS_WR + n - d.fld HOM_STATUS h HOM_STATUS_RD % n) % n + staged + 1)

/-- A word passes a mirror tap: each enabled session that selects it copies it once, if its staging buffer has room; a
session of a confidential context copies nothing (R529, R531, R533). `place` is the tile, or 32 for the rim; `src` is what
a rim-ingress session's PORTS selects. -/
def Dev.mirror (d : Dev) (tap place src c cls : Nat) (w : W64) (stamp : Nat) : Dev :=
  (List.range 8).foldl (fun d s =>
    let sel := if tap = 2 then (d.fld HOM_SESS s HOM_SESS_PORTS).testBit src else (d.fld HOM_SESS s HOM_SESS_TILES).testBit place
    let m := d.fld HOM_KEY s HOM_KEY_MASK
    if d.flag HOM_SESS s HOM_SESS_EN && d.fld HOM_SESS s HOM_SESS_CTX == c && d.fld HOM_SESS s HOM_SESS_TAP == tap && sel
        && (d.fld HOM_SESS s HOM_SESS_CLASSES).testBit cls && !(d.confidential c)
        && (evKey w &&& m) == ((d.fld HOM_KEY s HOM_KEY_MATCH) &&& m) then
      let q := Tab.get [] d.mirrors (place * 8 + s)
      if q.length < 64 && !(d.homFull s) then
        { d with mirrors := Tab.set [] d.mirrors (place * 8 + s) (q ++ [⟨w, stamp, tap, if tap = 2 then src else place⟩]) }
      else d.bump HOM_MISSED s 1
    else d) d

/-- A clock-gated tile is woken by a flit that enters its router; the wake cycles, at most 4, are front-starved (R485).
DEDUCED, log entry 30. -/
def Dev.wakeTile (d : Dev) (t cycles : Nat) : Dev :=
  if d.gated.contains t then
    (List.range 9).foldl (fun d e => d.bump NE_NPCNT (engIx t e * 12 + 2) (32 * min 4 cycles)) { d with gated := d.gated.filter (· ≠ t) }
  else d

/-! ## Fan-out tables (R243, R244) -/

/-- Address of entry `i` of version `v` in tile `t` (R28, R243). -/
def ftAddr (t v i : Nat) : Nat := sharedBase t + 0x40000 + v * 0x10000 + i * 16

/-- A fan-out or rim entry's key matches (R244, R296). -/
def entryMatches (x key : Nat) : Bool :=
  let plen := bits x 94 89
  bits x 95 95 == 1 && plen ≤ 32 && key / 2 ^ (32 - plen) == bits x 127 96 / 2 ^ (32 - plen)

/-- The lowest-indexed matching entry of context `c` in version `v`: index and entry (R244). -/
def Dev.ftFind (d : Dev) (t c v key : Nat) : Option (Nat × Nat) :=
  let base := d.fld MID_FT_REGION (t * 8 + c) MID_FT_REGION_BASE
  let n := d.fld MID_FT_REGION (t * 8 + c) MID_FT_REGION_COUNT
  ((List.range n).map (fun k => (base + k, d.ld (ftAddr t v (base + k)) 16))).find? (fun p => entryMatches p.2 key)

/-- A class-0 event word takes a token of the lowest bucket in use for its flow (R254): whether it may stay class 0. -/
def Dev.police (d : Dev) (t flow : Nat) : Bool × Dev :=
  match (List.range 16).find? (fun i => d.flag MID_C0POL (t * 16 + i) MID_C0POL_EN && d.fld MID_C0POL (t * 16 + i) MID_C0POL_FLOW == flow) with
  | none => (false, d)
  | some i =>
    let r := d.router t
    let tok := Tab.get 0 r.tokens i
    if d.fld MID_C0POL (t * 16 + i) MID_C0POL_RATE = 0 ∨ tok = 0 then (false, d)
    else (true, d.setRouter t { r with tokens := Tab.set 0 r.tokens i (tok - 1) })

/-- BURST in effect: 0 is taken as 1, above 16 as 16 (R273). -/
def Dev.polBurst (d : Dev) (t i : Nat) : Nat := max 1 (min 16 (d.fld MID_C0POL (t * 16 + i) MID_C0POL_BURST))

/-- Flit buffers of a router input by class (R246). -/
def bufCap (cls : Nat) : Nat := match cls with | 0 => 2 | 1 => 20 | 2 => 6 | _ => 4

/-- A word joins a matching head flit that the packing stage still forms, or starts a flit of its own (R239). -/
def packInto (q : List Arriving) (f : Flit) : Option (List Arriving) :=
  match q with
  | [] => none
  | a :: r =>
    if a.pack ≠ 0 ∧ a.flit.words.length < 3 ∧ a.flit.rehead a.flit.cls 1 a.flit.mask a.flit.aux = { f with words := a.flit.words } then
      some ({ a with flit := { (a.flit.rehead a.flit.cls (a.flit.words.length + 1) a.flit.mask a.flit.aux) with
        words := a.flit.words ++ f.words } } :: r)
    else (packInto r f).map (a :: ·)

/-- A flit of one event word enters the tile's own router input, packed where it may be (R239). -/
def Dev.inject (d : Dev) (t : Nat) (f : Flit) : Dev :=
  let r := d.router t
  let q := Tab.get [] r.arr 4
  match packInto q f with
  | some q' => d.setRouter t { r with arr := Tab.set [] r.arr 4 q' }
  | none =>
    (d.setRouter t { r with
      arr := Tab.set [] r.arr 4 (q ++ [⟨f, 2⟩])
      used := Tab.upd 0 r.used (24 + f.cls) (· + 1) }).bump MID_CNT (t * 9 + 1) 1

/-- A word leaves the lookup stage: a flit is held for the words of its own cycle and of the next, no longer (R239). -/
def Dev.closePack (d : Dev) (t : Nat) (w : LookupAt) : Dev :=
  let age := match w with | .same => 0 | .next => 1 | .later => 2
  let r := d.router t
  d.setRouter t { r with arr := Tab.set [] r.arr 4 ((Tab.get [] r.arr 4).map (fun a => { a with pack := a.pack - age })) }

/-- Flits of a class-2 or class-3 packet that wait at the tile's own input (4) or the rim-port input (5) take the buffers of their
class that are free there, in order; a head flit at its origin is counted as injected (R46, R246, R273). -/
def Dev.feed (d : Dev) (t inp cls : Nat) : Dev :=
  let r := d.router t
  let q := Tab.get [] r.feedQ inp
  let cap := if inp = 4 then bufCap cls else if cls = 2 then 16 else 8
  let ix := if inp = 4 then 24 + cls else 28 + cls
  let go := (q.filter (fun f => f.cls == cls)).take (cap - Tab.get 0 r.used ix)
  let d := d.setRouter t { r with
    feedQ := Tab.set [] r.feedQ inp (dropFirst (fun f => f.cls == cls) go.length q)
    arr := Tab.upd [] r.arr inp (· ++ go.map (fun f => ⟨f, 0⟩))
    used := Tab.upd 0 r.used ix (· + go.length) }
  if inp = 4 then d.bump MID_CNT (t * 9 + 1) (go.filter (fun f => !f.isData)).length else d

/-- A packet's flits come to the tile's own input or the rim-port input. -/
def Dev.feedPacket (d : Dev) (t inp : Nat) (k : Packet) : Dev :=
  let r := d.router t
  (d.setRouter t { r with feedQ := Tab.upd [] r.feedQ inp (· ++ k.flits) }).feed t inp (bits k.hdr.toNat 63 62)

/-- The mask of gateway tiles that a gateway mask names (R26). -/
def gwTileMask (g : Nat) : Nat := gwTiles.zipIdx.foldl (fun a p => if g.testBit p.2 then a + 2 ^ p.1 else a) 0

/-- The word as its copies carry it: unchanged, or as a modulator when MOD = 1 (R245). -/
def modWord (x : Nat) (w : W64) : W64 :=
  if bits x 86 86 = 1 then
    let plen := bits x 94 89
    let v := if evKind w = 1 then 1 else if evKind w = 2 then evData w % 256 else evData w
    evWord 3 (evTick w) (bits x 127 96 / 2 ^ (32 - plen) * 2 ^ (32 - plen)) v
  else w

/-- The lookup of one word in tile `t` (R38, R243 to R245, R254): `inb` for a word that entered at a gateway, with its hop
budget. `entry` copies that the gateway counted for the word at its entry are taken off as the lookup counts its copies
(R40, R143). The event word is consumed in every case; the result is none when the tile's router input has no buffer. -/
def Dev.lookup (d : Dev) (t c ver missCls : Nat) (w : W64) (inb : Option Nat) (at_ : LookupAt) (bad : Bool) : Option Dev :=
  let par := evTick w % 2
  let own : Int := if inb.isSome then 1 else 0
  let d := (d.bump MID_CNT (t * 9) 1).closePack t at_
  match d.ftFind t c ver (evKey w) with
  | none => some ((d.drop .midNullMask t c missCls (evKey w) 1).flight t c par ver (-own))
  | some (i, x) =>
    let cls := if bits x 88 87 = 0 then 0 else 1
    let r := d.router t
    if bad ∨ r.ftBad.contains (ver * 4096 + i) then
      let d := d.setRouter t { r with ftBad := if r.ftBad.contains (ver * 4096 + i) then r.ftBad else r.ftBad ++ [ver * 4096 + i] }
      some (((((if bad then d.damaged (ftAddr t ver i) else d).setF MID_STATUS t MID_STATUS_FT_ERR 1).drop .midFtErr t c cls (evKey w) 1)).flight t c par ver (-own))
    else
      let tm := bits x 63 32
      let gm := bits x 31 24
      if tm = 0 ∧ gm = 0 then some ((d.drop .midNullMask t c cls (evKey w) 1).flight t c par ver (-own))
      else
        let hops := inb.getD (bits x 85 80)
        if hops = 0 ∧ inb.isNone then some (d.drop .midHopZero t c cls (evKey w) 1)
        else
          let d := d.mirror 0 t t c cls w (fullTick (d.tickOf c) (evTick w))
          let flow := bits x 79 64
          let (stay, d) := if cls = 0 then d.police t flow else (true, d)
          let d := if stay then d else d.bump MID_CNT (t * 9 + 2) 1
          let cls' := if stay then cls else 1
          let aux := if cls' = 0 then flow else if bits x 86 86 = 1 then 1 else 0
          let w' := modWord x w
          let copies : Int := popc 32 tm + popc 8 gm
          let d := d.flight t c par ver (copies - own)
          let d := d.bump FLT_OFF (c * 4 + cls') (popc 32 tm + popc 8 gm)
          let fl : List Flit := (if tm ≠ 0 then [{ hdr := hdrOf cls' ver 1 hops 0 c tm aux, words := [w'] }] else [])
            ++ (if gm ≠ 0 then [{ hdr := hdrOf cls' ver 1 hops 1 c (gwTileMask gm) aux, words := [w'] }] else [])
          let d := fl.foldl (fun d f => d.inject t f) d
          if Tab.get 0 (d.router t).used (24 + cls') ≤ bufCap cls' then some d else none

/-- The engine whose oldest emitted event the lookup stage takes next, and whether from its express section: express sections before
ordinary ones, round robin among the engines in each, at most three words in a core cycle and one from each engine (R244). -/
def Dev.nextLookup (d : Dev) (t : Nat) (w : LookupAt) : Option (Nat × Bool) :=
  let r := d.router t
  let done := if w = .same then r.served else []
  let order := fun (last : Nat) => ((List.range 9).map (fun k => (last + 1 + k) % 9)).filter (fun e => !(done.contains e))
  if 3 ≤ done.length then none
  else match (order r.lastX).find? (fun e => !(d.eng t e).emitX.isEmpty) with
  | some e => some (e, true)
  | none => ((order r.lastO).find? (fun e => !(d.eng t e).emitO.isEmpty)).map (fun e => (e, false))

/-- The lookup stage has served an engine (R244). -/
def Dev.lookupServed (d : Dev) (t e : Nat) (x : Bool) (w : LookupAt) : Dev :=
  let r := d.router t
  d.setRouter t { r with
    served := (if w = .same then r.served else []) ++ [e]
    lastX := if x then e else r.lastX
    lastO := if x then r.lastO else e }

/-- FANOUT_LOOKUP: the emitted event that the stage serves next is looked up in the version that MID_VER_SEL names, unless the tile's
router input has no buffer for it (R38, R244). -/
def execFanoutLookup (t : Tile) (w : LookupAt) (bad : Bool) (s : State) : Host.Outcome State Fault Refusal :=
  run (fun d =>
    match d.nextLookup t w with
    | none => d
    | some (e, x) =>
      let g := d.eng t e
      match (if x then g.emitX else g.emitO) with
      | [] => d
      | y :: q =>
        let d' := (d.setEng t e (if x then { g with emitX := q } else { g with emitO := q })).lookupServed t e x w
        (d'.lookup t y.ctx (d.midVer t y.ctx) (if y.express then 0 else 1) y.word none w bad).getD d) s

/-- GATEWAY_ENTRY: the oldest inbound word at a gateway is looked up in that tile's fan-out table under the version that
the rim handed over; events of a context in an Intermission wait (R40, R159, R261). DEDUCED, log entry 30. -/
def execGatewayEntry (g : Fin 8) (w : LookupAt) (bad : Bool) (s : State) : Host.Outcome State Fault Refusal :=
  run (fun d =>
    let l := Tab.get [] d.gwIn g
    match l.find? (fun x => !((d.gen x.ctx).interOpen)) with
    | none => d
    | some x =>
      let t := gwTiles.getD g 0
      let q := dropFirst (fun x => !((d.gen x.ctx).interOpen)) 1 l
      (({ d with gwIn := Tab.set [] d.gwIn g q }).lookup t x.ctx x.ver x.cls x.word (some x.hops) w bad).getD d) s

/-- Frame counter of a half (R251). -/
def Dev.frameOf (d : Dev) (h : Nat) : Nat := if h = 0 then d.frames.1 else d.frames.2

/-- The halves run at the same step, so that the Trapeze may hold their frame counters together (R251). -/
def Dev.sameStep (d : Dev) : Bool := d.halfStep 0 == d.halfStep 1 && !(d.halfStopped 0)

/-- A frame of a half starts: each bucket in use gains RATE tokens up to BURST (R254), and a frame of the slower half brings the
realignment nearer (R255). -/
def Dev.frameStart (d : Dev) (h : Nat) : Dev :=
  let d := ((List.range 32).filter (fun t => halfOf t == h)).foldl (fun d t =>
    (List.range 16).foldl (fun d i =>
      if d.flag MID_C0POL (t * 16 + i) MID_C0POL_EN then
        let r := d.router t
        d.setRouter t { r with tokens := Tab.upd 0 r.tokens i (fun n =>
          min (d.polBurst t i) (n + min 48 (d.fld MID_C0POL (t * 16 + i) MID_C0POL_RATE))) }
      else d) d) d
  if d.halfStep h < d.halfStep (1 - h) ∧ !(d.halfStopped (1 - h)) then d else { d with reclock := d.reclock - 1 }

/-- `n` core cycles of one half pass, at most a frame. -/
def Dev.stepFrame (d : Dev) (h n : Nat) : Dev :=
  let c := d.frameOf h + n
  let d := { d with frames := if h = 0 then (c % 64, d.frames.2) else (d.frames.1, c % 64) }
  if 64 ≤ c then d.frameStart h else d

/-- `n` core cycles of a half pass, at most a frame. While both halves run at the same step and no realignment is under way, the east
counter is the west counter; else each runs free, and the realignment restarts the east counter from the west one (R251, R255).
DESIGN CHOICE, log entry 34. -/
def Dev.passCycles (d : Dev) (h n : Nat) : Dev :=
  if d.halfStopped h then d
  else if d.sameStep ∧ d.reclock = 0 then (d.stepFrame h n).stepFrame (1 - h) n
  else
    let d' := d.stepFrame h n
    if 0 < d.reclock ∧ d'.reclock = 0 ∧ d'.sameStep then { d' with frames := (d'.frames.1, d'.frames.1) } else d'

/-- POLICER_REFILL: the next frame of a half starts (R251, R254). DESIGN CHOICE, log entry 34. -/
def execPolicerRefill (h : Fin 2) (s : State) : Host.Outcome State Fault Refusal :=
  run (fun d => d.passCycles h (64 - d.frameOf h)) s

/-! ## Routing -/

/-- The copies of a flit are taken off a tile's in-flight counter: the tiles in its mask, for each of its words (R143). -/
def Dev.subtract (d : Dev) (t : Nat) (f : Flit) : Dev :=
  if f.cls ≤ 1 then f.words.foldl (fun d w => d.flight t f.ctx (evTick w % 2) f.ver (-(popc 32 f.mask : Int))) d else d

/-- The parts of a mask at the router of tile `t`: north, south, east, west, here (R249). -/
def treeSplit (t m : Nat) : List Nat :=
  let row := t / 8
  let col := t % 8
  let part := fun (p : Nat → Bool) => (ones 32 m).foldl (fun a i => if p i then a + 2 ^ i else a) 0
  [part (fun i => i % 8 == col && decide (i / 8 < row)), part (fun i => i % 8 == col && decide (i / 8 > row)),
   part (fun i => decide (i % 8 > col)), part (fun i => decide (i % 8 < col)), part (fun i => i == t)]

/-- The neighbour of tile `t` at a mesh output. -/
def neighbour (t out : Nat) : Nat := match out with | 0 => t - 8 | 1 => t + 8 | 2 => t + 1 | _ => t - 1

/-- The input at which a mesh output of the neighbour arrives. -/
def inputOf (out : Nat) : Nat := match out with | 0 => 1 | 1 => 0 | 2 => 3 | _ => 2

/-- Index of slot `s` of output `p` in version `v` of tile `t` in the slot tables (R252, R274). -/
def slotIx (t v p s : Nat) : Nat := ((t * 2 + v) * 4 + p) * 64 + s

/-- FLOW that owns a slot; an uncorrectable entry is taken as free (R252, R270). -/
def Dev.slotFlow (d : Dev) (t v p s : Nat) : Nat :=
  if (d.router t).slotBad.contains (slotIx t v p s) then 0xFFFF else d.fld MID_SLOT_APER (slotIx t v p s) MID_SLOT_APER_FLOW

/-- Whether an output has a slot for a flow in a version. -/
def Dev.hasSlot (d : Dev) (t v p flow : Nat) : Bool := (List.range 64).any (fun s => d.slotFlow t v p s == flow && flow != 0xFFFF)

/-- A class-0 copy for a mesh output without a slot for its flow is demoted to class 1 with AUX zero (R253). -/
def Dev.demote (d : Dev) (t out : Nat) (f : Flit) : Flit × Dev :=
  if f.cls = 0 ∧ out < 4 ∧ !f.isData ∧ !(d.hasSlot t f.ver out f.flow) then
    (f.rehead 1 f.nwords f.mask 0, d.bump MID_CNT (t * 9 + 3) 1)
  else (f, d)

/-- The outcome of sending a flit's part to one output: dropped at a seam whose far half is stopped (R267), dropped where a
rim flit finds no rim port (R249), or waiting for the output. -/
def Dev.branch (d : Dev) (t inp seq cls : Nat) (f : Flit) (out part : Nat) : Dev :=
  let f' := f.rehead f.cls f.nwords part f.aux
  let f' := if f.isData then f else f'
  if out < 4 ∧ halfOf (neighbour t out) ≠ halfOf t ∧ d.halfStopped (halfOf (neighbour t out)) then
    (d.subtract t f').drop .seamStopped t f.ctx f.cls (evKey (f.words.headD 0)) 1
  else if out = 5 ∧ !(gwTiles.contains t) then
    (d.setF MID_STATUS t MID_STATUS_HDR_LOST 1).drop .midHdrErr t f.ctx f.cls (evKey (f.words.headD 0)) 1
  else
    let (f', d) := d.demote t out f'
    let r := d.router t
    d.setRouter t { r with wait := r.wait ++ [⟨out, f', inp, cls, seq⟩]
                           owed := Tab.upd (0, 0, 0) r.owed seq (fun x => (x.1 + 1, inp, cls)) }

/-- The buffer of an input frees: its credit goes to the upstream output, or back to the tile's own or rim-port input, where a waiting flit takes it
(R246, R248). -/
def Dev.freeBuffer (d : Dev) (t inp cls : Nat) : Dev :=
  if inp < 4 then
    let u := neighbour t inp
    let r := d.router u
    d.setRouter u { r with credits := r.credits ++ [(inputOf inp, cls)] }
  else if inp = 4 then
    let r := d.router t
    (d.setRouter t { r with used := Tab.upd 0 r.used (24 + cls) (· - 1) }).feed t 4 cls
  else if inp = 5 then
    let r := d.router t
    (d.setRouter t { r with used := Tab.upd 0 r.used (28 + cls) (· - 1) }).feed t 5 cls
  else d

/-- The outputs that a mask and RIM name at a tile, with their parts. -/
def outsOf (t : Nat) (f : Flit) : List (Nat × Nat) :=
  ((treeSplit t f.mask).zipIdx.filter (fun p => p.1 != 0)).map (fun p => (if p.2 = 4 then (if f.rim = 1 then 5 else 4) else p.2, p.1))

/-- A flit splits along the tree (R249); one that leaves no copy frees its buffer at once. `inp` 6 holds no buffer. -/
def Dev.split (d : Dev) (t inp : Nat) (f : Flit) : Dev :=
  let r := d.router t
  let seq := r.nextSeq
  let d := d.setRouter t { r with nextSeq := seq + 1 }
  let outs := outsOf t f
  let d := outs.foldl (fun d o => d.branch t inp seq f.cls f o.1 o.2) d
  let r := d.router t
  let d := if f.cls ≥ 2 ∧ f.dflits > 0 then
      d.setRouter t { r with follow := Tab.set ([], 0, 0) r.follow (inp * 4 + f.cls) (outs.map (·.1), f.dflits, 0) } else d
  if r.wait.any (fun w => w.seq == seq) then d else d.freeBuffer t inp f.cls

/-- One data flit of the packet that follows at an input and class has come: its outputs, and the drop it shares with its head. -/
def Dev.followed (d : Dev) (t inp cls : Nat) : List Nat × Nat × Dev :=
  let r := d.router t
  let (outs, left, why) := Tab.get ([], 0, 0) r.follow (inp * 4 + cls)
  (outs, why, d.setRouter t { r with follow := Tab.set ([], 0, 0) r.follow (inp * 4 + cls) (if left ≤ 1 then ([], 0, 0) else (outs, left - 1, why)) })

/-- A data flit follows its packet's head to the same outputs, or is dropped where its head was (R238, R247, R267, R270). -/
def Dev.followOn (d : Dev) (t inp : Nat) (f : Flit) : Dev :=
  let (outs, why, d) := d.followed t inp f.cls
  let r := d.router t
  let seq := r.nextSeq
  let d := d.setRouter t { r with nextSeq := seq + 1 }
  let d := if why = 1 then d.drop .midHdrErr t f.ctx f.cls 0 1
    else if why = 2 then d.drop .midBufErr t f.ctx f.cls 0 1
    else outs.foldl (fun d o => d.branch t inp seq f.cls f o 0) d
  if (d.router t).wait.any (fun w => w.seq == seq) then d else d.freeBuffer t inp f.cls

/-- A head flit is dropped at an input, and the data flits of its packet with it as they come: `why` is 1 at DP-MID-HDRERR, 2 at
DP-MID-BUFERR (R238, R270). DEDUCED, log entry 11. -/
def Dev.dropPacket (d : Dev) (t inp why : Nat) (f : Flit) : Dev :=
  let r := d.router t
  let d := if f.cls ≥ 2 ∧ f.dflits > 0 then
    d.setRouter t { r with follow := Tab.set ([], 0, 0) r.follow (inp * 4 + f.cls) ([], f.dflits, why) } else d
  d.freeBuffer t inp f.cls

/-- An output's hold on a class counts a data flit of the packet from an input off (R247). -/
def Router.unhold (r : Router) (out cls inp : Nat) : Router :=
  match Tab.get (0, 0) r.hold (out * 4 + cls) with
  | (0, _) => r
  | (k, n) => if k = inp + 1 then { r with hold := Tab.set (0, 0) r.hold (out * 4 + cls) (if n ≤ 1 then (0, 0) else (k, n - 1)) } else r

/-- A data flit with an uncorrectable error is dropped alone, or with its packet where the head was dropped (R270). -/
def Dev.dropData (d : Dev) (t inp : Nat) (f : Flit) : Dev :=
  let (outs, why, d) := d.followed t inp f.cls
  let d := outs.foldl (fun (d : Dev) o => d.setRouter t ((d.router t).unhold o f.cls inp)) d
  (d.drop (if why = 1 then .midHdrErr else .midBufErr) t f.ctx f.cls 0 1).freeBuffer t inp f.cls

/-- TIMEOUT of a tile's combining: values above 400 are taken as 400 (R273). -/
def Dev.combTimeout (d : Dev) (t : Nat) : Nat := min 400 (d.fld MID_COMB t MID_COMB_TIMEOUT)

/-- Whether a flit may be combined (R258). -/
def Dev.combinable (d : Dev) (t : Nat) (f : Flit) : Bool :=
  f.cls == 1 && !f.isData && f.nwords == 1 && evKind (f.words.headD 0) == 3 && f.rim == 0 && f.count != 0 && d.combTimeout t != 0

/-- Two flits carry the same tag and mask (R258). -/
def sameTag (f g : Flit) : Bool :=
  f.ctx == g.ctx && f.ver == g.ver && f.mask == g.mask && evKey (f.words.headD 0) == evKey (g.words.headD 0)
  && evTick (f.words.headD 0) == evTick (g.words.headD 0)

/-- A held entry leaves as a class-1 flit with HELD = 1 (R260). -/
def Dev.release (d : Dev) (t : Nat) (x : CombEntry) : Dev :=
  (d.bump MID_CNT (t * 9 + 6) 1).split t 6 (x.flit.rehead 1 1 x.flit.mask (256 + x.flit.count))

/-- A combining entry with an uncorrectable error is dropped; its header is intact, so its copies leave the in-flight count
(R270). -/
def Dev.dropEntry (d : Dev) (t : Nat) (x : CombEntry) : Dev :=
  (d.subtract t x.flit).drop .midBufErr t x.flit.ctx 1 (evKey (x.flit.words.headD 0)) 1

/-- The entry that a combinable flit meets is found uncorrectable and dropped, so that the flit meets none (R258, R270). -/
def Dev.loseEntry (d : Dev) (t : Nat) (f : Flit) : Dev :=
  let r := d.router t
  match r.comb.find? (fun x => sameTag x.flit f) with
  | some x => (d.setRouter t { r with comb := r.comb.filter (fun y => !(sameTag y.flit f)) }).dropEntry t x
  | none => d

/-- A combinable flit merges, opens an entry or passes on (R258, R259). -/
def Dev.combine (d : Dev) (t inp : Nat) (f : Flit) : Dev :=
  let r := d.router t
  let w := f.words.headD 0
  match r.comb.find? (fun x => sameTag x.flit f) with
  | some x =>
    let rest := r.comb.filter (fun y => !(sameTag y.flit f))
    if x.flit.count + f.count > 255 then
      ((d.setRouter t { r with comb := rest ++ [⟨f⟩] }).release t x).freeBuffer t inp 1
    else
      let xw := x.flit.words.headD 0
      let v := sat16 (sgn 16 (evData xw) + sgn 16 (evData w))
      let x' : Flit := { (x.flit.rehead 1 1 x.flit.mask (x.flit.count + f.count)) with
        words := [evWord 3 (evTick xw) (evKey xw) (enc 16 v)] }
      let d := d.setRouter t { r with comb := r.comb.map (fun y => if sameTag y.flit f then ⟨x'⟩ else y) }
      ((d.subtract t f).bump MID_CNT (t * 9 + 5) 1).freeBuffer t inp 1
  | none =>
    if f.held = 1 then d.split t inp f
    else
      match r.comb with
      | old :: rest =>
        if 16 ≤ r.comb.length then ((d.setRouter t { r with comb := rest ++ [⟨f⟩] }).release t old).freeBuffer t inp 1
        else (d.setRouter t { r with comb := r.comb ++ [⟨f⟩] }).freeBuffer t inp 1
      | [] => (d.setRouter t { r with comb := [⟨f⟩] }).freeBuffer t inp 1

/-- FLIT_ROUTE: the oldest flit at an input is corrected and checked, combined or split; `entryBad` when the combining entry it meets is
uncorrectable (R238, R249, R258, R270, R485). DESIGN CHOICE, log entry 3. -/
def execFlitRoute (t : Tile) (inp : Fin 6) (found : FlitFinding) (wake : Nat) (entryBad : Bool) (s : State) :
    Host.Outcome State Fault Refusal :=
  run (fun d =>
    let r := d.router t
    match Tab.get [] r.arr inp with
    | [] => d
    | a :: q =>
      let f := a.flit
      let d := (d.setRouter t { r with arr := Tab.set [] r.arr inp q }).wakeTile t wake
      let key := evKey (f.words.headD 0)
      if f.isData then (if found = .badWord then d.dropData t inp f else d.followOn t inp f)
      else
        let d := if found = .corrected then d.bump MID_CNT (t * 9 + 8) 1 else d
        if found = .badHeader ∨ !f.headerOk then
          ((d.setF MID_STATUS t MID_STATUS_HDR_LOST 1).drop .midHdrErr t f.ctx f.cls key 1).dropPacket t inp 1 f
        else if found = .badWord then ((d.subtract t f).drop .midBufErr t f.ctx f.cls key 1).dropPacket t inp 2 f
        else if d.combinable t f then (if entryBad then d.loseEntry t f else d).combine t inp f
        else d.split t inp f) s

/-! ## Outputs -/

/-- A copy leaves an output: its buffer is freed once every copy of its flit has left; the flit reaches the next router's
input, the local port or the rim, and a head of class 2 or 3 holds its class at the output for its data flits (R247, R248). -/
def Dev.leave (d : Dev) (t : Nat) (w : Waiting) : Dev :=
  let r := d.router t
  let rec1 (ws : List Waiting) : List Waiting := ws.erase w
  let (left, inp, cls) := Tab.get (0, 0, 0) r.owed w.seq
  let r := if w.flit.cls < 2 then r
    else if w.flit.isData then r.unhold w.out w.flit.cls w.inp
    else { r with hold := Tab.set (0, 0) r.hold (w.out * 4 + w.flit.cls) (if w.flit.dflits = 0 then (0, 0) else (w.inp + 1, w.flit.dflits)) }
  let f := { w.flit with cross := if w.flit.cls = 0 ∧ w.out < 4 ∧ halfOf (neighbour t w.out) ≠ halfOf t then some (d.frameOf (halfOf t)) else none }
  let r := { r with
    wait := rec1 r.wait
    owed := Tab.set (0, 0, 0) r.owed w.seq (if left ≤ 1 then (0, 0, 0) else (left - 1, inp, cls))
    used := if w.out = 4 then r.used else Tab.upd 0 r.used (w.out * 4 + w.flit.cls) (· + 1) }
  let d := (d.setRouter t r).bump MID_PC ((t * 8 + w.out) * 8 + w.flit.cls * 2) 1
  let d := if left ≤ 1 then d.freeBuffer t w.inp w.cls else d
  if w.out < 4 then
    let n := neighbour t w.out
    let rn := d.router n
    d.setRouter n { rn with arr := Tab.upd [] rn.arr (inputOf w.out) (· ++ [⟨f, 0⟩]) }
  else if w.out = 4 then
    let r := d.router t
    d.setRouter t { r with local_ := Tab.upd [] r.local_ f.cls (· ++ [f]) }
  else { d with rimIn := Tab.upd [] d.rimIn (gwTiles.idxOf t) (· ++ [f]) }

/-- Whether an output has room downstream for a flit of a class: a credit at a mesh output (R248), a free rim-port buffer
(R46), a local port that presents no flit of the class (R250). Class 0 never waits on a credit at a mesh output. -/
def Dev.roomFor (d : Dev) (t out cls : Nat) : Bool :=
  let r := d.router t
  if out = 4 then (Tab.get [] r.local_ cls).isEmpty
  else if out = 5 then Tab.get 0 r.used (20 + cls) < (match cls with | 0 => 4 | 1 => 56 | 2 => 16 | _ => 8)
  else cls == 0 || Tab.get 0 r.used (out * 4 + cls) < bufCap cls

/-- The copy that a class serves next at an output: the input that holds the class, else round robin after the last one served
(R247). -/
def Dev.pick (d : Dev) (t out cls : Nat) : Option Waiting :=
  let r := d.router t
  let ws := r.wait.filter (fun w => w.out == out && w.flit.cls == cls)
  let last := Tab.get 0 r.lastIn (out * 4 + cls)
  match Tab.get (0, 0) r.hold (out * 4 + cls) with
  | (k + 1, _) => ws.find? (fun w => w.inp == k)
  | (0, _) => (((List.range 7).map (fun k => (last + 1 + k) % 7)).filterMap (fun i => ws.find? (fun w => w.inp == i))).head?

/-- A grant to the copy that a class serves next. -/
def Dev.grant (d : Dev) (t out cls : Nat) : Dev :=
  match d.pick t out cls with
  | none => d
  | some w =>
    let d := d.leave t w
    let r := d.router t
    d.setRouter t { r with lastIn := Tab.set 0 r.lastIn (out * 4 + cls) w.inp }

/-- Whether a class has a copy ready with room downstream. -/
def Dev.ready (d : Dev) (t out cls : Nat) : Bool := (d.pick t out cls).isSome && d.roomFor t out cls

/-- Core cycles in which an output stalls a class for want of a credit are counted (R248). -/
def Dev.countStalls (d : Dev) (t out : Nat) : Dev :=
  [1, 2, 3].foldl (fun d k =>
    if (d.pick t out k).isSome && !(d.roomFor t out k) then d.bump MID_PC ((t * 8 + out) * 8 + k * 2 + 1) 1 else d) d

/-- A cycle under R247: class 3 first, then classes 1 and 2 by weighted round robin. -/
def Dev.arbitrate (d : Dev) (t out : Nat) : Dev :=
  if d.ready t out 3 then d.grant t out 3
  else
    let w1 := max 1 (d.fld MID_ARB t MID_ARB_W1)
    let w2 := max 1 (d.fld MID_ARB t MID_ARB_W2)
    let r := d.router t
    let turn := Tab.get 0 r.turn out % (w1 + w2)
    let mine := if turn < w1 then 1 else 2
    let other := 3 - mine
    let d' := d.setRouter t { r with turn := Tab.set 0 r.turn out ((turn + 1) % (w1 + w2)) }
    if d.ready t out mine then d'.grant t out mine
    else if d.ready t out other then d'.grant t out other
    else d

/-- An entry of a slot table is found uncorrectable: it is taken as free in its version, and class-0 copies that wait for the output
without another slot are demoted (R253, R270). -/
def Dev.badSlotEntry (d : Dev) (t out v slot : Nat) : Dev :=
  let r := d.router t
  let k := slotIx t v out slot
  let d := d.setRouter t { r with slotBad := if r.slotBad.contains k then r.slotBad else r.slotBad ++ [k] }
  (d.router t).wait.foldl (fun d w =>
    if w.out = out then
      let (f, d) := d.demote t out w.flit
      let r := d.router t
      d.setRouter t { r with wait := r.wait.map (fun y => if y = w then { w with flit := f } else y) }
    else d) d

/-- OUTPUT_GRANT: one core cycle of an output, `cycles` core cycles of its half after the last one that the frame counter has seen.
A class-0 copy leaves a mesh output in a slot that its version's table assigns to its flow; local and rim ports take class 0
first; every other cycle follows R247. A crossing copy that leaves in another slot than its schedule's while the seam is reclocked counts
(R255). `badSlot` names the version in which the slot's entry is found uncorrectable (R251, R253, R270).
DESIGN CHOICE, log entry 34. -/
def execOutputGrant (t : Tile) (out : Fin 6) (cycles : Fin 64) (badSlot : Option (Fin 2)) (s : State) :
    Host.Outcome State Fault Refusal :=
  run (fun d =>
    let d := d.passCycles (halfOf t) cycles
    let slot := d.frameOf (halfOf t)
    let d := match badSlot with
      | some v => if out.val < 4 then d.badSlotEntry t out v slot else d
      | none => d
    let d := d.countStalls t out
    let r := d.router t
    let c0 := if out.val < 4 then
        r.wait.find? (fun w => w.out == out.val && w.flit.cls == 0 && d.slotFlow t w.flit.ver out slot == w.flit.flow)
      else r.wait.find? (fun w => w.out == out.val && w.flit.cls == 0 && d.roomFor t out 0)
    match c0 with
    | some w =>
      let late := out.val < 4 && d.reclock != 0 && w.flit.cross.any (fun x => (x + 9) % 64 != slot)
      (if late then d.bump MID_CNT (t * 9 + 4) 1 else d).leave t w
    | none => d.arbitrate t out) s

/-- CREDIT_RETURN: a credit on its way back reaches the upstream output (R248). -/
def execCreditReturn (t : Tile) (out : Fin 6) (cls : Fin 4) (s : State) : Host.Outcome State Fault Refusal :=
  run (fun d =>
    let r := d.router t
    if r.credits.contains (out.val, cls.val) then
      d.setRouter t { r with credits := r.credits.erase (out.val, cls.val), used := Tab.upd 0 r.used (out.val * 4 + cls.val) (· - 1) }
    else d) s

/-- COMBINE_RELEASE: the TIMEOUT of a held entry passes; it is named by its age; an entry found uncorrectable is dropped (R260,
R270). -/
def execCombineRelease (t : Tile) (k : Fin 16) (bad : Bool) (s : State) : Host.Outcome State Fault Refusal :=
  run (fun d =>
    let r := d.router t
    match r.comb[k.val]? with
    | none => d
    | some x =>
      let d := d.setRouter t { r with comb := r.comb.eraseIdx k }
      if bad then d.dropEntry t x else d.release t x) s

/-! ## Local ports -/

/-- Engines of a tile to which a word of context `c` is presented (R41). -/
def Dev.targetsOf (d : Dev) (t c : Nat) : List Nat := (List.range 9).filter (fun e => d.engineServes t e && d.holds t e c)

/-- Whether an engine's queue can take a word of a class (R42, R250): class 0 the express or the ordinary queue. -/
def Engine.roomOf (g : Engine) (cls : Nat) : Bool := g.resetting || (cls == 0 && g.qX.length < 32) || g.qO.length < 224

/-- A word enters an engine's queue, or is dropped when the engine is under reset or the word's context is being reset (R42, R269,
R424). -/
def Dev.present (d : Dev) (t e : Nat) (ev : Delivered) : Dev :=
  let g := d.eng t e
  if g.resetting || d.ctxReset.contains ev.ctx then (d.drop .tileReset t ev.ctx ev.cls (evKey ev.word) 1).copyDone t ev.copy
  else if ev.cls = 0 ∧ g.qX.length < 32 then d.setEng t e { g with qX := g.qX ++ [ev] }
  else
    let d := d.setEng t e { g with qO := g.qO ++ [ev] }
    if ev.cls = 0 then d.bump NE_SPCNT (engIx t e * 20 + 18) 1 else d

/-- One event word of a flit is presented; none where an engine has no free entry (R241, R250). -/
def Dev.presentWord (d : Dev) (t : Nat) (f : Flit) (w : W64) : Option Dev :=
  let c := f.ctx
  let par := evTick w % 2
  if evKind w = 1 ∨ evKind w = 2 then
    let es := d.targetsOf t c
    if d.ctxReset.contains c then some ((d.drop .tileReset t c f.cls (evKey w) 1).flight t c par f.ver (-1))
    else if es.all (fun e => (d.eng t e).roomOf f.cls) then
      let d := d.mirror 1 t t c f.cls w (fullTick (d.tickOf c) (evTick w))
      if es.isEmpty then some (d.flight t c par f.ver (-1))
      else
        let k := d.nextCopy
        some (es.foldl (fun d e => d.present t e ⟨w, c, f.cls, f.ver, k⟩) (d.openCopy c par f.ver es.length))
    else none
  else if evKind w = 3 then
    if d.ctxReset.contains c ∨ d.tileRst.contains t then some ((d.drop .tileReset t c f.cls (evKey w) 1).flight t c par f.ver (-1))
    else
    let d := d.mirror 1 t t c f.cls w (fullTick (d.tickOf c) (evTick w))
    let k := d.nextCopy
    let d := d.openCopy c par f.ver 1
    let tm := d.tum t
    some (d.setTum t { tm with modQ := tm.modQ ++ [⟨w, c, f.cls, f.ver, k⟩] })
  else some ((d.drop .midBadKind t c f.cls (evKey w) 1).flight t c par f.ver (-1))

/-- LOCAL_PORT_PRESENT: the local port presents the next word of its flit of a class; class-2 and class-3 flits go to the
tile's endpoints (R250). -/
def execLocalPortPresent (t : Tile) (cls : Fin 4) (s : State) : Host.Outcome State Fault Refusal :=
  run (fun d =>
    let r := d.router t
    match Tab.get [] r.local_ cls with
    | [] => d
    | f :: q =>
      if 2 ≤ cls.val then
        let r := { r with local_ := Tab.set [] r.local_ cls q, ends := r.ends ++ [f] }
        match assemble cls r.ends with
        | none => d.setRouter t r
        | some (k, rest) =>
          { d.setRouter t { r with ends := rest } with endIn := Tab.upd [] d.endIn (1 + t) (· ++ k.toList) }
      else match f.words with
      | [] => d.setRouter t { r with local_ := Tab.set [] r.local_ cls q }
      | w :: ws =>
        match d.presentWord t f w with
        | none => d.bump MID_PC ((t * 8 + 4) * 8 + cls.val * 2 + 1) 1
        | some d =>
          let r := d.router t
          d.setRouter t { r with local_ := Tab.set [] r.local_ cls (if ws.isEmpty then q else { f with words := ws } :: q) }) s

/-! ## Register commands -/

/-- The contexts whose fan-out range holds entry `i` (R243). -/
def Dev.ftOwners (d : Dev) (t i : Nat) : List Nat :=
  (List.range 8).filter (fun c =>
    let b := d.fld MID_FT_REGION (t * 8 + c) MID_FT_REGION_BASE
    decide (b ≤ i) && decide (i < b + d.fld MID_FT_REGION (t * 8 + c) MID_FT_REGION_COUNT))

/-- A fan-out entry takes bits: its reserved bits stay zero, and an entry written anew is no longer found uncorrectable (R13, R243,
R270). -/
def Dev.ftPut (d : Dev) (t v i x : Nat) : Dev :=
  let r := d.router t
  (d.setRouter t { r with ftBad := r.ftBad.filter (· != v * 4096 + i) }).st (ftAddr t v i) 16 (x / 2 ^ 24 * 2 ^ 24)

/-- A fan-out entry is written, if every context that owns it has the version deselected and drained (R263). -/
def Dev.ftWrite (d : Dev) (t v i x : Nat) : Bool × Dev :=
  if (d.ftOwners t i).all (fun c => d.midWritable t c v) then (true, d.ftPut t v i x)
  else (false, d.setF MID_STATUS t MID_STATUS_WR_BUSY 1)

/-- The tile, and the offset in its fan-out region, of a device physical address there (R28, R545). -/
def fanAt (a : Nat) : Option (Nat × Nat) :=
  let t := (a - 0x1000000000) / 0x2000000
  let o := (a - 0x1000000000) % 0x2000000
  if 0x1000000000 ≤ a ∧ t < 32 ∧ 0x1B40000 ≤ o ∧ o < 0x1B60000 then some (t, o - 0x1B40000) else none

/-- A byte of device memory is written; one of a fan-out entry only while its version may be written (R243, R263). -/
def Dev.byteStore (d : Dev) (a : Nat) (b : Byte) : Dev :=
  match fanAt a with
  | none => d.stB a b
  | some (t, o) =>
    let i := o / 16
    let x := d.ld (ftAddr t (i / 4096) (i % 4096)) 16
    let k := 256 ^ (o % 16)
    (d.ftWrite t (i / 4096) (i % 4096) (x - x / k % 256 * k + b.toNat * k)).2

/-- MID_FT_LO_READ: all 128 bits of the selected entry are captured; entries of a confidential context read zero (R273). -/
def execMidFtLoRead (t : Tile) (s : State) : Host.Outcome State Fault Refusal :=
  run (fun d =>
    let i := d.fld MID_FT_SEL t MID_FT_SEL_INDEX
    let closed := (d.ftOwners t i).any d.confidential
    let x := if closed then 0 else d.ld (ftAddr t (d.fld MID_FT_SEL t MID_FT_SEL_VERSION) i) 16
    let d := if closed then d.closed MID_FT_LO t else d
    (d.setF MID_FT_LO t MID_FT_LO_ENTRY_LO (x % 2 ^ 64)).setF MID_FT_HI t MID_FT_HI_ENTRY_HI (x / 2 ^ 64)) s

/-- MID_FT_HI_WRITE: held until the next write of MID_FT_LO (R273). -/
def execMidFtHiWrite (t : Tile) (half : Half) (v : W64) (s : State) : Host.Outcome State Fault Refusal :=
  run (fun d =>
    let r := d.router t
    d.setRouter t { r with ftHeld := halfMerge half r.ftHeld v }) s

/-- MID_FT_LO_WRITE: a write that covers the high half commits the whole entry, subject to R263; the host's write of an
entry of a confidential context is ignored (R18, R273). -/
def execMidFtLoWrite (who : Requester) (t : Tile) (half : Half) (v : W64) (s : State) : Host.Outcome State Fault Refusal :=
  run (fun d =>
    let i := d.fld MID_FT_SEL t MID_FT_SEL_INDEX
    let lo := halfMerge half (d.rd MID_FT_LO t) v
    if viaPf who ∧ (d.ftOwners t i).any d.confidential then d.closed MID_FT_LO t
    else if !(halfCommits half) then d.wr MID_FT_LO t lo
    else
      let d := d.wr MID_FT_LO t lo
      (d.ftWrite t (d.fld MID_FT_SEL t MID_FT_SEL_VERSION) i (lo.toNat + (d.router t).ftHeld.toNat * 2 ^ 64)).2) s

/-- A slot-table entry is written, if every context named by its old or new FLOW has the version deselected and drained
(R263). -/
def Dev.slotWrite (d : Dev) (t v p s flow : Nat) : Bool × Dev :=
  let old := d.fld MID_SLOT_APER (slotIx t v p s) MID_SLOT_APER_FLOW
  if [old, flow].all (fun f => f == 0xFFFF || d.midWritable t (f / 8192) v) then
    let r := d.router t
    (true, (d.setRouter t { r with slotBad := r.slotBad.filter (· != slotIx t v p s) }).setF MID_SLOT_APER (slotIx t v p s) MID_SLOT_APER_FLOW flow)
  else (false, d.setF MID_STATUS t MID_STATUS_WR_BUSY 1)

/-- SLOT_TABLE_WRITE (R263). -/
def execSlotTableWrite (t : Tile) (ver : Fin 2) (p : Fin 4) (sl : Fin 64) (v : W16) (s : State) : Host.Outcome State Fault Refusal :=
  run (fun d => (d.slotWrite t ver p sl v.toNat).2) s

/-- Slot-table entries of a context in the versions `v` are freed. -/
def Dev.clearFlows (d : Dev) (c : Nat) (v : Nat → Nat) : Dev :=
  (d.regs.filter (fun (p : Nat × W64) => decide (p.1 / 2 ^ 20 = MID_SLOT_APER.id) && decide (p.2.toNat % 65536 / 8192 = c)
      && decide (p.2.toNat % 65536 ≠ 0xFFFF) && decide (p.1 % 2 ^ 20 / 256 % 2 = v (p.1 % 2 ^ 20 / 512)))).foldl (fun d p =>
    d.setF MID_SLOT_APER (p.1 % 2 ^ 20) MID_SLOT_APER_FLOW 0xFFFF) d

/-- The slots of a context's flows in the selected versions hold in the deselected ones too (R263). -/
def Dev.copySlots (d : Dev) (c : Nat) : Dev :=
  let v := fun t => d.midVer t c
  (d.regs.filter (fun (p : Nat × W64) => decide (p.1 / 2 ^ 20 = MID_SLOT_APER.id) && decide (p.2.toNat % 65536 / 8192 = c)
      && decide (p.2.toNat % 65536 ≠ 0xFFFF) && decide (p.1 % 2 ^ 20 / 256 % 2 = v (p.1 % 2 ^ 20 / 512)))).foldl (fun d p =>
    let i := p.1 % 2 ^ 20
    d.setF MID_SLOT_APER (if i / 256 % 2 = 0 then i + 256 else i - 256) MID_SLOT_APER_FLOW (p.2.toNat % 65536)) (d.clearFlows c (fun t => 1 - v t))

/-- MID_FT_REGION_WRITE: a range that passes the table's end is ignored with CFG_ERR (R274). -/
def execMidFtRegionWrite (t : Tile) (c : Ctx) (v : W32) (s : State) : Host.Outcome State Fault Refusal :=
  run (fun d =>
    let x : W64 := v.setWidth 64
    if MID_FT_REGION_BASE.get x + MID_FT_REGION_COUNT.get x > 4096 then d.setF MID_STATUS t MID_STATUS_CFG_ERR 1
    else d.store MID_FT_REGION (t * 8 + c) .whole x) s

/-- MID_COMB_WRITE: a write of TIMEOUT 0 releases every entry at once (R260). -/
def execMidCombWrite (t : Tile) (v : W32) (s : State) : Host.Outcome State Fault Refusal :=
  run (fun d =>
    let d := d.store MID_COMB t .whole (v.setWidth 64)
    if d.fld MID_COMB t MID_COMB_TIMEOUT = 0 then
      let r := d.router t
      r.comb.foldl (fun d x => d.release t x) (d.setRouter t { r with comb := [] })
    else d) s

/-- MID_C0POL_WRITE: the bucket is full in the next cycle (R254). -/
def execMidC0polWrite (t : Tile) (i : Fin 16) (v : W32) (s : State) : Host.Outcome State Fault Refusal :=
  run (fun d =>
    let d := d.store MID_C0POL (t * 16 + i) .whole (v.setWidth 64)
    let r := d.router t
    d.setRouter t { r with tokens := Tab.set 0 r.tokens i (d.polBurst t i) }) s

/-- FANOUT_ENTRY_REWRITE: an uncorrectable entry is rewritten from Usher's copy (R270). -/
def execFanoutEntryRewrite (t : Tile) (ver : Fin 2) (i : BitVec 12) (s : State) : Host.Outcome State Fault Refusal :=
  run (fun d =>
    let r := d.router t
    d.setRouter t { r with ftBad := r.ftBad.filter (· ≠ ver * 4096 + i.toNat) }) s

/-- SLOT_TABLE_REWRITE: an uncorrectable slot-table entry is rewritten by Usher (R270). -/
def execSlotTableRewrite (t : Tile) (ver : Fin 2) (p : Fin 4) (sl : Fin 64) (s : State) : Host.Outcome State Fault Refusal :=
  run (fun d =>
    let r := d.router t
    d.setRouter t { r with slotBad := r.slotBad.filter (· ≠ slotIx t ver p sl) }) s

end Sys2Proof.Machine
end

