-- ==== Sys2Proof/Machine/Elk.lean ====
section
/-! DEFINITION. Event-link ports: codewords and lock (R277 to R279), frames (R281 to R284), credits (R285, R286), the
capability record (R287, R288), port states (R289), replay (R290, R291), link-down (R292, R293) and lanes (R294). -/

namespace Sys2Proof.Machine

/-- Port `p`. -/
def Dev.port (d : Dev) (p : Nat) : PortSt := Tab.get {} d.ports p
/-- Port `p` becomes `x`. -/
def Dev.setPort (d : Dev) (p : Nat) (x : PortSt) : Dev := { d with ports := Tab.set {} d.ports p x }

/-- STATE of a port: 0 DOWN, 1 TRAINING, 2 LOCKING, 3 EXCHANGE, 4 UP (R289). -/
def Dev.portState (d : Dev) (p : Nat) : Nat := d.fld ELK_STATUS p ELK_STATUS_STATE
/-- Whether a port is up. -/
def Dev.portUp (d : Dev) (p : Nat) : Bool := d.portState p == 4

/-- Whether a port is licensed: ports 0 and 1 with a two-port licence (R3). -/
def Dev.portLicensed (d : Dev) (p : Nat) : Bool := decide (p < d.fld SEC_LIC 0 SEC_LIC_PORTS)

/-- This chip's ID (R301). -/
def Dev.chipId (d : Dev) : Nat := d.fld RIM_TOPO 0 RIM_TOPO_CHIP_ID

/-- Torus size of dimension 0 X, 1 Y, 2 Z (R301). -/
def Dev.torus (d : Dev) (dim : Nat) : Nat :=
  1 + (match dim with
    | 0 => d.fld RIM_TOPO 0 RIM_TOPO_SX_M1
    | 1 => d.fld RIM_TOPO 0 RIM_TOPO_SY_M1
    | _ => d.fld RIM_TOPO 0 RIM_TOPO_SZ_M1)

/-- Coordinate of a chip ID in a dimension. -/
def chipAt (id dim : Nat) : Nat := match dim with | 0 => bits id 14 10 | 1 => bits id 9 5 | _ => bits id 4 0

/-- The neighbour that RIM_TOPO places on a port: +X, −X, +Y, −Y, +Z, −Z (R301). -/
def Dev.neighbourChip (d : Dev) (p : Nat) : Nat :=
  let dim := p / 2
  let n := d.torus dim
  let at' := chipAt d.chipId dim
  let x := if p % 2 = 0 then (at' + 1) % n else (at' + n - 1) % n
  let c := fun k => if k = dim then x else chipAt d.chipId k
  c 0 * 1024 + c 1 * 32 + c 2

/-! ## The rim's in-flight records (R303) -/

/-- One queued copy of a word has left its queue or been dropped; the last settles the word. -/
def Dev.ownerDone (d : Dev) (o : Nat) : Dev :=
  let r := Tab.get ({} : RimOwner) d.owners o
  if r.left = 0 then d
  else if r.left = 1 then ({ d with owners := Tab.set {} d.owners o {} }).flight 32 r.ctx r.par r.ver (-1)
  else { d with owners := Tab.set {} d.owners o { r with left := r.left - 1 } }

/-- Every word of an item is settled. -/
def Dev.ownersDone (d : Dev) (os : List Nat) : Dev := os.foldl (fun d o => d.ownerDone o) d

/-! ## Port states -/

/-- Context of a packet's or event's header as read from a flit. -/
def Dev.elkDrop (d : Dev) (p : Nat) (f : Flit) : Dev :=
  d.drop .elkLinkDown p f.ctx f.cls (if f.isData then 0 else evKey (f.words.headD 0)) 1

/-- What a port keeps of its line: its lanes, codeword lock, and the codewords in progress both ways (R277 to R279, R294). -/
def PortSt.line (x : PortSt) : PortSt :=
  { trained := x.trained, txLanes := x.txLanes, lock := x.lock, badCw := x.badCw, lastCwi := x.lastCwi, txJ := x.txJ
    failed := x.failed, laneErrs := x.laneErrs, rxBytes := x.rxBytes, rxPos := x.rxPos, rxErr := x.rxErr, rxCwi := x.rxCwi
    txBytes := x.txBytes, txCwi := x.txCwi, txOn := x.txOn }

/-- A line that trains anew: no lock, and no codeword or frame in progress either way. -/
def PortSt.fresh (x : PortSt) (lanes : Nat) : PortSt :=
  { x with trained := lanes, txLanes := if lanes = 0 then 3 else lanes, lock := 0, badCw := 0, lastCwi := none, txJ := 0, laneErrs := []
           rxBytes := [], rxPos := 0, rxErr := [], rxCwi := 0, txBytes := [], txCwi := 0, txOn := if lanes = 0 then 3 else lanes }

/-- Every flit in a port's transmit queues and replay buffer is dropped at DP-ELK-LINKDOWN, and the port's link state is
forgotten (R293). -/
def Dev.dropQueues (d : Dev) (p : Nat) : Dev :=
  let x := d.port p
  let items := x.c0 ++ Tab.get [] x.q 1 ++ Tab.get [] x.q 2 ++ Tab.get [] x.q 3
  let kept := x.stored.flatMap (fun f => f.slots.filterMap id |>.filter (fun s => s.cls ≥ 1))
  let d := (items.flatMap (·.flits) ++ x.part ++ kept).foldl (fun d f => d.elkDrop p f) d
  let d := items.foldl (fun d i => d.ownersDone i.owners) d
  d.setPort p { x.line with rx := x.rx, rxPk := x.rxPk }

/-- A port leaves UP: no context waits for markers on it until the link brings one again (R162). -/
def Dev.portLost (d : Dev) (p : Nat) : Dev :=
  if d.portUp p then
    (List.range 8).foldl (fun (d : Dev) c =>
      let g := d.gen c
      d.setGen c { g with relink := if g.relink.contains p then g.relink else g.relink ++ [p] }) d
  else d

/-- A DOWN port that is enabled and licensed starts training (R289); after a rim reset only once the rim table is rewritten (R314). -/
def Dev.elkStart (d : Dev) (p : Nat) : Dev :=
  if d.portState p = 0 ∧ d.flag ELK_CTRL p ELK_CTRL_EN ∧ d.portLicensed p ∧ d.rimLost.isEmpty then
    (d.setPort p ((d.port p).fresh 0)).setF ELK_STATUS p ELK_STATUS_STATE 1
  else d

/-- STATUS shows neither a replay nor a NAK once a port's link state is forgotten (R317). -/
def Dev.replayIdle (d : Dev) (p : Nat) : Dev :=
  (d.setF ELK_STATUS p ELK_STATUS_REPLAYING 0).setF ELK_STATUS p ELK_STATUS_NAK_ACTIVE 0

/-- A port goes DOWN: its queues are dropped, the transition counts, and STATUS shows no lanes and no generation (R292,
R293, R317). -/
def Dev.elkDown (d : Dev) (p : Nat) : Dev :=
  if d.portState p = 0 then d
  else
    let d := ((d.portLost p).dropQueues p).bump ELK_CNT (p * 11 + 7) 1
    let d := (d.setF ELK_STATUS p ELK_STATUS_STATE 0).setF ELK_STATUS p ELK_STATUS_DEGRADED 0
    let d := (d.setF ELK_STATUS p ELK_STATUS_RX_LANES 0).setF ELK_STATUS p ELK_STATUS_GEN 0
    d.replayIdle p

/-- A port goes DOWN and, enabled and licensed, trains again (R289). -/
def Dev.elkCycle (d : Dev) (p : Nat) : Dev := (d.elkDown p).elkStart p

/-- RETRAIN: the port goes DOWN and trains again, its failed lanes too (R289, R294). -/
def Dev.elkRetrain (d : Dev) (p : Nat) : Dev := (d.setPort p { d.port p with failed := 0 }).elkCycle p

/-- LOCKING with the lanes that trained (R289). -/
def Dev.elkLocking (d : Dev) (p lanes : Nat) : Dev :=
  let d := d.setPort p ((d.port p).fresh lanes)
  let d := (d.setF ELK_STATUS p ELK_STATUS_STATE 2).setF ELK_STATUS p ELK_STATUS_RX_LANES lanes
  d.setF ELK_STATUS p ELK_STATUS_DEGRADED (if lanes = 3 then 0 else 1)

/-- ELK_CTRL_WRITE: fields by their access codes; EN cleared takes the port down, EN set starts a DOWN port, and RETRAIN
takes the port down and trains it again (R289, R317). -/
def execElkCtrlWrite (p : Port) (v : W32) (s : State) : Host.Outcome State Fault Refusal :=
  run (fun d =>
    let d := d.store ELK_CTRL p .whole (v.setWidth 64)
    if !(d.flag ELK_CTRL p ELK_CTRL_EN) then d.elkDown p
    else if v.getLsbD 1 then d.elkRetrain p
    else d.elkStart p) s

/-- ELK_RETRAIN (R289). -/
def execElkRetrain (p : Port) (s : State) : Host.Outcome State Fault Refusal := run (fun d => d.elkRetrain p) s

/-- LANE_TRAINING_DONE: once both lanes report done a TRAINING port goes to LOCKING; a lane that has failed stays out until RETRAIN,
and one that the fuses mark bad for good (R289, R294, R460). -/
def execLaneTrainingDone (p : Port) (lane : Fin 2) (s : State) : Host.Outcome State Fault Refusal :=
  run (fun d =>
    if d.portState p = 1 ∧ !((d.port p).failed.testBit lane) ∧ d.unit 5 (p * 2 + lane) ≠ (2, 5) then
      let t := (d.port p).trained ||| 2 ^ lane.val
      if t = 3 then d.elkLocking p 3 else d.setPort p { d.port p with trained := t }
    else d) s

/-- TRAIN_TIMEOUT: with one lane done the port locks on it; with none it goes DOWN and trains again (R289). -/
def execTrainTimeout (p : Port) (s : State) : Host.Outcome State Fault Refusal :=
  run (fun d =>
    if d.portState p = 1 then
      let t := (d.port p).trained
      if t = 0 then d.elkCycle p else d.elkLocking p t
    else d) s

/-- A lane fails: it leaves RX_LANES and service; a port left with one lane changes to it through EXCHANGE, DEGRADED (R289,
R294, R420). DEDUCED, log entry 11. -/
def Dev.laneFail (d : Dev) (p lane : Nat) : Dev :=
  let rx := d.fld ELK_STATUS p ELK_STATUS_RX_LANES
  if !(rx.testBit lane) then d
  else
    let rest := rx - 2 ^ lane
    let d := (d.bump ELK_CNT (p * 11 + 8) 1).autoRetire 5 (p * 2 + lane) 1
    let d := d.setPort p { d.port p with failed := (d.port p).failed ||| 2 ^ lane }
    if rest = 0 then d.elkCycle p
    else
      let d := ((d.portLost p).dropQueues p).replayIdle p
      let d := d.setPort p { d.port p with txLanes := rest, rxBytes := [], rxErr := [] }
      let d := (d.setF ELK_STATUS p ELK_STATUS_RX_LANES rest).setF ELK_STATUS p ELK_STATUS_DEGRADED 1
      if d.portState p = 4 then d.setF ELK_STATUS p ELK_STATUS_STATE 3 else d

/-- Corrected symbols are counted by lane in the present millisecond, `ms` when a new one has begun; a lane that exceeds its limit fails
(R294). -/
def Dev.laneSymbols (d : Dev) (p : Nat) (ms : Bool) (lanes : List Nat) : Dev :=
  let x := d.port p
  let old := if ms then [] else x.laneErrs
  let new : Tab Nat := lanes.foldl (fun m l => Tab.upd 0 m l (· + 1)) old
  let lim := d.fld ELK_LANE_SER p ELK_LANE_SER_LIMIT
  [0, 1].foldl (fun (d : Dev) l => if lim ≠ 0 ∧ lim < Tab.get 0 new l then d.laneFail p l else d) (d.setPort p { x with laneErrs := new })

/-- The payload of codeword `cwi` joins the bytes received; one out of step starts them anew from its place (R278, R279). -/
def PortSt.takePayload (x : PortSt) (cwi : Nat) (bad : Bool) (bs : List Byte) : PortSt :=
  let mark := if bad then [cwi] else []
  if cwi = x.rxCwi ∧ !x.rxBytes.isEmpty then
    { x with rxBytes := x.rxBytes ++ bs, rxErr := x.rxErr ++ mark, rxCwi := (cwi + 1) % 69 }
  else { x with rxBytes := bs, rxPos := 640 * cwi, rxErr := mark, rxCwi := (cwi + 1) % 69 }

/-- The oldest whole frame among the payload bytes received: its place j, whether a codeword that holds part of it was uncorrectable,
its 138 bytes, and the port without it (R279, R284). -/
def PortSt.nextFrame (x : PortSt) : Option (Nat × Bool × List Byte × PortSt) :=
  let skip := (138 - x.rxPos % 138) % 138
  let at' := (x.rxPos + skip) % 44160
  if x.rxBytes.length < skip + 138 then none
  else
    let stop := at' + 138
    some (at' / 138, x.rxErr.any (fun k => decide (at' / 640 ≤ k) && decide (k ≤ (stop - 1) / 640)), slice x.rxBytes skip 138,
      { x with rxBytes := x.rxBytes.drop (skip + 138), rxPos := stop % 44160
               rxErr := x.rxErr.filter (fun k => !(decide (at' / 640 ≤ k) && decide (k < stop / 640))) })

/-- A codeword's SYNC and CWI act on codeword lock: four good consecutive ones in step give it and EXCHANGE (R279). -/
def Dev.lockGood (d : Dev) (p cwi : Nat) : Dev :=
  let x := d.port p
  let steps := match x.lastCwi with | none => true | some l => cwi == (l + 1) % 69
  let n := if cwi ≥ 69 then 0 else if steps then x.lock + 1 else 1
  let d := d.setPort p { x with badCw := 0, lock := n, lastCwi := some cwi }
  if n ≥ 4 ∧ d.portState p = 2 then d.setF ELK_STATUS p ELK_STATUS_STATE 3 else d

/-- A codeword that is uncorrectable or carries no SYNC: four in a row lose codeword lock (R279, R292). -/
def Dev.lockBad (d : Dev) (p : Nat) : Dev :=
  let x := d.port p
  let d := d.setPort p { x with badCw := x.badCw + 1, lock := 0, lastCwi := none }
  if x.badCw + 1 ≥ 4 ∧ d.portState p ≥ 3 then d.elkCycle p else d

/-- The codeword's payload reaches the frames of a port that has codeword lock. -/
def Dev.linePayload (d : Dev) (p cwi : Nat) (bad : Bool) (bs : List Byte) : Dev :=
  if d.portState p ≥ 3 then d.setPort p ((d.port p).takePayload cwi bad bs) else d

/-- CODEWORD_RECEIVE: the symbols of a codeword as its lanes brought them are decoded; what the decoder corrects or cannot correct is
counted, SYNC and CWI act on codeword lock, and the payload goes to the frames. `ms` says that a millisecond of the lane counts has
ended before it (R275, R277 to R279, R292, R294). PRESUMED, log entry 35. -/
def execCodewordReceive (p : Port) (lane0 lane1 : List (BitVec 10)) (ms : Bool) (s : State) : Host.Outcome State Fault Refusal :=
  run (fun d =>
    if d.portState p < 2 then d
    else
      let lanes := d.fld ELK_STATUS p ELK_STATUS_RX_LANES
      match rsDecode (fromLanes lanes (lane0.map (·.toNat)) (lane1.map (·.toNat))) with
      | none => (((d.bump ELK_CNT (p * 11 + 3) 1).linePayload p (d.port p).rxCwi true (List.replicate 640 0)).lockBad p).laneSymbols p ms []
      | some (msg, fixed) =>
        let d := if fixed.isEmpty then d else d.bump ELK_CNT (p * 11 + 2) 1
        let (sync, cwi, bs) := messageParts msg
        let d := if sync ≠ 0x1A7B then (d.linePayload p (d.port p).rxCwi false bs).lockBad p
          else
            let d := d.lockGood p cwi
            d.linePayload p (if cwi < 69 then cwi else (d.port p).rxCwi) false bs
        d.laneSymbols p ms (fixed.map (laneOf lanes))) s

/-! ## The capability record (R287) -/

/-- CHECK: the complement of the XOR of bytes 1 to 7. -/
def capCheck (r : Nat) : Nat :=
  255 - ((List.range 7).foldl (fun a k => a ^^^ (r / 2 ^ (8 * (k + 1)) % 256)) 0)

/-- The record that this side sends. -/
def Dev.capSent (d : Dev) (p : Nat) : Nat :=
  let x := d.port p
  let empty := (x.rx.all (fun q => q.2.isEmpty)) && (x.rxPk.all (fun q => q.2.isEmpty))
  let r := 1 * 2 ^ 60 + d.fld ELK_STATUS p ELK_STATUS_GEN * 2 ^ 56 + d.chipId * 2 ^ 41 + p * 2 ^ 38
    + (if empty then 2 ^ 37 else 0) + d.fld ELK_STATUS p ELK_STATUS_RX_LANES * 2 ^ 35
    + 160 * 2 ^ 27 + 64 * 2 ^ 20 + 16 * 2 ^ 15 + d.fld ELK_CTRL p ELK_CTRL_FABRIC * 2 ^ 14
  r + capCheck r

/-- A field of the accepted record of the peer. -/
def Dev.peerCap (d : Dev) (p hi lo : Nat) : Nat := bits (d.rd ELK_PEER_CAP p).toNat hi lo

/-- Whether the peer sent PORT = 7, an endpoint that is not a Zhevurmin device (R287). -/
def Dev.peerEndpoint (d : Dev) (p : Nat) : Bool := d.peerCap p 40 38 == 7

/-- Whether the link may come up: the record accepted, no refusal of R288, both sides READY and GEN_USE equal. -/
def Dev.linkOk (d : Dev) (p : Nat) : Bool :=
  let cap := (d.rd ELK_PEER_CAP p).toNat
  let any := d.flag ELK_CTRL p ELK_CTRL_ANY_WIRING
  cap != 0 && bits cap 63 60 != 0
  && decide (1 ≤ bits cap 34 27) && decide (17 ≤ bits cap 26 20) && decide (9 ≤ bits cap 19 15)
  && (any || (bits cap 40 38 == p ^^^ 1 && bits cap 55 41 == d.neighbourChip p))
  && bits cap 37 37 == 1 && bits (d.capSent p) 37 37 == 1
  && d.fld ELK_STATUS p ELK_STATUS_GEN != 0 && bits cap 59 56 == d.fld ELK_STATUS p ELK_STATUS_GEN

/-- An EXCHANGE port whose conditions hold comes UP: SEQ, EXPECT and credits start afresh (R285, R288, R291). -/
def Dev.linkUp (d : Dev) (p : Nat) : Dev :=
  if d.portState p = 3 ∧ d.linkOk p then
    let x := d.port p
    let d := d.setPort p { x with
      expect := 0, ackTo := 4095, nak := false, badRun := 0, seq := 0, stored := [], replay := [], replayAck := none
      fruitless := 0, moved := false, peerAck := 4095
      credit := Tab.set 0 (Tab.set 0 (Tab.set 0 [] 1 (d.peerCap p 34 27)) 2 (d.peerCap p 26 20)) 3 (d.peerCap p 19 15)
      crLast := [], crRet := [], rxPart := none }
    let d := (List.range 8).foldl (fun (d : Dev) (c : Nat) =>
      let g := d.gen c
      d.setGen c { g with marks := g.marks.filter (fun m => m.1 ≠ p), tokSent := Tab.set 0 g.tokSent p ((d.tickOf c + 2 ^ 48 - 1) % 2 ^ 48) }) d
    (d.replayIdle p).setF ELK_STATUS p ELK_STATUS_STATE 4
  else d

/-- A record is accepted: it is shown in ELK_PEER_CAP, its refusals set their status bits, and GEN_USE is agreed; a peer
that has dropped a receive lane is served on the other one (R287, R288, R294). -/
def Dev.capAccept (d : Dev) (p cap : Nat) : Dev :=
  let d := d.setF ELK_PEER_CAP p ELK_PEER_CAP_RECORD cap
  let d := if bits cap 63 60 = 0 then d.setF ELK_STATUS p ELK_STATUS_GEN_ERR 1
    else d.setF ELK_STATUS p ELK_STATUS_GEN (min 1 (bits cap 63 60))
  let d := if bits cap 34 27 < 1 ∨ bits cap 26 20 < 17 ∨ bits cap 19 15 < 9 then d.setF ELK_STATUS p ELK_STATUS_CAP_ERR 1 else d
  let d := if !(d.flag ELK_CTRL p ELK_CTRL_ANY_WIRING) ∧ (bits cap 40 38 ≠ p ^^^ 1 ∨ bits cap 55 41 ≠ d.neighbourChip p) then
    d.setF ELK_STATUS p ELK_STATUS_WIRING_ERR 1 else d
  let lanes := bits cap 36 35
  if d.portState p = 4 ∧ lanes ≠ 0 ∧ lanes ≠ 3 ∧ (d.port p).txLanes = 3 then
    let d := (d.portLost p).dropQueues p
    let d := d.setPort p { d.port p with txLanes := lanes }
    ((d.setF ELK_STATUS p ELK_STATUS_STATE 3).setF ELK_STATUS p ELK_STATUS_DEGRADED 1).replayIdle p
  else d

/-- A nibble of the peer's record arrives in frame j of a good run; a round of 16 that repeats the last one's valid record
is accepted (R287). -/
def Dev.capNibble (d : Dev) (p j nib : Nat) : Dev :=
  let x := d.port p
  let nibs := if j % 16 = 0 then [nib] else if x.nibs.length = j % 16 then x.nibs ++ [nib] else []
  if nibs.length = 16 then
    let rec0 := nibs.zipIdx.foldl (fun a q => a + q.1 * 16 ^ q.2) 0
    let d := d.setPort p { x with nibs := [], prevCap := some rec0 }
    if x.prevCap = some rec0 ∧ capCheck rec0 = rec0 % 256 then d.capAccept p rec0 else d
  else d.setPort p { x with nibs := nibs }

/-! ## Frames -/

/-- A head flit from the 32 bytes of a slot; none for an idle slot (R281). -/
def headOf (bs : List Byte) : Option Flit :=
  if bs.all (· = 0) then none
  else
    let h : W64 := BitVec.ofNat 64 (at_ bs 0 8)
    let f : Flit := { hdr := h }
    some { f with words := ((List.range 3).map (fun k => BitVec.ofNat 64 (at_ bs (8 + 8 * k) 8))).take (max 1 f.nwords) }

/-- A head flit of class 0 or 1 enters its receive buffer. -/
def PortSt.takeHead (x : PortSt) (f : Flit) : PortSt := { x with rx := Tab.upd [] x.rx f.cls (· ++ [f]) }

/-- A packet is complete. -/
def PortSt.takePacket (x : PortSt) (k : Packet) : PortSt :=
  { x with rxPk := Tab.upd [] x.rxPk (bits k.hdr.toNat 63 62) (· ++ [k]), rxPart := none }

/-- A slot from 1 to 3 of a frame taken in order: a data flit of the packet in progress, a head flit, or idle (R282). -/
def PortSt.takeSlot (x : PortSt) (bs : List Byte) : PortSt :=
  match x.rxPart with
  | some (k, left) =>
    let k := { k with data := k.data ++ [bs] }
    if left ≤ 1 then x.takePacket k else { x with rxPart := some (k, left - 1) }
  | none =>
    match headOf bs with
    | none => x
    | some f =>
      if f.cls ≤ 1 then x.takeHead f
      else
        let k : Packet := { hdr := f.hdr, words := f.words }
        if f.dflits = 0 then x.takePacket k else { x with rxPart := some (k, f.dflits) }

/-- Returned credits of a good frame are added (R285). -/
def PortSt.takeCredit (x : PortSt) (cls new : Nat) : PortSt :=
  let last := Tab.get 0 x.crLast cls
  { x with credit := Tab.upd 0 x.credit cls (· + (new + 64 - last) % 64), crLast := Tab.set 0 x.crLast cls new }

/-- A replay starts: every stored frame is to be resent from the oldest (R290). -/
def Dev.startReplay (d : Dev) (p ack : Nat) : Dev :=
  let x := d.port p
  if x.stored.isEmpty then d
  else
    (((d.setPort p { x with replay := x.stored, replayAck := some ack, moved := false }).bump ELK_CNT (p * 11 + 4) 1).setF
      ELK_STATUS p ELK_STATUS_REPLAYING 1)

/-- ACK frees stored frames up to and including it, so that a running replay resends them no more (R290). -/
def PortSt.takeAck (x : PortSt) (a : Nat) : PortSt :=
  let live := fun (f : Frame) => decide ((a + 4096 - f.seq) % 4096 ≥ 2048)
  let keep := x.stored.filter live
  if keep.length = x.stored.length then { x with peerAck := a }
  else { x with stored := keep, replay := x.replay.filter live, peerAck := a, moved := true, fruitless := 0 }

/-- A bad frame: nothing is taken, its class-0 position is dropped, NAK is set; the twelfth in a row takes the port down
(R284, R291, R292). -/
def Dev.badFrame (d : Dev) (p : Nat) : Dev :=
  let x := d.port p
  let x := { x with nibs := [], prevCap := none, badRun := x.badRun + 1, nak := if d.portUp p then true else x.nak }
  let up := d.portUp p
  let d := d.setPort p x
  let d := d.drop .elkUncorr p 0 0 0 1
  let d := if up then d.setF ELK_STATUS p ELK_STATUS_NAK_ACTIVE 1 else d
  if x.badRun ≥ 12 then d.elkCycle p else d

/-- The flits of a good frame on an UP port, by the receiver's rules (R291). -/
def Dev.goodFlits (d : Dev) (p : Nat) (bs : List Byte) (seq : Nat) (replay : Bool) : Dev :=
  let x := d.port p
  let s0 := headOf (slice bs 0 32)
  if !replay then d.setPort p (match s0 with | some f => x.takeHead f | none => x)
  else if seq = x.expect then
    let x := match s0 with | some f => x.takeHead f | none => x
    let x := [1, 2, 3].foldl (fun x k => x.takeSlot (slice bs (32 * k) 32)) x
    (d.setPort p { x with expect := (seq + 1) % 4096, ackTo := seq, nak := false }).setF ELK_STATUS p ELK_STATUS_NAK_ACTIVE 0
  else
    let (x, aside0) := match s0 with
      | some f => if f.cls = 0 then (x.takeHead f, 0) else (x, 1)
      | none => (x, 0)
    let aside := aside0 + ([1, 2, 3].filter (fun k => (slice bs (32 * k) 32).any (· ≠ 0))).length
    let ahead := decide ((seq + 4096 - x.expect) % 4096 < 2048)
    let d := (d.setPort p { x with nak := x.nak || ahead }).bump ELK_CNT (p * 11 + 10) aside
    if ahead then d.setF ELK_STATUS p ELK_STATUS_NAK_ACTIVE 1 else d

/-- A good frame of a port: credits, ACK, NAK and CAP are taken, and its flits where the link is up; else the link may come up (R285,
R287, R290, R291). -/
def Dev.goodFrame (d : Dev) (p j : Nat) (bytes : List Byte) : Dev :=
  let d := d.bump ELK_CNT (p * 11 + 1) 1
  let c := at_ bytes 128 6
  let d := d.setPort p { d.port p with badRun := 0 }
  let d := d.capNibble p j (bits c 3 0)
  if d.portUp p then
    let x := d.port p
    let x' := ((x.takeCredit 1 (bits c 23 18)).takeCredit 2 (bits c 17 12)).takeCredit 3 (bits c 11 6)
    let ack := bits c 35 24
    let d := d.setPort p (x'.takeAck ack)
    let d := if !x.replay.isEmpty && (d.port p).replay.isEmpty then d.setF ELK_STATUS p ELK_STATUS_REPLAYING 0 else d
    let d := if bits c 4 4 = 1 ∧ (d.port p).replayAck ≠ some ack then d.startReplay p ack else d
    d.goodFlits p bytes (bits c 47 36) (bits c 5 5 == 1)
  else d.linkUp p

/-- FRAME_RECEIVE: the next frame of the superframes received; bad when a codeword that holds part of it is uncorrectable or its CRC
fails. A frame whose class-0 position finds no class-0 buffer free waits until the rim switch has served one (R279, R281 to R286,
R291). PRESUMED, log entry 35. -/
def execFrameReceive (p : Port) (s : State) : Host.Outcome State Fault Refusal :=
  run (fun d =>
    if d.portState p < 3 then d
    else match (d.port p).nextFrame with
    | none => d
    | some (j, cwBad, bytes, x) =>
      if cwBad ∨ crc32c (bytes.take 134) ≠ at_ bytes 134 4 then (d.setPort p x).badFrame p
      else if d.portUp p ∧ (headOf (slice bytes 0 32)).any (fun f => f.cls == 0) ∧ 16 ≤ (Tab.get [] x.rx 0).length then d
      else (d.setPort p x).goodFrame p j bytes) s

/-- Flits of classes 1 to 3 among a frame's slots. -/
def creditedFlits (sl : List (Option Flit)) : Nat := (sl.filterMap id |>.filter (fun f => f.cls ≥ 1)).length

/-- Flits of classes 1 to 3 in the replay buffer. -/
def PortSt.storedFlits (x : PortSt) : Nat := (x.stored.map (fun f => creditedFlits f.slots)).sum

/-- Fill one of slots 1 to 3: the packet in progress, else the first class in `order` with an item and credits for all of
its flits (R282, R285). DEDUCED, log entry 30. -/
def PortSt.fillSlot (x : PortSt) (order : List Nat) : Option Flit × List Nat × PortSt :=
  match x.part with
  | f :: r => (some f, [], { x with part := r })
  | [] =>
    match order.find? (fun k => match Tab.get [] x.q k with | [] => false | i :: _ => i.flits.length ≤ Tab.get 0 x.credit k) with
    | none => (none, [], x)
    | some k =>
      match Tab.get [] x.q k with
      | [] => (none, [], x)
      | i :: r =>
        let x := { x with q := Tab.set [] x.q k r, credit := Tab.upd 0 x.credit k (· - i.flits.length) }
        match i.flits with
        | [] => (none, i.owners, x)
        | f :: fs => (some f, i.owners, { x with part := fs })

/-- Slot 0: a class-0 head, else a class-1 head while no packet is part-sent (R282). -/
def PortSt.fillZero (x : PortSt) (classOne : Bool) : Option Flit × List Nat × PortSt :=
  match x.c0 with
  | i :: r => (i.flits.head?, i.owners, { x with c0 := r })
  | [] =>
    if classOne ∧ x.part.isEmpty then
      match Tab.get [] x.q 1 with
      | [] => (none, [], x)
      | i :: r =>
        if 1 ≤ Tab.get 0 x.credit 1 then
          (i.flits.head?, i.owners, { x with q := Tab.set [] x.q 1 r, credit := Tab.upd 0 x.credit 1 (· - 1) })
        else (none, [], x)
    else (none, [], x)

/-- A new frame of an UP port: its slots, the settled words, the port after it. -/
def PortSt.newFrame (x : PortSt) (order : List Nat) : List (Option Flit) × List Nat × PortSt :=
  let (a, oa, x) := x.fillZero true
  let (b, ob, x) := x.fillSlot order
  let (c, oc, x) := x.fillSlot order
  let (e, oe, x) := x.fillSlot order
  ([a, b, c, e], oa ++ ob ++ oc ++ oe, x)

/-- The control field that a frame carries (R283). -/
def Dev.control (d : Dev) (p seq : Nat) (replayable : Bool) : BitVec 48 :=
  let x := d.port p
  let nib := d.capSent p / 16 ^ (x.txJ % 16) % 16
  BitVec.ofNat 48 (seq * 2 ^ 36 + x.ackTo * 2 ^ 24 + Tab.get 0 x.crRet 1 % 64 * 2 ^ 18 + Tab.get 0 x.crRet 2 % 64 * 2 ^ 12
    + Tab.get 0 x.crRet 3 % 64 * 2 ^ 6 + (if replayable then 32 else 0) + (if x.nak then 16 else 0) + nib)

/-- The 32 bytes of a slot: a flit's words little-endian, or zeros (R281). -/
def slotBytes (f : Option Flit) : List Byte :=
  let bs := match f with
    | none => []
    | some f => if f.isData then f.data else leBytes 8 f.hdr.toNat ++ f.words.flatMap (fun w => leBytes 8 w.toNat)
  (bs ++ List.replicate 32 0).take 32

/-- The 138 bytes of a frame: four slots, the control field, the CRC over both (R281, R283). -/
def frameImage (control : BitVec 48) (sl : List (Option Flit)) : List Byte :=
  let body := sl.flatMap slotBytes ++ leBytes 6 control.toNat
  body ++ leBytes 4 (crc32c body)

/-- Payload bytes are formed; with 640 of them the next codeword is encoded and sent, a superframe's codewords all on the lanes in use
as it starts (R277, R278, R294). -/
def Dev.sendBytes (d : Dev) (p : Nat) (bs : List Byte) : Dev :=
  let x := d.port p
  let buf := x.txBytes ++ bs
  if buf.length < 640 then d.setPort p { x with txBytes := buf }
  else
    let on := if x.txCwi = 0 then x.txLanes else x.txOn
    let l := toLanes on (rsEncode (messageOf x.txCwi (buf.take 640)))
    (d.emitOut (.codeword p l.1 l.2)).setPort p { x with txBytes := buf.drop 640, txCwi := (x.txCwi + 1) % 69, txOn := on }

/-- A frame leaves: it is counted and its position steps. -/
def Dev.sendFrame (d : Dev) (p seq : Nat) (replayable : Bool) (sl : List (Option Flit)) : Dev :=
  let img := frameImage (d.control p seq replayable) sl
  let d := (d.emitOut (.frame p img)).bump ELK_CNT (p * 11) 1
  (d.setPort p { d.port p with txJ := ((d.port p).txJ + 1) % 320 }).sendBytes p img

/-- FRAME_TRANSMIT: one frame period of a port: a frame of a running replay, else a new frame; `prefer` names the class that
the port tries first in slots 1 to 3, `stall` the rim cycles of the period (R282, R285, R290, R294). DEDUCED, log entry 30. -/
def execFrameTransmit (p : Port) (prefer : Fin 3) (stall : Nat) (s : State) : Host.Outcome State Fault Refusal :=
  run (fun d =>
    let x := d.port p
    if d.portState p < 2 then d
    else if d.portState p < 4 then d.sendFrame p x.seq false [none, none, none, none]
    else
      match x.replay with
      | f :: rest =>
        let sl := f.slots.zipIdx.map (fun q => match q.1 with
          | some g => if q.2 = 0 ∧ g.cls = 0 then none else some g
          | none => none)
        let d := (d.sendFrame p f.seq true sl).bump ELK_CNT (p * 11 + 5) (creditedFlits sl)
        let x := d.port p
        if rest.isEmpty then
          let fr := if x.moved then 0 else x.fruitless + 1
          let d := (d.setPort p { x with replay := [], fruitless := fr }).setF ELK_STATUS p ELK_STATUS_REPLAYING 0
          if fr ≥ 4 then d.elkCycle p else d
        else d.setPort p { x with replay := rest }
      | [] =>
        let order := (prefer.val + 1) :: ([1, 2, 3].filter (· ≠ prefer.val + 1))
        let stalled := x.part.isEmpty && order.any (fun k => match Tab.get [] x.q k with
          | [] => false | i :: _ => decide (Tab.get 0 x.credit k < i.flits.length))
        let d := if stalled then d.bump ELK_CNT (p * 11 + 6) stall else d
        let full := x.newFrame order
        let fits := decide (creditedFlits full.1 + x.storedFlits ≤ 512)
        let (sl, os, x') := if fits then full
          else let z := x.fillZero false; ([z.1, none, none, none], z.2.1, z.2.2)
        let replayable := decide (0 < creditedFlits sl)
        let d := d.setPort p x'
        let d := d.sendFrame p x.seq replayable sl
        let zero := match sl with | some f :: _ => f.cls == 0 | _ => false
        let d := if zero && d.flag ELK_STATUS p ELK_STATUS_DEGRADED then d.bump ELK_CNT (p * 11 + 9) 1 else d
        let y := d.port p
        let d := if replayable then
          d.setPort p { y with seq := (y.seq + 1) % 4096, stored := y.stored ++ [⟨y.seq, sl⟩] } else d
        d.ownersDone os) s

/-- REPLAY_TIMEOUT: the oldest stored frame has stayed unacknowledged for REPLAY_TO (R290). -/
def execReplayTimeout (p : Port) (s : State) : Host.Outcome State Fault Refusal :=
  run (fun d => if d.portUp p ∧ (d.port p).replay.isEmpty then d.startReplay p (d.port p).peerAck else d) s

/-- LINK_DOWN: no good frame for DOWN_TO, or lock lost: the port goes down and trains again (R292). -/
def execLinkDown (p : Port) (s : State) : Host.Outcome State Fault Refusal :=
  run (fun d => if d.portState p < 3 then d else d.elkCycle p) s

/-- LANE_FAIL (R294). -/
def execLaneFail (p : Port) (lane : Fin 2) (s : State) : Host.Outcome State Fault Refusal :=
  run (fun d => if d.portState p < 2 then d else d.laneFail p lane) s

end Sys2Proof.Machine
end

