-- ==== Sys2Proof/Machine/Rim.lean ====
section
/-! DEFINITION. The rim switch: its table (R295, R296, R318), ports with failover and hop budget (R297 to R299), packets
(R301, R308), words from gateways with the output rings and AERO (R356 to R359, R325), and stamps of words without a header
(R334, R354). -/

namespace Sys2Proof.Machine

/-! ## The rim table -/

/-- The version of a context for words with no header (R296). -/
def Dev.rimVer (d : Dev) (c : Nat) : Nat := if (d.fld RIM_VER_SEL 0 RIM_VER_SEL_VER).testBit c then 1 else 0

/-- RIM_VER_SEL is written: a flipped context's deselected version is not drained until a wave finds it so (R262, R317). -/
def Dev.rimVerWrite (d : Dev) (v : Nat) : Dev :=
  let flipped := (d.fld RIM_VER_SEL 0 RIM_VER_SEL_VER) ^^^ (v % 256)
  let d := d.setF RIM_VER_SEL 0 RIM_VER_SEL_VER v
  d.setF RIM_VER_STATUS 0 RIM_VER_STATUS_DRAINED ((d.fld RIM_VER_STATUS 0 RIM_VER_STATUS_DRAINED) &&& (255 - flipped))

/-- Whether the rim accepts a write into version `v` of context `c` (R226, R318). -/
def Dev.rimWritable (d : Dev) (c v : Nat) : Bool :=
  d.rimVer c != v && (d.fld RIM_VER_STATUS 0 RIM_VER_STATUS_DRAINED).testBit c && !(d.forwarding c)

/-- Entry `i` of version `v`. -/
def Dev.rimEntry (d : Dev) (v i : Nat) : Nat := Tab.get 0 d.rimTab (v * 16384 + i)

/-- The lowest-indexed matching entry of a context's range; an uncorrectable entry matches no key (R296, R412). -/
def Dev.rimFind (d : Dev) (c v key : Nat) : Option (Nat × Nat) :=
  let base := d.fld RIM_TAB_REGION c RIM_TAB_REGION_BASE
  let n := d.fld RIM_TAB_REGION c RIM_TAB_REGION_COUNT
  ((d.rimTab.filter (fun p => decide (v * 16384 + base ≤ p.1) && decide (p.1 < v * 16384 + base + n) && !(d.rimBad.contains p.1))).find?
    (fun p => entryMatches p.2 key))

/-- The contexts whose rim range holds entry `i`. -/
def Dev.rimOwners (d : Dev) (i : Nat) : List Nat :=
  (List.range 8).filter (fun c =>
    let b := d.fld RIM_TAB_REGION c RIM_TAB_REGION_BASE
    decide (b ≤ i) && decide (i < b + d.fld RIM_TAB_REGION c RIM_TAB_REGION_COUNT))

/-- A rim-table entry is written, if every context that owns it has the version deselected and drained; its reserved bits stay zero (R13,
R295, R318). -/
def Dev.rimWrite (d : Dev) (v i x : Nat) : Bool × Dev :=
  let k := v * 16384 + i
  let x := x / 2 ^ 51 * 2 ^ 51
  if (d.rimOwners i).all (fun c => d.rimWritable c v) then
    (true, { d with rimTab := Tab.set 0 d.rimTab k x, rimBad := d.rimBad.filter (· != k)
                    rimLost := d.rimLost.map (fun y => if y.1 = k then (k, x) else y) })
  else (false, d.setF RIM_STATUS 0 RIM_STATUS_WR_BUSY 1)

/-! ## Port outputs -/

/-- RIM_XPT.HOPS, 0 taken as 1 (R317). -/
def Dev.xptHops (d : Dev) : Nat := max 1 (d.fld RIM_XPT 0 RIM_XPT_HOPS)

/-- An event copy joins the last matching item of a queue, or is queued as a flit of its own (R239, R295). -/
def packItem (joins : Bool) (q : List TxItem) (f : Flit) (o : Nat) : List TxItem :=
  match q.reverse with
  | [] => [⟨[f], [o]⟩]
  | last :: before =>
    match last.flits with
    | [g] =>
      if joins ∧ g.words.length < 3 ∧ evKind (g.words.headD 0) < 4 ∧ g.rehead g.cls 1 g.mask g.aux = { f with words := g.words } then
        before.reverse ++ [⟨[{ (g.rehead g.cls (g.words.length + 1) g.mask g.aux) with words := g.words ++ f.words }], last.owners ++ [o]⟩]
      else q ++ [⟨[f], [o]⟩]
    | _ => q ++ [⟨[f], [o]⟩]

/-- One copy of a word to a port in class 0 or 1: a full class-0 queue demotes it (R299). -/
def Dev.toPort (d : Dev) (p : Nat) (joins : Bool) (cls flow ver hops ctx : Nat) (w : W64) (o : Nat) : Dev :=
  let x := d.port p
  if cls = 0 ∧ x.c0.length < 16 then
    d.setPort p { x with c0 := packItem joins x.c0 { hdr := hdrOf 0 ver 1 hops 0 ctx 0 flow, words := [w] } o }
  else
    let d := if cls = 0 then d.bump RIM_CNT 3 1 else d
    d.setPort p { x with q := Tab.upd [] x.q 1 (fun q => packItem joins q { hdr := hdrOf 1 ver 1 hops 0 ctx 0 0, words := [w] } o) }

/-- Whether the mesh side of a gateway is power-gated: in Nap, or with its half stopped (R478, R487). -/
def Dev.gatewayDown (d : Dev) (g : Nat) : Bool :=
  d.fld PWR_STATUS 0 PWR_STATUS_STATE == 2 || d.halfStopped (halfOf (gwTiles.getD g 0))

/-- One copy of a word into the mesh through gateway `g`; the gateway tile counts it as it enters (R40, R143). -/
def Dev.toGateway (d : Dev) (g : Nat) (x : Inbound) : Dev :=
  if d.gatewayDown g then d.drop .rimPortDown 0 x.ctx x.cls (evKey x.word) 1
  else ({ d with gwIn := Tab.upd [] d.gwIn g (· ++ [x]) }).flight (gwTiles.getD g 0) x.ctx (evTick x.word % 2) x.ver 1

/-- Up ports as a mask. -/
def Dev.upMask (d : Dev) : Nat := (List.range 6).foldl (fun a p => if d.portUp p then a + 2 ^ p else a) 0

/-- The port and gateway copies of a word that hit entry `x` (R297, R298): `arr` is the port it arrived on. -/
def Dev.switchCopies (d : Dev) (x : Nat) (arr : Option Nat) (joins : Bool) (w : W64) (ctx cls ver hops : Nat) : Dev :=
  let arrMask := match arr with | some p => 2 ^ p | none => 0
  let pm0 := bits x 88 83
  let am0 := bits x 82 77
  let up := d.upMask
  let pm := pm0 - (pm0 &&& arrMask)
  let am := am0 - (am0 &&& arrMask)
  let down := pm - (pm &&& up)
  let failover := decide (down ≠ 0)
  let uturn := (pm0 &&& arrMask) != 0 || (failover && (am0 &&& arrMask) != 0)
  let d := if uturn then d.bump RIM_CNT 4 1 else d
  let alt := if failover then am &&& up else 0
  let ecls := if bits x 68 67 = 0 then 0 else 1
  let flow := bits x 66 51
  let key := evKey w
  let d := if alt ≠ 0 then d.bump RIM_CNT 1 1 else d
  let d := if failover ∧ alt = 0 then (ones 6 down).foldl (fun d _ => d.drop .rimPortDown 0 ctx ecls key 1) d else d
  let prim := pm &&& up
  let out := prim ||| alt
  let par := evTick w % 2
  let o := d.nextOwner
  let d := if hops = 0 then (ones 6 out).foldl (fun d p =>
      d.drop .rimHops 0 ctx (if prim.testBit p then ecls else 1) key 1) d
    else if out = 0 then d
    else
      let d := { d with owners := Tab.set {} d.owners o ⟨popc 6 out, ctx, par, ver⟩, nextOwner := o + 1 }
      (ones 6 out).foldl (fun d p =>
        if prim.testBit p then d.toPort p joins ecls flow ver hops ctx w o
        else
          let d := if ecls = 0 then d.bump RIM_CNT 2 1 else d
          d.toPort p joins 1 0 ver hops ctx w o) d
  let d := (ones 8 (bits x 76 69)).foldl (fun d g => d.toGateway g ⟨w, ctx, cls, ver, hops⟩) d
  if hops = 0 ∨ out = 0 then d.flight 32 ctx par ver (-1) else d

/-- Whether each gateway that takes a copy of a word has a buffer free for its class: 4 flits in class 0 and 56 in class 1 (R46). -/
def Dev.gatesFree (d : Dev) (ctx ver cls key : Nat) : Bool :=
  match d.rimFind ctx ver key with
  | none => true
  | some (_, x) => (ones 8 (bits x 76 69)).all (fun g =>
      d.gatewayDown g || decide (((Tab.get [] d.gwIn g).filter (fun y => y.cls == cls)).length < (if cls = 0 then 4 else 56)))

/-- A word in the rim switch is looked up and copied (R296 to R299); `counted` when the rim already counts it. -/
def Dev.switch (d : Dev) (arr : Option Nat) (joins entryBad : Bool) (w : W64) (ctx cls ver hops : Nat) (counted : Bool) : Dev :=
  let par := evTick w % 2
  let d := if counted then d else d.flight 32 ctx par ver 1
  let d := d.bump RIM_CNT 0 1
  let d := match d.rimFind ctx ver (evKey w) with
    | some (i, _) =>
      if entryBad then ({ d with rimBad := d.rimBad ++ [i] }.bump FLT_CNT 5 1).occur 0x3B15 2 ctx srcRim 0 else d
    | none => d
  match d.rimFind ctx ver (evKey w) with
  | none => (d.drop .rimNullMask 0 ctx cls (evKey w) 1).flight 32 ctx par ver (-1)
  | some (_, x) =>
    if bits x 88 69 = 0 then
      (d.drop .rimNullMask 0 ctx cls (evKey w) 1).flight 32 ctx par ver (-1)
    else d.switchCopies x arr joins w ctx cls ver hops

/-! ## Packets (R301, R308) -/

/-- DST_CHIP. -/
def Packet.dst (k : Packet) : Nat := bits (k.words.headD 0).toNat 63 49
/-- SRC_CHIP. -/
def Packet.src (k : Packet) : Nat := bits (k.words.headD 0).toNat 48 34
/-- TSEQ. -/
def Packet.tseq (k : Packet) : Nat := bits (k.words.headD 0).toNat 33 18
/-- TCTX. -/
def Packet.tctx (k : Packet) : Nat := bits (k.words.headD 0).toNat 17 15
/-- TTYPE. -/
def Packet.ttype (k : Packet) : Nat := bits (k.words.headD 0).toNat 14 12
/-- RETRY. -/
def Packet.retry (k : Packet) : Nat := bits (k.words.headD 0).toNat 11 10
/-- Word 2. -/
def Packet.w2 (k : Packet) : Nat := (k.words.getD 1 0).toNat
/-- Word 3. -/
def Packet.w3 (k : Packet) : Nat := (k.words.getD 2 0).toNat
/-- CLASS. -/
def Packet.cls (k : Packet) : Nat := bits k.hdr.toNat 63 62
/-- HOPS. -/
def Packet.hops (k : Packet) : Nat := bits k.hdr.toNat 58 53

/-- A transport header. -/
def xptWord (dst src tseq tctx ttype retry : Nat) : W64 :=
  BitVec.ofNat 64 (dst % 2 ^ 15 * 2 ^ 49 + src % 2 ^ 15 * 2 ^ 34 + tseq % 2 ^ 16 * 2 ^ 18 + tctx % 8 * 2 ^ 15
    + ttype % 8 * 2 ^ 12 + retry % 4 * 2 ^ 10)

/-- A packet with its route header replaced: HOPS, RIM, MASK. -/
def Packet.rehead (k : Packet) (hops rim mask : Nat) : Packet :=
  { k with hdr := hdrOf k.cls 0 k.words.length hops rim (bits k.hdr.toNat 50 48) mask (bits k.hdr.toNat 15 0) }

/-- A packet with its transport header replaced. -/
def Packet.retag (k : Packet) (tseq retry : Nat) : Packet :=
  { k with words := xptWord k.dst k.src tseq k.tctx k.ttype retry :: k.words.drop 1 }

/-- Cut bytes into data flits of 32 bytes, the last padded with zeros. -/
def dataFlits (bs : List Byte) : List (List Byte) :=
  (List.range (cdiv bs.length 32)).map (fun k =>
    let x := slice bs (32 * k) 32
    x ++ List.replicate (32 - x.length) 0)

/-- A packet of this chip before transport numbers it. -/
def Dev.mkPacket (d : Dev) (cls ctx dst ttype : Nat) (rest : List W64) (payload : List Byte) : Packet :=
  let ds := dataFlits payload
  { hdr := hdrOf cls 0 (1 + rest.length) 0 0 ctx 0 ds.length, words := xptWord dst d.chipId 0 ctx ttype 0 :: rest, data := ds }

/-- A class-2 DATA packet (R308). -/
def Dev.mkBulk (d : Dev) (ctx dst compl addr : Nat) (payload : List Byte) : Packet :=
  d.mkPacket 2 ctx dst 0
    [BitVec.ofNat 64 (compl % 256 * 2 ^ 56 + (payload.length - 1) % 512 * 2 ^ 47 + addr % 2 ^ 47)] payload

/-- The port for a destination chip: X, then Y, then Z, with the down-port rule (R301); none without a usable port. -/
def Dev.routePort (d : Dev) (dst : Nat) : Option Nat :=
  ((List.range 3).filterMap (fun dim =>
    let n := d.torus dim
    let off := (chipAt dst dim + n - chipAt d.chipId dim % n) % n
    if off = 0 then none
    else
      let p := if off ≤ n / 2 then 2 * dim else 2 * dim + 1
      if d.portUp p then some p
      else if n > 2 ∧ d.portUp (p ^^^ 1) then some (p ^^^ 1)
      else none)).head?

/-- A packet leaves for another chip through the port of R301, or is dropped at DP-RIM-PORTDOWN. -/
def Dev.forward (d : Dev) (k : Packet) : Dev :=
  match d.routePort k.dst with
  | none => d.drop .rimPortDown 0 (bits k.hdr.toNat 50 48) k.cls 0 1
  | some p =>
    let x := d.port p
    d.setPort p { x with q := Tab.upd [] x.q k.cls (· ++ [⟨k.flits, []⟩]) }

/-- Key of a transport sequence space. -/
def xptKey (chip ctx cls : Nat) : Nat := (chip * 8 + ctx) * 4 + cls

/-- A packet that starts on this chip is numbered, kept until acknowledged, and sent; a full window holds it back (R309). -/
def Dev.xptSend (d : Dev) (k : Packet) : Dev :=
  let key := xptKey k.dst k.tctx k.cls
  let x := Tab.get ({} : XptTx) d.xptTx key
  let k := k.rehead d.xptHops 0 0
  if k.ttype = 1 then d.forward k
  else if 256 ≤ x.unacked.length then { d with xptTx := Tab.set {} d.xptTx key { x with waiting := x.waiting ++ [k] } }
  else
    let k := k.retag x.next 0
    ({ d with xptTx := Tab.set {} d.xptTx key { x with
        next := (x.next + 1) % 65536, unacked := x.unacked ++ [(x.next, 0, k)] } }).forward k

/-- The gateway of a tile's half that is nearest to it, by mesh hops (R301). -/
def gatewayOf (t : Nat) : Nat :=
  let dist := fun (g : Nat) =>
    let u := gwTiles.getD g 0
    (max (u / 8) (t / 8) - min (u / 8) (t / 8)) + (max (u % 8) (t % 8) - min (u % 8) (t % 8))
  ((List.range 8).filter (fun g => halfOf (gwTiles.getD g 0) == halfOf t)).foldl
    (fun b g => if dist g < dist b then g else b) (if halfOf t = 0 then 0 else 2)

/-- The tile whose endpoint a packet for this chip is for: by address in class 2, by agent in class 3 (a bounce goes to
the agent that sent it); none for the rim side (R301, R390, R405, R545). -/
def Packet.tile (k : Packet) : Option Nat :=
  if k.cls = 2 then
    let a := k.w2 % 2 ^ 47
    if 0x1000000000 ≤ a ∧ a < 0x1000000000 + 32 * 0x2000000 then some ((a - 0x1000000000) / 0x2000000) else none
  else
    let g := if bits k.w2 39 38 = 2 then bits k.w2 27 22 else bits k.w2 37 32
    if 1 ≤ g ∧ g ≤ 32 then some (g - 1) else none

/-- A packet for this chip goes to its endpoint: on the rim side at once, for a tile through the gateway into the mesh
(R301); with the mesh side of the gateway power-gated it is dropped (R478). -/
def Dev.deliver (d : Dev) (k : Packet) : Dev :=
  match k.tile with
  | none => { d with endIn := Tab.upd [] d.endIn 0 (· ++ [k]) }
  | some t =>
    let g := gatewayOf t
    if d.gatewayDown g then d.drop .rimPortDown 0 (bits k.hdr.toNat 50 48) k.cls 0 1
    else
      d.feedPacket (gwTiles.getD g 0) 5 (k.rehead k.hops 0 (2 ^ t))

/-- A tile's endpoint sends a packet into the mesh: to a tile of this chip, or through its gateway to the rim. -/
def Dev.tileSend (d : Dev) (t : Nat) (k : Packet) : Dev :=
  let k := match k.tile with
    | some u => if k.dst = d.chipId then k.rehead 0 0 (2 ^ u) else k.rehead 0 1 (2 ^ gwTiles.getD (gatewayOf t) 0)
    | none => k.rehead 0 1 (2 ^ gwTiles.getD (gatewayOf t) 0)
  d.feedPacket t 4 k

/-- The rim sends or delivers a packet of this chip. -/
def Dev.rimSend (d : Dev) (k : Packet) : Dev := if k.dst = d.chipId then d.deliver k else d.xptSend k

/-- A packet enters the rim switch (R298, R301, R316): `arr` the port it came through. -/
def Dev.rimPacket (d : Dev) (arr : Option Nat) (found : FlitFinding) (k : Packet) : Dev :=
  let ctx := bits k.hdr.toNat 50 48
  let n := 1 + k.data.length
  if found = .badHeader ∨ !k.head.headerOk ∨ k.ttype > 1 then d.drop .rimHdrErr 0 ctx k.cls 0 n
  else if found = .badWord then d.drop .rimBufErr 0 ctx k.cls 0 n
  else
    let d := d.bump FLT_OFF (ctx * 4 + k.cls) 1
    match arr with
    | none => d.rimSend k
    | some p =>
      if k.hops = 0 then d.drop .rimHops 0 ctx k.cls 0 1
      else
        let k := { k.rehead (k.hops - 1) 0 0 with via := if d.peerEndpoint p then 1 else 0 }
        if k.dst = d.chipId then { d with xptIn := d.xptIn ++ [k] }
        else if k.hops = 0 then d.drop .rimHops 0 ctx k.cls 0 1
        else d.forward k

/-! ## Words entering the switch -/

/-- The stamp of a sensor word (R334): the tick and whether BACK raised it. DEDUCED, log entry 11. -/
def Dev.sensorStamp (d : Dev) (c input L : Nat) : Nat × Bool :=
  let u := d.tickOf c
  let js := ((d.gen c).starts.filter (fun p => p.2 ≤ L)).map (·.1)
  let j := js.foldl max (u - 15)
  let low := u + 1 - d.fld SNS_IN_CFG input SNS_IN_CFG_BACK
  (max (j + 1) low, decide (j + 1 < low))

/-- A word with its TICK field replaced. -/
def restamp (w : W64) (n : Nat) : W64 := evWord (evKind w) n (evKey w) (evData w)

/-- A word waiting at an input that holds no header or came from a gateway enters the switch: stamped where it has no
header (R296, R298, R334, R354), offered and mirrored where it comes from outside the mesh (R416, R529). -/
def Dev.enterSwitch (d : Dev) (src : Nat) (x : RimWord) (joins entryBad : Bool) : Dev :=
  let c := x.ctx
  if src < 8 then
    let (n, d) := match x.sns with
      | some (i, L) =>
        let (n, raised) := d.sensorStamp c i L
        (n, if raised then d.bump SNS_PC (7 * 32 + i) 1 else d)
      | none => (d.tickOf c + 1, d)
    if src = 7 ∧ !(d.gen c).running then d.drop .hstCtxStop 0 c x.cls (evKey x.word) 1
    else
    let w := restamp x.word n
    let d := (d.bump FLT_OFF (c * 4 + x.cls) 1).mirror 2 32 src c x.cls w n
    d.switch none joins entryBad w c x.cls (d.rimVer c) d.xptHops false
  else d.switch none joins entryBad x.word c x.cls (x.ver.getD 0) x.hops true

/-- A credit goes back to the peer for each flit of classes 1 to 3 that leaves a receive buffer (R285). -/
def Dev.giveCredit (d : Dev) (p cls n : Nat) : Dev :=
  if cls = 0 then d
  else
    let x := d.port p
    d.setPort p { x with crRet := Tab.upd 0 x.crRet cls (fun k => (k + n) % 64) }

/-- The first word of the oldest head flit in a port's receive buffer enters the switch, unless a gateway has no buffer for its copy (R46,
R295, R298, R302, R316). -/
def Dev.portWord (d : Dev) (p cls : Nat) (found : FlitFinding) (joins entryBad : Bool) : Dev :=
  let x := d.port p
  match Tab.get [] x.rx cls with
  | [] => d
  | f :: q =>
    let w := f.words.headD 0
    let done := d.setPort p { x with rx := Tab.set [] x.rx cls q }
    let freed := done.giveCredit p cls 1
    if found = .badHeader ∨ !f.headerOk ∨ f.words.any (fun w => evKind w == 0 || decide (evKind w > 5)) then
      freed.drop .rimHdrErr 0 f.ctx cls (evKey w) 1
    else if evKind w ≤ 3 ∧ f.hops ≠ 0 ∧ !entryBad ∧ !(d.gatesFree f.ctx f.ver cls (evKey w)) then d
    else if found = .badWord then freed.drop .rimBufErr 0 f.ctx cls (evKey w) 1
    else
      let rest := f.words.drop 1
      let d := if rest.isEmpty then freed else d.setPort p { x with rx := Tab.set [] x.rx cls ({ f with words := rest } :: q) }
      if evKind w = 4 ∨ evKind w = 5 then { d with marksIn := Tab.upd [] d.marksIn p (· ++ [(f.ctx, w)]) }
      else if f.hops = 0 then d.drop .rimHops 0 f.ctx cls (evKey w) 1
      else
        let d := (d.bump FLT_OFF (f.ctx * 4 + cls) 1).mirror 2 32 p f.ctx cls w (fullTick (d.tickOf f.ctx) (evTick w))
        d.switch (some p) joins entryBad w f.ctx cls f.ver (f.hops - 1) false

/-- The port whose class-0 flit the rim switch serves ahead of what an input offers, unless that is of class 0 itself (R286). -/
def Dev.zeroFirst (d : Dev) (src : RimSource) : Option Nat :=
  let own : Bool := match src with
    | .port p cls => cls.val == 0 && !(Tab.get [] (d.port p).rx 0).isEmpty
    | .gateway g => ((Tab.get [] d.swIn (8 + g.val)).head?).any (fun x => x.cls == 0)
    | _ => false
  if own then none else (List.range 6).find? (fun p => !(Tab.get [] (d.port p).rx 0).isEmpty)

/-- The oldest word of an input of the switch: 6 the sensor ingress, 7 the host rings, 8 + g gateway g; it waits while a gateway has no
buffer for its copy (R46, R295). -/
def Dev.inputWord (d : Dev) (k : Nat) (found : FlitFinding) (joins entryBad : Bool) : Dev :=
  match Tab.get [] d.swIn k with
  | [] => d
  | x :: q =>
    let ver := if k < 8 then d.rimVer x.ctx else x.ver.getD 0
    if !entryBad ∧ !(k == 7 && !(d.gen x.ctx).running) ∧ !(d.gatesFree x.ctx ver x.cls (evKey x.word)) then d
    else
      let d := { d with swIn := Tab.set [] d.swIn k q }
      if found = .badWord then
        let d := d.drop .rimBufErr 0 x.ctx x.cls (evKey x.word) 1
        if 8 ≤ k then d.flight 32 x.ctx (evTick x.word % 2) (x.ver.getD 0) (-1) else d
      else d.enterSwitch k x joins entryBad

/-- RIM_LOOKUP: the oldest word or packet at an input of the rim switch, class 0 ahead of the other classes (R286, R295 to R299,
R301). -/
def execRimLookup (src : RimSource) (found : FlitFinding) (joins entryBad : Bool) (s : State) :
    Host.Outcome State Fault Refusal :=
  run (fun d =>
    match d.zeroFirst src with
    | some p => d.portWord p 0 found joins entryBad
    | none =>
    match src with
    | .sensor => d.inputWord 6 found joins entryBad
    | .host => d.inputWord 7 found joins entryBad
    | .gateway g => d.inputWord (8 + g.val) found joins entryBad
    | .packet =>
      match d.pkIn with
      | [] => d
      | k :: q => ({ d with pkIn := q }).rimPacket none found k
    | .port p cls =>
      if cls.val ≤ 1 then d.portWord p cls found joins entryBad
      else
        let x := d.port p
        match Tab.get [] x.rxPk cls with
        | [] => d
        | k :: q =>
          let d := (d.setPort p { x with rxPk := Tab.set [] x.rxPk cls q }).giveCredit p cls (1 + k.data.length)
          d.rimPacket (some p) found k) s

/-! ## Words from the mesh: output rings and AERO -/

/-- Whether VF `c` is enabled (R346). -/
def Dev.vfOn (d : Dev) (c : Nat) : Bool := decide (c < d.pcie.numVfs)

/-- Function that serves a context: its VF where enabled, else the PF (R347). -/
def Dev.fnOf (d : Dev) (c : Nat) : Nat := if d.vfOn c then 1 + c else 0

/-- Whether a function may issue DMA (R348). -/
def Dev.dmaOk (d : Dev) (fn : Nat) : Bool :=
  d.pcie.link && !d.pcie.perst && d.pcie.busMaster.testBit fn && !(d.pcie.d3hot.testBit fn)

/-- log2 of a ring's entries; 0 closed, 1 to 5 taken as 6, above 16 as 16 (R362). -/
def ringBits (n : Nat) : Nat := if n = 0 then 0 else max 6 (min 16 n)

/-- An output ring signals its vector (R359). -/
def Dev.ringSignal (d : Dev) (c j : Nat) : Dev :=
  let r := Tab.get ({} : OutRing) d.outRings (c * 4 + j)
  let d := { d with outRings := Tab.set {} d.outRings (c * 4 + j) { r with since := 0 } }
  if d.vfOn c then d.msix (1 + c) (4 + j) else d.msix 0 (32 + c * 4 + j)

/-- A word is written as a 16-byte entry at TAIL, or dropped (R348, R356, R358, R359). -/
def Dev.ringTake (d : Dev) (c j cls : Nat) (w : W64) : Dev :=
  let i := c * 4 + j
  let n := 2 ^ ringBits (d.fld HST_OUT_CTRL i HST_OUT_CTRL_SIZE)
  let tail := d.fld HST_OUT_PTR i HST_OUT_PTR_TAIL
  if !(d.dmaOk (d.fnOf c)) then d.drop .hstNoBus 0 c cls (evKey w) 1
  else if (tail + 1) % n = d.fld HST_OUT_PTR i HST_OUT_PTR_HEAD then d.drop .hstOutFull 0 c cls (evKey w) 1
  else
    let r := Tab.get ({} : OutRing) d.outRings i
    let stamp := fullTick (d.tickOf c) (evTick w)
    let bytes := leBytes 8 w.toNat ++ leBytes 6 stamp ++ [0, if r.phase then 0x80 else 0]
    let d := d.hostW (d.fld HST_OUT_BASE i HST_OUT_BASE_ADDR * 4096 + tail * 16) bytes
    let next := (tail + 1) % n
    let d := d.setF HST_OUT_PTR i HST_OUT_PTR_TAIL next
    let d := { d with outRings := Tab.set {} d.outRings i ⟨if next = 0 then !r.phase else r.phase, r.since + 1⟩ }
    if r.since + 1 ≥ max 1 (d.fld HST_OUT_CTRL i HST_OUT_CTRL_THRESH) then d.ringSignal c j else d

/-- The ring that takes a word: the lowest-numbered enabled ring of its context that matches (R356, R357). -/
def Dev.ringOf (d : Dev) (c : Nat) (w : W64) : Option Nat :=
  (List.range 4).find? (fun j =>
    let m := d.fld HST_OUT_MATCH (c * 4 + j) HST_OUT_MATCH_MASK
    d.flag HST_OUT_CTRL (c * 4 + j) HST_OUT_CTRL_EN && d.fld HST_OUT_CTRL (c * 4 + j) HST_OUT_CTRL_SIZE != 0
    && (evKey w &&& m) == (d.fld HST_OUT_MATCH (c * 4 + j) HST_OUT_MATCH_MATCH &&& m))

/-- Whether AERO takes a word (R325). -/
def Dev.aeroTakes (d : Dev) (c : Nat) (w : W64) : Bool :=
  let m := d.fld SNS_AERO_KEY 0 SNS_AERO_KEY_MASK
  d.flag SNS_AER_CTRL 0 SNS_AER_CTRL_AERO_EN && d.fld SNS_AER_CTRL 0 SNS_AER_CTRL_CTX == c
  && (evKind w == 1 || evKind w == 2) && (evKey w &&& m) == (d.fld SNS_AERO_KEY 0 SNS_AERO_KEY_MATCH &&& m)

/-- A word that the rim has taken from a gateway goes to its takers, and to the switch where every taker passes it or
nothing takes it (R357). -/
def Dev.gatewayWord (d : Dev) (g : Nat) (x : RimWord) : Dev :=
  let w := x.word
  let c := x.ctx
  let ring := d.ringOf c w
  let aero := d.aeroTakes c w
  let pass := (match ring with | some j => d.flag HST_OUT_CTRL (c * 4 + j) HST_OUT_CTRL_PASS | none => true)
    && (!aero || d.flag SNS_AER_CTRL 0 SNS_AER_CTRL_PASS)
  let d := match ring with | some j => d.ringTake c j x.cls w | none => d
  let d := if aero then
      (if d.aero.length < 256 then { d with aero := d.aero ++ [(evKey w, c, x.cls)] }
       else d.drop .snsAeroFull 18 c x.cls (evKey w) 1) else d
  if pass then { d with swIn := Tab.upd [] d.swIn (8 + g) (· ++ [x]) }
  else d.flight 32 c (evTick w % 2) (x.ver.getD 0) (-1)

/-- RIM_GATEWAY_INGRESS: the rim takes the next word or packet at a gateway's rim port; an event copy is subtracted from
the gateway tile and added to the rim (R303, R316, R357, R412). -/
def execRimGatewayIngress (g : Fin 8) (found : FlitFinding) (s : State) : Host.Outcome State Fault Refusal :=
  run (fun d =>
    let t := gwTiles.getD g 0
    let free := fun (d : Dev) (cls n : Nat) =>
      let r := d.router t
      d.setRouter t { r with used := Tab.upd 0 r.used (20 + cls) (· - n) }
    match Tab.get [] d.rimIn g with
    | [] => d
    | f :: q =>
      if f.cls ≤ 1 then
        let w := f.words.headD 0
        let gone := free { d with rimIn := Tab.set [] d.rimIn g q } f.cls 1
        let out := f.words.foldl (fun (d : Dev) w => d.flight t f.ctx (evTick w % 2) f.ver (-1)) gone
        if found = .badHeader ∨ !f.headerOk then gone.drop .rimHdrErr 0 f.ctx f.cls (evKey w) 1
        else if f.words.any (fun w => evKind w == 0 || decide (evKind w > 3)) then out.drop .rimHdrErr 0 f.ctx f.cls (evKey w) 1
        else if found = .badWord then
          out.drop .rimBufErr 0 f.ctx f.cls (evKey w) 1
        else
          let rest := f.words.drop 1
          let d := if rest.isEmpty then gone else { d with rimIn := Tab.set [] d.rimIn g ({ f with words := rest } :: q) }
          let d := d.flight t f.ctx (evTick w % 2) f.ver (-1)
          (d.flight 32 f.ctx (evTick w % 2) f.ver 1).gatewayWord g ⟨w, f.ctx, f.cls, some f.ver, f.hops, none⟩
      else
        match assemble f.cls (f :: q) with
        | none => d
        | some (k, rest) =>
          let d := free { d with rimIn := Tab.set [] d.rimIn g rest } f.cls (1 + q.length - rest.length)
          { d with pkIn := d.pkIn ++ k.toList }) s

/-- OUTPUT_RING_TIMER: TIMER_US after the first entry not yet signalled (R359). -/
def execOutputRingTimer (c : Ctx) (j : Fin 4) (s : State) : Host.Outcome State Fault Refusal :=
  run (fun d =>
    if d.fld HST_OUT_CTRL (c * 4 + j) HST_OUT_CTRL_TIMER_US ≠ 0 ∧ 0 < (Tab.get ({} : OutRing) d.outRings (c * 4 + j)).since then
      d.ringSignal c j else d) s

/-! ## Rim-table registers -/

/-- RIM_TAB_LO_READ: all 128 bits of the selected entry are captured; an entry of a confidential context reads zero (R317). -/
def execRimTabLoRead (s : State) : Host.Outcome State Fault Refusal :=
  run (fun d =>
    let i := d.fld RIM_TAB_SEL 0 RIM_TAB_SEL_INDEX
    let closed := (d.rimOwners i).any d.confidential
    let x := if closed then 0 else d.rimEntry (d.fld RIM_TAB_SEL 0 RIM_TAB_SEL_VERSION) i
    let d := if closed then d.closed RIM_TAB_LO 0 else d
    (d.setF RIM_TAB_LO 0 RIM_TAB_LO_ENTRY_LO (x % 2 ^ 64)).setF RIM_TAB_HI 0 RIM_TAB_HI_ENTRY_HI (x / 2 ^ 64)) s

/-- RIM_TAB_HI_WRITE: held until the next write of RIM_TAB_LO (R317). -/
def execRimTabHiWrite (half : Half) (v : W64) (s : State) : Host.Outcome State Fault Refusal :=
  run (fun d => { d with rimHeld := halfMerge half d.rimHeld v }) s

/-- RIM_TAB_LO_WRITE: a write that covers the high half commits the entry, subject to R318; the host's write of a
confidential context's entry is ignored (R317). -/
def execRimTabLoWrite (who : Requester) (half : Half) (v : W64) (s : State) : Host.Outcome State Fault Refusal :=
  run (fun d =>
    let i := d.fld RIM_TAB_SEL 0 RIM_TAB_SEL_INDEX
    let lo := halfMerge half (d.rd RIM_TAB_LO 0) v
    if viaPf who ∧ (d.rimOwners i).any d.confidential then d.closed RIM_TAB_LO 0
    else if !(halfCommits half) then d.wr RIM_TAB_LO 0 lo
    else ((d.wr RIM_TAB_LO 0 lo).rimWrite (d.fld RIM_TAB_SEL 0 RIM_TAB_SEL_VERSION) i (lo.toNat + d.rimHeld.toNat * 2 ^ 64)).2) s

/-- RIM_TAB_REGION_WRITE: a range that passes the table's end is ignored with CFG_ERR (R318). -/
def execRimTabRegionWrite (c : Ctx) (v : W32) (s : State) : Host.Outcome State Fault Refusal :=
  run (fun d =>
    let x : W64 := v.setWidth 64
    if RIM_TAB_REGION_BASE.get x + RIM_TAB_REGION_COUNT.get x > 16384 then d.setF RIM_STATUS 0 RIM_STATUS_CFG_ERR 1
    else d.store RIM_TAB_REGION c .whole x) s

/-- RIM_TABLE_REWRITE: an entry that is uncorrectable, or that a rim reset has cleared, is rewritten from Usher's copy; with the last of
the cleared ones the ports train (R314, R412). -/
def execRimTableRewrite (ver : Fin 2) (i : BitVec 14) (s : State) : Host.Outcome State Fault Refusal :=
  run (fun d =>
    let k := ver * 16384 + i.toNat
    let d : Dev := { d with rimBad := d.rimBad.filter (· ≠ k) }
    match d.rimLost.lookup k with
    | none => d
    | some x =>
      let d : Dev := { d with rimTab := Tab.set 0 d.rimTab k x, rimLost := d.rimLost.filter (fun y => y.1 != k) }
      if d.rimLost.isEmpty then (List.range 6).foldl (fun (d : Dev) p => d.elkStart p) d else d) s

/-- RIM_RESET's discard: every flit held in the rim is dropped at DP-RIM-RESET under its header's context and class, and its
words leave the in-flight counters (R314, R478). -/
def Dev.rimFlush (d : Dev) : Dev :=
  let dropF := fun (d : Dev) (f : Flit) => d.drop .rimReset 0 f.ctx f.cls (if f.isData then 0 else evKey (f.words.headD 0)) 1
  let d := (List.range 6).foldl (fun (d : Dev) (p : Nat) =>
    let x := d.port p
    let items := x.c0 ++ Tab.get [] x.q 1 ++ Tab.get [] x.q 2 ++ Tab.get [] x.q 3
    let kept := x.stored.flatMap (fun f => f.slots.filterMap id |>.filter (fun g => g.cls ≥ 1))
    let partIn := match x.rxPart with | some (k, _) => k.flits | none => []
    let held := items.flatMap (·.flits) ++ x.part ++ kept ++ partIn ++ Tab.get [] x.rx 0 ++ Tab.get [] x.rx 1
      ++ (Tab.get [] x.rxPk 2 ++ Tab.get [] x.rxPk 3).flatMap Packet.flits
    let d := held.foldl dropF d
    let d := items.foldl (fun d i => d.ownersDone i.owners) d
    let d : Dev := if d.portState p = 0 then d else d.bump ELK_CNT (p * 11 + 7) 1
    (d.setPort p {}).emitOut (.idle p)) d
  let d := (List.range 8).foldl (fun (d : Dev) (g : Nat) =>
    let t := gwTiles.getD g 0
    let fs := Tab.get [] d.rimIn g
    let d := fs.foldl dropF d
    let d := (fs.filter (fun f => f.cls ≤ 1)).foldl (fun d f =>
      f.words.foldl (fun d w => d.flight t f.ctx (evTick w % 2) f.ver (-1)) d) d
    let ins := Tab.get [] d.gwIn g
    let d := ins.foldl (fun d x => (d.drop .rimReset 0 x.ctx x.cls (evKey x.word) 1).flight t x.ctx (evTick x.word % 2) x.ver (-1)) d
    let r := d.router t
    let d := ((Tab.get [] r.arr 5).map (·.flit) ++ Tab.get [] r.feedQ 5).foldl dropF d
    d.setRouter t { r with used := r.used.filter (fun u => !(decide (20 ≤ u.1) && decide (u.1 < 24)) && decide (u.1 < 28))
                           arr := Tab.set [] r.arr 5 [], feedQ := Tab.set [] r.feedQ 5 [] }) d
  let d := d.swIn.foldl (fun (d : Dev) q => q.2.foldl (fun d x =>
    let d := d.drop .rimReset 0 x.ctx x.cls (evKey x.word) 1
    if 8 ≤ q.1 then d.flight 32 x.ctx (evTick x.word % 2) (x.ver.getD 0) (-1) else d) d) d
  let d := d.pkIn.foldl (fun d k => k.flits.foldl dropF d) d
  let d := d.xptIn.foldl (fun d k => k.flits.foldl dropF d) d
  { d with rimIn := [], gwIn := [], swIn := [], pkIn := [], xptIn := [], marksIn := [] }

end Sys2Proof.Machine
end

