-- ==== Sys2Proof/Machine/Queues.lean ====
section
/-! DEFINITION. Message queues between agents: regions and rings (R390, R391, R397, R398), sending (R393 to R396), arrival,
staging and bounces (R401 to R405), reading (R399, R400), opening and closing (R403). -/

namespace Sys2Proof.Machine

/-! ## Ending a command -/

/-- A command ends with a status, a detail and its result bytes; its record waits for its turn (R376, R378). -/
def Dev.finish (d : Dev) (id status detail : Nat) (result : List Byte) : Dev :=
  { d with cmds := d.cmds.map (fun c =>
      if c.id = id ∧ c.stage ≠ 2 then { c with stage := 2, status := status, detail := detail, result := result, wait := .none } else c) }

/-! ## Agents, queues, rings -/

/-- Number of receive queues of an agent (R390). -/
def agentQueues (a : Nat) : Nat := if a = 0 then 16 else if a ≤ 32 then 4 else if (0x30 ≤ a ∧ a ≤ 0x37) ∨ a = 0x3F then 2 else 0

/-- Start and size of an agent's queue region (R28, R390). -/
def agentRegion (a : Nat) : Nat × Nat :=
  if a = 0 then (rmSram, 0x80000)
  else if a ≤ 32 then (sharedBase (a - 1) + 0x60000, 0x20000)
  else if a ≤ 0x37 then (rmSram + 0x80000 + (a - 0x30) * 0x20000, 0x20000)
  else (rmSram + 0x180000, 0x20000)

/-- Register index of queue `q` of agent `a`. -/
def mqIx (a q : Nat) : Nat := a * 16 + q

/-- Bytes of a ring by MQ_CFG.SIZE (R391). -/
def ringBytes (size : Nat) : Nat := if size = 0 then 0 else 1024 * 2 ^ (size - 1)

/-- Whether a queue is open. -/
def Dev.mqOpen (d : Dev) (a q : Nat) : Bool := decide (q < agentQueues a) && d.fld MQ_CFG (mqIx a q) MQ_CFG_SIZE != 0

/-- Address of a queue's ring. DEDUCED, log entry 11. -/
def Dev.mqBase (d : Dev) (a q : Nat) : Nat := (agentRegion a).1 + d.fld MQ_CFG (mqIx a q) MQ_CFG_BASE * 1024

/-- The ring of a queue. -/
def Dev.mq (d : Dev) (a q : Nat) : Ring := Tab.get {} d.mqs (mqIx a q)

/-- A queue's ring becomes `r`, shown in MQ_STATUS. -/
def Dev.setMq (d : Dev) (a q : Nat) (r : Ring) : Dev :=
  let d := { d with mqs := Tab.set {} d.mqs (mqIx a q) r }
  (d.setF MQ_STATUS (mqIx a q) MQ_STATUS_WORDS r.words).setF MQ_STATUS (mqIx a q) MQ_STATUS_MSGS r.msgs

/-- Context that counts a queue's drops; fixed on a host agent's queues, 0 for a queue that does not exist (R408, R409). -/
def Dev.mqCtx (d : Dev) (a q : Nat) : Nat :=
  if 0x30 ≤ a ∧ a ≤ 0x37 then a - 0x30
  else if q < agentQueues a then d.fld MQ_CFG (mqIx a q) MQ_CFG_CTX else 0

/-- Fields of a message header (R392). -/
def mhLen (h : Nat) : Nat := bits h 47 40
/-- KIND. -/
def mhKind (h : Nat) : Nat := bits h 39 38
/-- DST_AGENT. -/
def mhDst (h : Nat) : Nat := bits h 37 32
/-- DST_Q. -/
def mhDstQ (h : Nat) : Nat := bits h 31 28
/-- SRC_AGENT. -/
def mhSrc (h : Nat) : Nat := bits h 27 22
/-- RET. -/
def mhRet (h : Nat) : Nat := bits h 21 21
/-- RET_Q. -/
def mhRetQ (h : Nat) : Nat := bits h 20 17
/-- CHIP. -/
def mhChip (h : Nat) : Nat := bits h 14 0

/-- A header with bits [hi:lo] replaced. -/
def mhPut (h hi lo v : Nat) : Nat := h - bits h hi lo * 2 ^ lo + v % 2 ^ (hi + 1 - lo) * 2 ^ lo

/-- A per-peer count of an agent; every remote agent has one index (R407, R409). -/
def Dev.mqCount (d : Dev) (agent peer kind : Nat) : Dev := d.bump MQ_CNT ((agent * 128 + peer) * 8 + kind) 1

/-- A host agent's queue with IE signals when it goes from empty to non-empty (R368, R400). -/
def Dev.mqSignal (d : Dev) (a q : Nat) : Dev :=
  if d.flag MQ_CFG (mqIx a q) MQ_CFG_IE then
    let iv := d.fld MQ_CFG (mqIx a q) MQ_CFG_IV
    let pf := fun (d : Dev) => d.msix 0 (if iv = 0 then 1 else iv)
    if a = 0x3F then pf d
    else if 0x30 ≤ a ∧ a ≤ 0x37 then
      if d.vfOn (a - 0x30) then d.msix (1 + (a - 0x30)) (if iv > 3 then 0 else iv) else pf d
    else d
  else d

/-- A message or bounce is written whole at TAIL, after a pad record when it would pass the ring's end; none when the queue
is full for it (R397, R398). -/
def Dev.mqPlace (d : Dev) (a q hdr : Nat) (payload : List Byte) : Option Dev :=
  let r := d.mq a q
  let size := ringBytes (d.fld MQ_CFG (mqIx a q) MQ_CFG_SIZE)
  let m := 1 + cdiv (mhLen hdr) 8
  let room := (size - r.tail) / 8
  let need := if m ≤ room then m else room + m
  if r.words + need > size / 8 - 1 then none
  else
    let base := d.mqBase a q
    let body := (List.range (8 * (m - 1))).map (fun k => if k < mhLen hdr then payload.getD k 0 else 0)
    let d' := if m ≤ room then d else d.st (base + r.tail) 8 (mhPut (2 ^ 38) 47 40 (8 * room - 8))
    let start := if m ≤ room then r.tail else 0
    let d' := (d'.st (base + start) 8 hdr).stBytes (base + start + 8) body
    let stop := start + 8 * m
    let d' := d'.setMq a q { r with tail := if stop = size then 0 else stop, words := r.words + need, msgs := r.msgs + 1 }
    some (if r.words = 0 then d'.mqSignal a q else d')

/-! ## Sending -/

/-- An agent sends a message as one class-3 packet (R393, R395); `cmd` the MQ_SEND command, `bounce` for a bounce. -/
def Dev.mqSendFrom (d : Dev) (a : Nat) (hdr : Nat) (payload : List Byte) (cmd : Nat) (bounce : Bool) : Dev :=
  let h := if bounce then hdr else mhPut hdr 27 22 a
  let dst := mhChip hdr
  let ctx := if 0x30 ≤ a ∧ a ≤ 0x37 then a - 0x30 else 0
  let body := (List.range (mhLen h)).map (fun k => payload.getD k 0)
  let k := d.mkPacket 3 ctx dst 0 [BitVec.ofNat 64 h] body
  let k := { k with via := 4 * cmd + (if bounce then 2 else 0) }
  if 1 ≤ a ∧ a ≤ 32 then d.tileSend (a - 1) k else { d with pkIn := d.pkIn ++ [k] }

/-- A message that an agent sends is counted against its peer. -/
def Dev.mqSend (d : Dev) (a : Nat) (hdr : Nat) (payload : List Byte) (cmd : Nat) : Dev :=
  (d.mqCount a (if mhChip hdr = d.chipId then mhDst hdr else 0x40) 0).mqSendFrom a hdr payload cmd false

/-- FIRMWARE_SEND: a firmware agent (the Ringmaster or a tile controller) sends through its send port (R395). -/
def execFirmwareSend (a : Fin 64) (hdr : W64) (payload : List Byte) (s : State) : Host.Outcome State Fault Refusal :=
  run (fun d => if a.val ≤ 32 then d.mqSend a hdr.toNat payload 0 else d) s

/-! ## Arrival -/

/-- A bounce is placed at once in queue RET_Q of SRC_AGENT, or dropped at DP-MQ-BOUNCELOST (R405). -/
def Dev.placeBounce (d : Dev) (hdr : Nat) (payload : List Byte) : Dev :=
  let a := mhSrc hdr
  let q := mhRetQ hdr
  let lost := d.drop .mqBounceLost a (d.mqCtx a q) 3 (bits hdr 63 48) 1
  if d.mqOpen a q then (d.mqPlace a q hdr payload).getD lost else lost

/-- A message that cannot be delivered is bounced with a BSTAT, ends its MQ_SEND command, or is dropped at a drop point
(R402, R404, R405). `src` is the chip it came from, `hdr` its header as sent. -/
def Dev.undeliver (d : Dev) (src hdr : Nat) (payload : List Byte) (cmd bstat : Nat) (p : DropPt) : Dev :=
  let here := decide (src = d.chipId)
  let d := if here ∧ cmd ≠ 0 then
      (if bstat = 0 then d.finish cmd 0x0301 0x010C [] else d.finish cmd 0x0400 0 []) else d
  let a := mhSrc hdr
  let peer := mhDst hdr
  if mhRet hdr = 1 then
    if here ∧ cmd ≠ 0 then d
    else
      let b := mhPut (mhPut (mhPut hdr 39 38 2) 16 15 bstat) 14 0 d.chipId
      if here then (d.mqCount a peer 3).placeBounce b payload
      else
        let k := d.mkPacket 3 0 src 0 [BitVec.ofNat 64 b] payload
        { d with pkIn := d.pkIn ++ [{ k with via := 2 }] }
  else
    let d := d.drop p peer (d.mqCtx peer (mhDstQ hdr)) 3 (bits hdr 63 48) 1
    if here then d.mqCount a peer 4 else d

/-- Agents that a local host agent may not reach (R396). -/
def forbidden (srcAgent dst : Nat) : Bool :=
  decide (0x30 ≤ srcAgent) && decide (srcAgent ≤ 0x37) && decide (0x30 ≤ dst) && dst != srcAgent

/-- A chip's report of a fabric-wide Intermission has come: a message of its Ringmaster to this one (R307). -/
def Dev.reported (d : Dev) (chip : Nat) : Dev :=
  (List.range 8).foldl (fun (d : Dev) c =>
    let g := d.gen c
    if g.reports.contains chip then d.setGen c { g with reports := g.reports.filter (· != chip) } else d) d

/-- A message is written to its open queue. -/
def Dev.mqWrite (d : Dev) (x : Staged) : Option Dev :=
  let a := mhDst x.hdr
  let h := mhPut x.hdr 14 0 x.src
  match d.mqPlace a x.q h x.payload with
  | none => none
  | some d =>
    let here := decide (x.src = d.chipId)
    let d := if a = 0 ∧ mhSrc x.hdr = 0 then d.reported x.src else d
    let d := d.mqCount a (if here then mhSrc x.hdr else 0x40) 1
    some (if here ∧ x.cmd ≠ 0 then d.finish x.cmd 0 0 [] else d)

/-- Whether a staged message waits for queue `q` of agent `a`, shown in MQ_STATUS.STALLING. -/
def Dev.setStaged (d : Dev) (a : Nat) (l : List Staged) : Dev :=
  let d := { d with staged := Tab.set [] d.staged a l }
  (List.range (agentQueues a)).foldl (fun d q =>
    d.setF MQ_STATUS (mqIx a q) MQ_STATUS_STALLING (if l.any (fun x => x.q == q) then 1 else 0)) d

/-- A message reaches its endpoint: written, staged behind others for its queue or for want of space, bounced or dropped; none
when the staging buffer is full (R393, R396, R401, R404). -/
def Dev.mqArrive (d : Dev) (src hdr : Nat) (payload : List Byte) (cmd : Nat) : Option Dev :=
  let a := mhDst hdr
  let q := mhDstQ hdr
  let x : Staged := ⟨q, hdr, payload, src, cmd⟩
  if mhLen hdr > 248 ∨ mhKind hdr ≠ 0 then
    let d := d.drop .mqBadHdr a (d.mqCtx a q) 3 (bits hdr 63 48) 1
    some (if src = d.chipId ∧ cmd ≠ 0 then d.finish cmd 0x0301 0x010C [] else d)
  else if !(d.mqOpen a q) ∨ (src = d.chipId ∧ forbidden (mhSrc hdr) a) then some (d.undeliver src hdr payload cmd 0 .mqNoReader)
  else
    let l := Tab.get [] d.staged a
    let stage := fun (_ : Unit) =>
      if 8 ≤ l.length then none
      else
        let d := d.setStaged a (l ++ [x])
        some (if src = d.chipId then d.mqCount (mhSrc hdr) a 2 else d)
    if l.any (fun y => y.q == q) then stage ()
    else match d.mqWrite x with
      | some d => some d
      | none => stage ()

/-- Every message held in a queue is dropped at DP-MQ-FLUSH and the ring is empty (R403, R412). -/
def Dev.mqFlush (d : Dev) (a q : Nat) : Dev :=
  let r := d.mq a q
  let d := (List.range r.msgs).foldl (fun d _ => d.drop .mqFlush a (d.mqCtx a q) 3 0 1) d
  d.setMq a q {}

/-- A ring word of a queue is found uncorrectable: the queue is emptied and stays open (R412). -/
def Dev.ringDamaged (d : Dev) (a q : Nat) : Dev := (d.mqFlush a q).damaged (d.mqBase a q + (d.mq a q).head)

/-- A queue closes: its messages are dropped, and messages that wait for it are handled as to a closed queue (R402,
R403). -/
def Dev.mqClose (d : Dev) (a q : Nat) : Dev :=
  if d.fld MQ_CFG (mqIx a q) MQ_CFG_SIZE = 0 then d
  else
    let d := (d.mqFlush a q).setF MQ_CFG (mqIx a q) MQ_CFG_SIZE 0
    let l := Tab.get [] d.staged a
    let d := d.setStaged a (l.filter (fun x => x.q ≠ q))
    (l.filter (fun x => x.q == q)).foldl (fun d x => d.undeliver x.src x.hdr x.payload x.cmd 0 .mqNoReader) d

/-- Every queue of an agent closes. -/
def Dev.mqCloseAgent (d : Dev) (a : Nat) : Dev := (List.range (agentQueues a)).foldl (fun d q => d.mqClose a q) d

/-- What a neighbour answers a net-boot request reaches the boot stage: FW_VERSION and LENGTH, 0 for a bounce (R465). -/
def Dev.netReply (d : Dev) (r : Nat × Nat) : Dev := { d with netBoot := d.netBoot.map (fun n => { n with reply := some r }) }

/-- MESSAGE_ARRIVE: the oldest class-3 packet at an endpoint location (0 the rim side, 1 + t tile t) is handled; `bad` when
a ring word of its queue is found uncorrectable, which empties the queue first (R401, R412). -/
def execMessageArrive (loc : Fin 33) (bad : Bool) (s : State) : Host.Outcome State Fault Refusal :=
  run (fun d =>
    let l := Tab.get [] d.endIn loc
    match l.find? (fun k => k.cls == 3) with
    | none => d
    | some k =>
      let d' := { d with endIn := Tab.set [] d.endIn loc (dropFirst (fun k => k.cls == 3) 1 l) }
      let h := k.w2
      let payload := k.data.flatten.take (mhLen h)
      let cmd := k.via / 4
      if d.phase = .net ∧ loc = 0 ∧ mhDst h = 0 then d'.netReply (if mhKind h = 2 then (0, 0) else (at_ payload 0 4, at_ payload 4 4))
      else if mhKind h = 2 ∧ (k.via / 2 % 2 = 1 ∨ k.src ≠ d.chipId) then (d'.mqCount (mhSrc h) 0x40 3).placeBounce h payload
      else
        let d' := if bad ∧ d'.mqOpen (mhDst h) (mhDstQ h) then d'.ringDamaged (mhDst h) (mhDstQ h) else d'
        (d'.mqArrive k.src h payload cmd).getD d) s

/-- STAGED_MESSAGE_WRITE: a staged message that is the first for its queue is written once space appears (R402). -/
def execStagedMessageWrite (a : Fin 64) (k : Fin 8) (s : State) : Host.Outcome State Fault Refusal :=
  run (fun d =>
    let l := Tab.get [] d.staged a
    match l[k.val]? with
    | none => d
    | some x =>
      if (l.take k).any (fun y => y.q == x.q) then d
      else match d.mqWrite x with
        | none => d
        | some d => d.setStaged a (l.eraseIdx k)) s

/-- STALL_TIMEOUT: a staged message has waited STALL_US; it is written if space is there, bounced FULL with RET, else
dropped at DP-MQ-FULL (R402). -/
def execStallTimeout (a : Fin 64) (k : Fin 8) (s : State) : Host.Outcome State Fault Refusal :=
  run (fun d =>
    let l := Tab.get [] d.staged a
    match l[k.val]? with
    | none => d
    | some x =>
      let first := !((l.take k).any (fun y => y.q == x.q))
      match (if first then d.mqWrite x else none) with
      | some d => d.setStaged a (l.eraseIdx k)
      | none => (d.setStaged a (l.eraseIdx k)).undeliver x.src x.hdr x.payload x.cmd 1 .mqFull) s

/-! ## Reading and configuring -/

/-- Whether a requester's access to an agent's queue registers is closed off: the physical-function view of a confidential
context's agent (R407, R439). -/
def Dev.mqClosedOff (d : Dev) (who : Requester) (a : Nat) : Bool :=
  viaPf who && decide (0x30 ≤ a) && decide (a ≤ 0x37) && d.confidential (a - 0x30)

/-- One word popped at HEAD; a pad's header moves HEAD to offset 0; an empty queue gives all ones (R399).
DEDUCED, log entry 11, DEDUCED, log entry 28. -/
def Dev.mqPop (d : Dev) (a q : Nat) : W64 × Dev :=
  let r := d.mq a q
  if r.words = 0 then (BitVec.ofNat 64 (2 ^ 64 - 1), d)
  else
    let size := ringBytes (d.fld MQ_CFG (mqIx a q) MQ_CFG_SIZE)
    let w := d.ld (d.mqBase a q + r.head) 8
    let next := if r.head + 8 = size then 0 else r.head + 8
    if r.left = 0 ∧ mhKind w = 1 then
      (BitVec.ofNat 64 w, d.setMq a q { r with head := 0, words := r.words - (size - r.head) / 8 })
    else
      let left := if r.left = 0 then cdiv (mhLen w) 8 else r.left - 1
      let r := { r with head := next, words := r.words - 1, left := left, msgs := if left = 0 then r.msgs - 1 else r.msgs }
      (BitVec.ofNat 64 w, d.setMq a q r)

/-- MQ_DATA_READ: `bad` when the word is found uncorrectable, which empties the queue (R399, R412). -/
def execMqDataRead (who : Requester) (a : Fin 64) (q : Fin 16) (bad : Bool) (s : State) : Host.Outcome State Fault Refusal :=
  run (fun d =>
    if d.mqClosedOff who a then { d.violation (reqFunc who) 2 (MQ_DATA.addr (mqIx a q)) with ret := 0 }
    else if agentQueues a ≤ q.val then { d.violation (reqFunc who) 0 (MQ_DATA.addr (mqIx a q)) with ret := 0 }
    else
      let d := if bad ∧ 0 < (d.mq a q).words then d.ringDamaged a q else d
      let (w, d) := d.mqPop a q
      { d with ret := w }) s

/-- Whether a ring configuration is acceptable: BASE a multiple of the ring's size, the ring within the agent's region and
clear of the agent's other open rings (R391). -/
def Dev.ringFits (d : Dev) (a q size base : Nat) : Bool :=
  let n := ringBytes size
  let b := base * 1024
  decide (b % n = 0) && decide (b + n ≤ (agentRegion a).2)
  && (List.range (agentQueues a)).all (fun k =>
    k == q || !(d.mqOpen a k)
    || decide (b + n ≤ d.fld MQ_CFG (mqIx a k) MQ_CFG_BASE * 1024)
    || decide (d.fld MQ_CFG (mqIx a k) MQ_CFG_BASE * 1024 + ringBytes (d.fld MQ_CFG (mqIx a k) MQ_CFG_SIZE) ≤ b))

/-- MQ_CFG_WRITE: opens, closes or configures a queue; a change of one non-zero SIZE to another, or a ring that breaks
R391, is ignored with CFG_ERR (R391, R403). -/
def execMqCfgWrite (who : Requester) (a : Fin 64) (q : Fin 16) (v : W32) (s : State) : Host.Outcome State Fault Refusal :=
  run (fun d =>
    let i := mqIx a q
    let new := MQ_CFG.written (d.rd MQ_CFG i) (v.setWidth 64) (halfCover .whole)
    let new := if 0x30 ≤ a.val ∧ a.val ≤ 0x37 then MQ_CFG_CTX.put new (a - 0x30) else new
    let old := d.fld MQ_CFG i MQ_CFG_SIZE
    let size := MQ_CFG_SIZE.get new
    if agentQueues a ≤ q.val then d.violation (reqFunc who) 0 (MQ_CFG.addr i)
    else if d.mqClosedOff who a then d.violation (reqFunc who) 2 (MQ_CFG.addr i)
    else if size = 0 then (d.mqClose a q).wr MQ_CFG i new
    else if (old ≠ 0 ∧ old ≠ size) ∨ !(d.ringFits a q size (MQ_CFG_BASE.get new)) then d.setF MQ_STATUS i MQ_STATUS_CFG_ERR 1
    else d.wr MQ_CFG i new) s

end Sys2Proof.Machine
end

