-- ==== Sys2Proof/Machine/Xpt.lean ====
section
/-! DEFINITION. Transport of classes 2 and 3 (R308 to R313) and bulk writes (R539, R549). -/

namespace Sys2Proof.Machine

/-! ## Senders -/

/-- Packets that waited for the window are sent while it has room (R309). -/
def Dev.xptDrain (d : Dev) (key : Nat) : Dev :=
  let x := Tab.get ({} : XptTx) d.xptTx key
  let n := 256 - x.unacked.length
  let go := x.waiting.take n
  go.foldl (fun d k => d.xptSend k) { d with xptTx := Tab.set {} d.xptTx key { x with waiting := x.waiting.drop n } }

/-- The bit of a completion counter's error flags is set (R549). -/
def Dev.complErr (d : Dev) (c compl : Nat) : Dev := d.setBitF MEM_COMPL_ERR (c * 4 + compl / 64) MEM_COMPL_ERR_ERR (compl % 64) true

/-- A packet abandoned by transport is dropped at DP-XPT-RETRY: a bulk transfer's counter is flagged at the source, a message
is bounced with BSTAT TRANSPORT where its header asks for it, and its command ends with TIMEOUT (R309, R386, R404, R405).
DEDUCED, log entry 11. -/
def Dev.xptAbandon (d : Dev) (k : Packet) : Dev :=
  let d := d.drop .xptRetry 0 (bits k.hdr.toNat 50 48) k.cls 0 1
  if k.cls = 2 then d.complErr k.tctx (bits k.w2 63 56)
  else if mhKind k.w2 ≠ 0 then d
  else
    let cmd := k.via / 4
    let d := if cmd ≠ 0 then d.finish cmd 0x0400 0 [] else d
    if mhRet k.w2 = 1 then
      (d.mqCount (mhSrc k.w2) 0x40 3).placeBounce (mhPut (mhPut (mhPut k.w2 39 38 2) 16 15 2) 14 0 d.chipId)
        (k.data.flatten.take (mhLen k.w2))
    else d

/-- XPT_RETRANSMIT: RIM_XPT.TO has passed for an unacknowledged packet (R309). `cls` 0 for class 2, 1 for class 3. -/
def execXptRetransmit (chip : BitVec 15) (c : Ctx) (cls : Fin 2) (tseq : BitVec 16) (s : State) :
    Host.Outcome State Fault Refusal :=
  run (fun d =>
    let key := xptKey chip.toNat c (2 + cls)
    let x := Tab.get ({} : XptTx) d.xptTx key
    match x.unacked.find? (fun u => u.1 == tseq.toNat) with
    | none => d
    | some (t, r, k) =>
      if r ≥ 3 then
        (({ d with xptTx := Tab.set {} d.xptTx key { x with unacked := x.unacked.filter (fun (u : Nat × Nat × Packet) => u.1 ≠ t) } }).xptAbandon k).xptDrain key
      else
        let k' := k.retag t (r + 1)
        (({ d with xptTx := Tab.set {} d.xptTx key { x with
            unacked := x.unacked.map (fun (u : Nat × Nat × Packet) => if u.1 = t then (t, r + 1, k') else u) } }).bump RIM_CNT 5 1).forward k') s

/-- ACK_RECEIVE: every packet before B and every one set in the bitmap is acknowledged (R308, R312). -/
def execAckReceive (s : State) : Host.Outcome State Fault Refusal :=
  run (fun d =>
    match d.xptIn.find? (fun k => k.ttype == 1) with
    | none => d
    | some k =>
      let d := { d with xptIn := dropFirst (fun k => k.ttype == 1) 1 d.xptIn }
      let key := xptKey k.src k.tctx (bits k.w2 63 62)
      let b := bits k.w2 15 0
      let x : XptTx := Tab.get ({} : XptTx) d.xptTx key
      let acked : Nat → Bool := fun t =>
        let back := (b + 65536 - t) % 65536
        let ahead := (t + 65536 - b) % 65536
        (decide (1 ≤ back) && decide (back ≤ 32768)) || (decide (1 ≤ ahead) && decide (ahead ≤ 64) && k.w3.testBit (ahead - 1))
      let done := x.unacked.filter (fun u => acked u.1)
      let d := { d with xptTx := Tab.set {} d.xptTx key { x with unacked := x.unacked.filter (fun (u : Nat × Nat × Packet) => !(acked u.1)) } }
      let d := done.foldl (fun d u => if u.2.2.via / 4 ≠ 0 then d.finish (u.2.2.via / 4) 0 0 [] else d) d
      d.xptDrain key) s

/-! ## Receivers -/

/-- Receiver of a sequence space. -/
def Dev.xptRcv (d : Dev) (key : Nat) : XptRx := Tab.get ({} : XptRx) d.xptRx key
/-- Receiver of a sequence space becomes `x`. -/
def Dev.setXptRcv (d : Dev) (key : Nat) (x : XptRx) : Dev := { d with xptRx := Tab.set {} d.xptRx key x }

/-- B moves past the received numbers that follow it (R310). -/
def slide : Nat → Nat → List Nat → Nat × List Nat
  | 0, b, got => (b, got)
  | n + 1, b, got => if got.contains b then slide n ((b + 1) % 65536) (got.filter (· ≠ b)) else (b, got)

/-- XPT_RECEIVE_BULK: the oldest class-2 DATA packet from another chip (R310). -/
def execXptReceiveBulk (s : State) : Host.Outcome State Fault Refusal :=
  run (fun d =>
    match d.xptIn.find? (fun k => k.ttype == 0 && k.cls == 2) with
    | none => d
    | some k =>
      let d := { d with xptIn := dropFirst (fun k => k.ttype == 0 && k.cls == 2) 1 d.xptIn }
      let key := xptKey k.src k.tctx 2
      let x := d.xptRcv key
      let t := k.tseq
      let off := (t + 65536 - x.base) % 65536
      let ctx := bits k.hdr.toNat 50 48
      if off < 256 ∧ !(x.got.contains t) then
        let (b, got) := slide 257 x.base (x.got ++ [t])
        (d.setXptRcv key { x with base := b, got := got, since := x.since + 1 }).deliver k
      else if off < 256 ∨ (x.base + 65536 - t) % 65536 ≤ 32768 then
        (d.setXptRcv key { x with due := true }).drop .xptDup 0 ctx 2 0 1
      else d.drop .xptWindow 0 ctx 2 0 1) s

/-- XPT_RECEIVE_MESSAGE: the oldest class-3 DATA packet from another chip is taken only with TSEQ = E (R311). -/
def execXptReceiveMessage (s : State) : Host.Outcome State Fault Refusal :=
  run (fun d =>
    match d.xptIn.find? (fun k => k.ttype == 0 && k.cls == 3) with
    | none => d
    | some k =>
      let d := { d with xptIn := dropFirst (fun k => k.ttype == 0 && k.cls == 3) 1 d.xptIn }
      let key := xptKey k.src k.tctx 3
      let x := d.xptRcv key
      let t := k.tseq
      let off := (t + 65536 - x.base) % 65536
      let ctx := bits k.hdr.toNat 50 48
      if off = 0 then
        (d.setXptRcv key { x with base := (x.base + 1) % 65536, since := x.since + 1, lowest := none }).deliver k
      else if off < 32768 then
        let low := match x.lowest with
          | none => t
          | some l => if off < (l + 65536 - x.base) % 65536 then t else l
        (d.setXptRcv key { x with lowest := some low }).drop .xptOrder 0 ctx 3 0 1
      else (d.setXptRcv key { x with due := true }).drop .xptDup 0 ctx 3 0 1) s

/-- XPT_SKIP: packets ahead of E have kept arriving for 5 × TO without E (R311). -/
def execXptSkip (chip : BitVec 15) (c : Ctx) (s : State) : Host.Outcome State Fault Refusal :=
  run (fun d =>
    let key := xptKey chip.toNat c 3
    let x := d.xptRcv key
    match x.lowest with
    | none => d
    | some l => (d.setXptRcv key { x with base := l, lowest := none }).bump RIM_CNT 6 1) s

/-- ACK_SEND: an ACK for the packets not yet acknowledged, or for a duplicate (R308, R312). DEDUCED, log entry 11. -/
def execAckSend (chip : BitVec 15) (c : Ctx) (cls : Fin 2) (s : State) : Host.Outcome State Fault Refusal :=
  run (fun d =>
    let k := 2 + cls.val
    let key := xptKey chip.toNat c k
    let x := d.xptRcv key
    if x.since = 0 ∧ !x.due then d
    else
      let map := (List.range 64).foldl (fun a i => if x.got.contains ((x.base + 1 + i) % 65536) then a + 2 ^ i else a) 0
      let p := d.mkPacket k c chip.toNat 1 [BitVec.ofNat 64 (k * 2 ^ 62 + x.base), BitVec.ofNat 64 map] []
      (d.setXptRcv key { x with since := 0, due := false }).xptSend p) s

/-! ## Bulk writes -/

/-- Start and length in bytes of a context's LPDDR5X region (R540). -/
def Dev.ctxRegion (d : Dev) (c : Nat) : Nat × Nat :=
  (d.fld MEM_CTX c MEM_CTX_BASE * 2 ^ 26, d.fld MEM_CTX c MEM_CTX_SIZE * 2 ^ 26)

/-- Whether an address lies in LPDDR5X, tile SRAM or Ringmaster SRAM (R545, R549). -/
def bulkMaps (a : Nat) : Bool := memMaps a && decide (a < flashBase)

/-- A write covers the whole of these 64-byte units, which clears their poison (R539). -/
def Dev.clearPoison (d : Dev) (a n : Nat) : Dev :=
  { d with poison := d.poison.filter (fun u => !(decide (a ≤ u) && decide (u + 64 ≤ a + n))) }

/-- Bytes stored where a predicate allows: the device after it and how many were stored. DEDUCED, log entry 14. -/
def Dev.stWhere (d : Dev) (ok : Nat → Bool) (a : Nat) (bs : List Byte) : Dev × Nat :=
  bs.zipIdx.foldl (fun acc p => if ok (a + p.2) then (acc.1.byteStore (a + p.2) p.1, acc.2 + 1) else acc) (d, 0)

/-- Whether a stretch of LPDDR5X lies in a page that is being copied to a spare (R544). -/
def Dev.pageCopying (d : Dev) (a n : Nat) : Bool :=
  (List.range ((a + n - 1) / 4096 + 1 - a / 4096)).any (fun k => (d.unit 4 ((a / 4096 + k) * 4096)).1 == 1)

/-- BULK_WRITE: the oldest class-2 packet at an endpoint location (0 the rim side, 1 + t tile t) is written; bytes outside
what it may write are ignored, counted and flagged, and the counter grows by the bytes written. It waits while a page it writes to is
copied (R313, R414, R539, R544, R549). -/
def execBulkWrite (loc : Fin 33) (s : State) : Host.Outcome State Fault Refusal :=
  run (fun d =>
    let l := Tab.get [] d.endIn loc
    match (l.find? (fun k => k.cls == 2)).filter (fun k => !(d.pageCopying (bits k.w2 46 0) (bits k.w2 55 47 + 1))) with
    | none => d
    | some k =>
      let d := { d with endIn := Tab.set [] d.endIn loc (dropFirst (fun k => k.cls == 2) 1 l) }
      let len := bits k.w2 55 47 + 1
      let a := bits k.w2 46 0
      let compl := bits k.w2 63 56
      let c := k.tctx
      let (base, size) := d.ctxRegion c
      let ok := fun x => bulkMaps x && (k.via % 2 == 0 || (decide (base ≤ x) && decide (x < base + size)))
      let bytes := (List.range len).map (fun i => k.data.flatten.getD i 0)
      let (d, n) := d.stWhere ok a bytes
      let d := if n = len then d.clearPoison a len else d
      let d := if n < len then (d.violation 0 1 (a % 2 ^ 26)).complErr c compl else d
      let i := c * 256 + compl
      d.setF RIM_COMPL i RIM_COMPL_BYTES ((d.fld RIM_COMPL i RIM_COMPL_BYTES + n) % 2 ^ 48)) s

end Sys2Proof.Machine
end

