-- ==== Sys2Proof/Machine/Calliope.lean ====
section
/-! DEFINITION. Calliope: the eight tick generators (R153 to R158), tick starts and late policies (R145, R148, R151), drain by
waves with the version sums (R143, R144, R262, R271), tick markers and drain tokens (R161, R162, R164, R302 to R305). Times are
edges of the timebase. -/

namespace Sys2Proof.Machine

/-- Modulus of tick numbers (R383). -/
def tickMod : Nat := 2 ^ 48

/-- The tick after `n`. -/
def tickSucc (n : Nat) : Nat := (n + 1) % tickMod

/-- Whether tick `a` is tick `b` or later, across the wrap of tick numbers. -/
def tickGe (a b : Nat) : Bool := decide ((a + tickMod - b % tickMod) % tickMod < tickMod / 2)

/-- Count of a generator at edge `now` (R153): it holds at 0 while a due tick has not started, and stands with no period. -/
def Gen.countAt (g : Gen) (now : Nat) : Nat :=
  if g.due.isSome then 0 else if g.period = 0 then g.count else g.count + (now - g.edge)

/-! ## Markers and tokens as conditions -/

/-- Whether a port carries markers: up, with a peer that has FABRIC set (R302). -/
def Dev.markPort (d : Dev) (p : Nat) : Bool := d.portUp p && d.peerCap p 14 14 == 1

/-- MARK_PORTS of a context. -/
def Dev.markPorts (d : Dev) (c : Nat) : List Nat := ones 6 (d.fld CLP_CTRL c CLP_CTRL_MARK_PORTS)

/-- Ports on which a context waits for markers: those that carry them, but for one whose link was down since the context was released
and has brought no marker since it came up (R162). -/
def Dev.awaited (d : Dev) (c : Nat) : List Nat :=
  (d.markPorts c).filter (fun p => d.markPort p && !((d.gen c).relink.contains p))

/-- The marker condition for starting the tick after `n`: a marker for it or a later tick from every port awaited. The tick that a
release of START_CONTEXT starts awaits none (R161, R162, R383). DEDUCED, log entry 13. -/
def Dev.markersIn (d : Dev) (c n : Nat) : Bool :=
  (d.gen c).first || (d.awaited c).all (fun p => Tab.has (d.gen c).marks p && tickGe (Tab.get 0 (d.gen c).marks p) n)

/-- The drain-token condition for tick n, over every up port that carries markers; met at the release of START_CONTEXT, which takes the
last tick as drained (R164, R305, R383). DEDUCED, log entry 13. -/
def Dev.tokensIn (d : Dev) (c n : Nat) : Bool :=
  (d.gen c).first || ((d.markPorts c).filter (d.markPort ·)).all (fun p => tickGe (d.fld RIM_DT (c * 6 + p) RIM_DT_TICK) n)

/-- A generator becomes `g`, shown in CLP_STATUS (R166). -/
def Dev.putGen (d : Dev) (c : Nat) (g : Gen) : Dev :=
  let d := d.setGen c g
  let bit := fun (b : Bool) => if b then 1 else 0
  let d := d.setF CLP_STATUS c CLP_STATUS_RUNNING (bit (g.period ≠ 0 || g.stepRemain ≠ 0))
  let d := d.setF CLP_STATUS c CLP_STATUS_PENDING (bit g.due.isSome)
  let d := d.setF CLP_STATUS c CLP_STATUS_IN_INTERM (bit g.interOpen)
  let d := d.setF CLP_STATUS c CLP_STATUS_STEP_REMAIN g.stepRemain
  d.setF CLP_STATUS c CLP_STATUS_MARK_WAIT (bit (g.due.isSome && !(d.markersIn c (d.tickOf c))))

/-! ## Due ticks -/

/-- A tick falls due; `held` says whether a marker for it is still awaited (R145, R153, R161). -/
def Gen.fallDue (g : Gen) (at_ : Nat) (stepped held : Bool) : Gen :=
  { g with due := some at_, stepped := stepped, count := 0, edge := at_, fallback := false
           heldUpd := !g.upd, markHeld := held, uncounted := false }

/-- Whether drain held a tick due at `e` under Stretch: between the later of the due edge and update completion, and the end of drain or
the fall-back (R145). -/
def Gen.heldDrain (g : Gen) (e : Nat) : Bool :=
  let ends := if g.drained && g.fallback then min g.drainEdge g.fellAt else if g.fallback then g.fellAt else g.drainEdge
  decide (g.policy = 0) && decide (max e g.updEdge < ends)

/-- TICK_DUE: the step from P − 1 to 0 makes a tick due (R153). DESIGN CHOICE, log entry 3. -/
def execTickDue (c : Ctx) (now : Nat) (s : State) : Host.Outcome State Fault Refusal :=
  run (fun d =>
    let g := d.gen c
    let at_ := g.edge + (g.period - g.count)
    if g.period ≠ 0 ∧ g.due.isNone ∧ at_ ≤ now then d.putGen c (g.fallDue at_ false !(d.markersIn c (d.tickOf c))) else d) s

/-- STEPPED_TICK_DUE: with steps remaining, a tick is due on an edge after the last one is update-complete (R158). -/
def execSteppedTickDue (c : Ctx) (now : Nat) (s : State) : Host.Outcome State Fault Refusal :=
  run (fun d =>
    let g := d.gen c
    if g.stepRemain ≠ 0 ∧ g.due.isNone ∧ g.upd ∧ g.updEdge < now then d.putGen c (g.fallDue now true !(d.markersIn c (d.tickOf c))) else d) s

/-- Whether the standing request of an Intermission-mode sweep stands after tick n (R186): a tile whose mode is Intermission
ends an epoch with it and has not yet been asked to sweep it. -/
def Dev.sweepInter (d : Dev) (c n : Nat) : Bool :=
  d.fld CLP_INTERM_MAX c CLP_INTERM_MAX_INTERM_MAX != 0 &&
  (List.range 32).any (fun t =>
    let x := d.tc t c
    d.sweepInterm c n t && !(d.sweepAsked t c ((n - x.base) / x.len)))

/-- Whether an Intermission is to run before the tick after `n` may start (R159, R186). -/
def Dev.interAfter (d : Dev) (c n : Nat) : Bool :=
  (d.gen c).interOpen || (d.gen c).interReq.any (fun r => r.1 == n) || d.sweepInter c n

/-- STRETCH_FALLBACK: under Stretch a due tick whose predecessor is update-complete falls back MAXSTRETCH edges past its due
edge, while drain or a token is still awaited; the wait of an Intermission for drain has no such limit (R145, R148, R159, R164, R166).
DEDUCED, log entry 13. -/
def execStretchFallback (c : Ctx) (now : Nat) (s : State) : Host.Outcome State Fault Refusal :=
  run (fun d =>
    let g := d.gen c
    let m := d.fld CLP_MAXSTRETCH c CLP_MAXSTRETCH_MAXSTRETCH
    match g.due with
    | none => d
    | some e =>
      if g.policy = 0 ∧ g.upd ∧ !g.fallback ∧ m ≠ 0xFFFFFFFF ∧ e + m ≤ now ∧ (!g.drained ∨ !(d.tokensIn c (d.tickOf c)))
          ∧ !(d.interAfter c (d.tickOf c)) then
        (d.putGen c { g with fallback := true, fellAt := e + m }).bump CLP_CNT (c * 10 + 4) 1
      else d) s

/-! ## Starts -/

/-- Whether the last tick meets the condition of its late policy (R145, R164). DEDUCED, log entry 13. -/
def Dev.policyMet (d : Dev) (c : Nat) : Bool :=
  let g := d.gen c
  g.upd && (g.policy != 0 || g.fallback || (g.drained && d.tokensIn c (d.tickOf c)))

/-- Whether the due tick of a context may start at edge `now` (R145, R161, R164, R189, R383). -/
def Dev.startsAt (d : Dev) (c now : Nat) : Bool :=
  let g := d.gen c
  let n := d.tickOf c
  g.running && g.due.any (fun e => decide (e ≤ now)) && d.policyMet c && d.markersIn c n && !(d.interAfter c n)
  && (List.range 32).all (fun t => !(d.sweepHolds c (tickSucc n) t))

/-- The counts of a started tick; a marker wait that a lost link ended is taken to last to the start (R145, R161, R162).
DEDUCED, log entry 13. -/
def Dev.countStart (d : Dev) (c now : Nat) : Dev :=
  let g := d.gen c
  let e := g.due.getD now
  let k := c * 10
  let d := d.bump CLP_CNT k 1
  let d := if (d.markPorts c).any (fun p => !(d.portUp p)) then d.bump CLP_CNT (k + 9) 1 else d
  if g.uncounted ∨ now ≤ e then d
  else
    let d := d.bump CLP_CNT (k + 3) (now - e)
    let d := if g.heldDrain e then d.bump CLP_CNT (k + 1) 1 else d
    let d := if g.heldUpd then d.bump CLP_CNT (k + 2) 1 else d
    let ready := max e (max g.updEdge (if g.policy = 0 ∧ !g.fallback then g.drainEdge else 0))
    let markEnd := if g.markHeld ∧ g.markAt = 0 then now else g.markAt
    d.bump CLP_CNT (k + 8) (markEnd - ready)

/-- A tick marker or drain token of this chip (R302). -/
def Dev.markFlit (d : Dev) (kind c n : Nat) : Flit :=
  { hdr := hdrOf 1 0 1 1 0 c 0 0, words := [evWord kind n (d.chipId * 2 ^ 17) 0] }

/-- A marker or token joins a port's class-1 queue. -/
def Dev.queueMark (d : Dev) (p : Nat) (f : Flit) : Dev :=
  let x := d.port p
  d.setPort p { x with q := Tab.upd [] x.q 1 (· ++ [⟨[f], []⟩]) }

/-- Every engine of the context in service takes the start of tick n (R146). -/
def Dev.sendStart (d : Dev) (c n : Nat) : Dev :=
  ((List.range 32).flatMap (fun t => (List.range 9).map (fun e => (t, e)))).foldl (fun d p =>
    if d.engineServes p.1 p.2 ∧ d.holds p.1 p.2 c then
      let g := d.eng p.1 p.2
      d.setEng p.1 p.2 { g with startQ := g.startQ ++ [(c, n)] }
    else d) d

/-- The generator at the start of a tick at edge `now`: the count restarts, from its phase where a load was held (R153,
R156); a written policy takes effect (R151). -/
def Gen.started (g : Gen) (c' n now policy phase : Nat) : Gen :=
  { g with
    due := none, edge := now
    count := if g.heldLoad ∧ g.period ≠ 0 then (g.period - phase % g.period) % g.period else c'
    heldLoad := false
    stepRemain := if g.stepped then g.stepRemain - 1 else g.stepRemain
    stepped := false, policy := policy, upd := false, drained := false, fallback := false
    heldUpd := false, markHeld := false, first := false, uncounted := false, markAt := 0
    starts := ((n, now) :: g.starts).take 16 }

/-- The tick after the last one started of a context starts at edge `now`. -/
def Dev.startTick (d : Dev) (c now : Nat) : Dev :=
  let g := d.gen c
  let n := tickSucc (d.tickOf c)
  let d := (d.countStart c now).setF CLP_STATUS c CLP_STATUS_FELL_BACK (if g.fallback then 1 else 0)
  let d := d.setF CLP_TICK c CLP_TICK_TICK n
  let d := d.putGen c (g.started 0 n now (d.fld CLP_CTRL c CLP_CTRL_POLICY) (d.fld CLP_PHASE c CLP_PHASE_PHASE))
  let d := d.sendStart c n
  let d := (List.range 32).foldl (fun d t => d.tumTickStart c n t) d
  (d.markPorts c).foldl (fun d p => if d.markPort p then d.queueMark p (d.markFlit 4 c n) else d) d

/-- TICK_START (R145). -/
def execTickStart (c : Ctx) (now : Nat) (s : State) : Host.Outcome State Fault Refusal :=
  run (fun d => if d.startsAt c now then d.startTick c now else d) s

/-! ## Periods and phases -/

/-- A write of CLP_PERIOD_n is accepted at edge `now` and due on the fourth edge after it (R154). -/
def Dev.writePeriod (d : Dev) (c v now : Nat) : Dev :=
  let g := d.gen c
  (d.setF CLP_PERIOD c CLP_PERIOD_PERIOD v).setGen c { g with periodDue := g.periodDue ++ [(now + 4, v)] }

/-- CLP_PERIOD_WRITE (R154). -/
def execClpPeriodWrite (c : Ctx) (v : W32) (now : Nat) (s : State) : Host.Outcome State Fault Refusal :=
  run (fun d => d.writePeriod c v.toNat now) s

/-- A period takes effect at edge `at_` (R154, R155). -/
def Gen.newPeriod (g : Gen) (p at_ : Nat) : Gen :=
  let k := g.countAt at_
  if p = 0 then { g with period := 0, count := k, edge := at_ }
  else if g.period = 0 then { g with period := p, count := 0, edge := at_ }
  else { g with period := p, count := min k (p - 1), edge := at_ }

/-- CLP_PERIOD_EFFECT: the oldest scheduled period takes effect on its edge; 1 to 199 are taken as 200 with PERIOD_CLAMP; a
SET_TICK_PERIOD that waits for the edge ends (R154, R155, R382). -/
def execClpPeriodEffect (c : Ctx) (now : Nat) (s : State) : Host.Outcome State Fault Refusal :=
  run (fun d =>
    let g := d.gen c
    match g.periodDue with
    | [] => d
    | (e, v) :: r =>
      if e ≤ now then
        let clamp := decide (1 ≤ v) && decide (v < 200)
        let d := if clamp then d.setF CLP_STATUS c CLP_STATUS_PERIOD_CLAMP 1 else d
        let d := d.putGen c ({ g with periodDue := r }.newPeriod (if clamp then 200 else v) e)
        (d.cmds.filter (fun x => x.wait == .edge c e)).foldl (fun d x => d.finish x.id 0 0 (leBytes 6 (d.tickOf c))) d
      else d) s

/-- The selected generators load their phases on the fourth edge after `now` (R156). -/
def Dev.syncWrite (d : Dev) (mask now : Nat) : Dev :=
  (ones 8 mask).foldl (fun d c =>
    let g := d.gen c
    d.setGen c { g with loadDue := g.loadDue ++ [now + 4] }) d

/-- CLP_SYNC_WRITE (R156). -/
def execClpSyncWrite (v : W32) (now : Nat) (s : State) : Host.Outcome State Fault Refusal :=
  run (fun d => d.syncWrite (v.toNat % 256) now) s

/-- A generator with a scheduled load loads (P − φ) mod P, or holds the load while a due tick has not started (R156). -/
def Dev.syncLoad (d : Dev) (now c : Nat) : Dev :=
  let g := d.gen c
  match g.loadDue with
  | [] => d
  | e :: r =>
    if now < e then d
    else
      let g := { g with loadDue := r }
      let φ := d.fld CLP_PHASE c CLP_PHASE_PHASE
      if g.period = 0 then d.setGen c g
      else if g.due.isSome then d.setGen c { g with heldLoad := true }
      else d.setGen c { g with count := (g.period - φ % g.period) % g.period, edge := e }

/-- CLP_SYNC_LOAD (R156). -/
def execClpSyncLoad (now : Nat) (s : State) : Host.Outcome State Fault Refusal :=
  run (fun d => (List.range 8).foldl (fun d c => d.syncLoad now c) d) s

/-- CLP_STAGGER_WRITE: evenly spread phases are written and synchronised, or STAGGER_ERR is set (R157). -/
def execClpStaggerWrite (v : W32) (now : Nat) (s : State) : Host.Outcome State Fault Refusal :=
  run (fun d =>
    let sel := ones 8 (v.toNat % 256)
    if !(v.getLsbD 8) ∨ sel = [] then d
    else
      let p := (d.gen (sel.headD 0)).period
      if p ≠ 0 ∧ sel.all (fun c => (d.gen c).period == p) then
        (sel.zipIdx.foldl (fun d x => d.setF CLP_PHASE x.1 CLP_PHASE_PHASE (x.2 * p / sel.length)) d).syncWrite (v.toNat % 256) now
      else d.setF CLP_GSTATUS 0 CLP_GSTATUS_STAGGER_ERR 1) s

/-- Steps are added while the period is 0 (R158). DEDUCED, log entry 13. -/
def Dev.addSteps (d : Dev) (c k : Nat) : Dev :=
  if d.fld CLP_PERIOD c CLP_PERIOD_PERIOD ≠ 0 then d.setF CLP_STATUS c CLP_STATUS_STEP_ERR 1
  else
    let g := d.gen c
    d.putGen c { g with stepRemain := min 65535 (g.stepRemain + k) }

/-- CLP_STEP_WRITE (R158). -/
def execClpStepWrite (c : Ctx) (v : W32) (s : State) : Host.Outcome State Fault Refusal :=
  run (fun d => d.addSteps c (v.toNat % 65536)) s

/-! ## Drain -/

/-- Whether a list of event words holds one of a parity. -/
def wordsOf (par : Nat) (ws : List W64) : Bool := ws.any (fun w => evTick w % 2 == par)

/-- Whether a flit carries an event of a context and parity. -/
def Flit.carries (f : Flit) (c par : Nat) : Bool := decide (f.cls ≤ 1) && f.ctx == c && wordsOf par f.words

/-- Whether delivered events hold one of a context and parity. -/
def evsOf (c par : Nat) (l : List Delivered) : Bool := l.any (fun x => x.ctx == c && evTick x.word % 2 == par)

/-- Whether a tile holds any word of a context and parity (R271): router buffers, a gateway's rim-port buffers among them, local ports, combining entries, emit and
delivery queues, held gather states, parked and refetching events, Tumbler queues. -/
def Dev.tileHolds (d : Dev) (c par t : Nat) : Bool :=
  let r := d.router t
  r.arr.any (fun q => q.2.any (fun a => a.flit.carries c par)) || r.wait.any (fun w => w.flit.carries c par)
  || r.local_.any (fun q => q.2.any (fun f => f.carries c par)) || r.comb.any (fun x => x.flit.carries c par)
  || gwTiles.zipIdx.any (fun g => g.1 == t && ((Tab.get [] d.gwIn g.2).any (fun x => x.ctx == c && evTick x.word % 2 == par)
    || (Tab.get [] d.rimIn g.2).any (fun f => f.carries c par)))
  || (Tab.get [] d.preQ t).any (fun p => p.ctx == c && p.tick % 2 == par) || evsOf c par (d.tum t).modQ
  || (List.range 9).any (fun e =>
    let g := d.eng t e
    (g.emitX ++ g.emitO).any (fun x => x.ctx == c && evTick x.word % 2 == par)
    || evsOf c par (g.qX ++ g.qO) || g.gather.any (fun h => h.ctx == c && h.copies.any (fun k => (Tab.get (⟨0, 0, 0, 0⟩ : CopyRec) d.copies k).par == par))
    || evsOf c par (g.parked.map (·.ev)) || g.refetch.any (fun x => !x.alone && evsOf c par [x.ev]))

/-- The residual of a context and parity is cleared in every tile (R271). DEDUCED, log entry 13. -/
def Dev.residualClear (d : Dev) (c par : Nat) : Dev :=
  (List.range 32).foldl (fun d t =>
    let held := [0, 1].any (fun v => Tab.get 0 d.inflight (flightKey t c par v) != 0)
    if held then
      let d := { d with inflight := [0, 1].foldl (fun m v => Tab.set 0 m (flightKey t c par v) 0) d.inflight }
      ((d.bump MID_CNT (t * 9 + 7) 1).setF MID_STATUS t MID_STATUS_RESID_CLR 1).occur 0x3609 2 c (srcTile t) 0
    else d) d

/-- What a wave finds of one context and parity while the context waits for drain: after 16 waves of one non-zero sum, two
waves that find no word clear the residual (R271); a wave on which it does not wait starts anew. -/
def Dev.waveRepeat (d : Dev) (c par : Nat) (sum : Int) : Dev :=
  let k := c * 2 + par
  let (last, n, clean) := Tab.get (0, 0, 0) d.waves k
  if sum = 0 then { d with waves := Tab.set (0, 0, 0) d.waves k (0, 0, 0) }
  else if sum ≠ last then { d with waves := Tab.set (0, 0, 0) d.waves k (sum, 1, 0) }
  else if n < 16 then { d with waves := Tab.set (0, 0, 0) d.waves k (sum, n + 1, 0) }
  else if (List.range 32).any (d.tileHolds c par) then { d with waves := Tab.set (0, 0, 0) d.waves k (sum, n, 0) }
  else if clean = 0 then { d with waves := Tab.set (0, 0, 0) d.waves k (sum, n, 1) }
  else ({ d with waves := Tab.set (0, 0, 0) d.waves k (0, 0, 0) }).residualClear c par

/-- A wave's sums of one context: CLP_INFLIGHT, drain of the last tick, drained versions in the tiles and the rim; with a version newly
drained Usher makes the slots of a placed context equal in both (R144, R262, R263, R271, R303). -/
def Dev.waveOf (d : Dev) (now c : Nat) : Dev :=
  let f := fun p v => d.flightSum c p v
  let s0 := f 0 0 + f 0 1
  let s1 := f 1 0 + f 1 1
  let v0 := f 0 0 + f 1 0
  let v1 := f 0 1 + f 1 1
  let d := (d.setF CLP_INFLIGHT (c * 2) CLP_INFLIGHT_SUM (enc 32 s0)).setF CLP_INFLIGHT (c * 2 + 1) CLP_INFLIGHT_SUM (enc 32 s1)
  let g := d.gen c
  let par := d.tickOf c % 2
  let mine := if par = 0 then s0 else s1
  let d := if g.upd ∧ !g.drained ∧ mine = 0 then
      { d.putGen c { g with drained := true, drainEdge := now } with
        demoted := d.demoted.map (fun x => if x.ctx = c then { x with seen := x.seen ||| 2 ^ par } else x) } else d
  let d := if g.upd ∧ !g.drained then (d.waveRepeat c 0 s0).waveRepeat c 1 s1
    else { d with waves := d.waves.filter (fun (x : Nat × (Int × Nat × Nat)) => x.1 / 2 != c) }
  let gone := fun (v : Nat) => if v = 0 then decide (v1 = 0) else decide (v0 = 0)
  let fresh := (List.range 32).any (fun t => gone (d.midVer t c) && !((d.fld MID_VER_STATUS t MID_VER_STATUS_DRAINED).testBit c))
  let d := (List.range 32).foldl (fun d t =>
    if gone (d.midVer t c) then d.setBitF MID_VER_STATUS t MID_VER_STATUS_DRAINED c true else d) d
  let d := if fresh ∧ !(Tab.get [] d.blocks c).isEmpty ∧ !(d.forwarding c) then d.copySlots c else d
  if gone (d.rimVer c) then d.setBitF RIM_VER_STATUS 0 RIM_VER_STATUS_DRAINED c true else d

/-- DRAIN_WAVE: a wave completes at edge `now` (R144). -/
def execDrainWave (now : Nat) (s : State) : Host.Outcome State Fault Refusal :=
  run (fun d => (List.range 8).foldl (fun d c => d.waveOf now c) d) s

/-! ## Markers and tokens -/

/-- TICK_MARKER_RECEIVE: the oldest marker received on a port (R161, R302). -/
def execTickMarkerReceive (p : Port) (now : Nat) (s : State) : Host.Outcome State Fault Refusal :=
  run (fun d =>
    let l := Tab.get [] d.marksIn p
    match l.find? (fun x => evKind x.2 == 4) with
    | none => d
    | some (c, w) =>
      let d := { d with marksIn := Tab.set [] d.marksIn p (dropFirst (fun (x : Nat × W64) => evKind x.2 == 4) 1 l) }
      if !(d.markPort p) then d
      else
        let g := d.gen c
        let n := fullTick (d.tickOf c) (evTick w)
        let was := d.markersIn c (d.tickOf c)
        let g := { g with relink := g.relink.filter (· != p.val)
                          marks := (g.marks.filter (fun (m : Nat × Nat) => m.1 < p.val)) ++ [(p.val, n)] ++ g.marks.filter (fun (m : Nat × Nat) => p.val < m.1) }
        let d := d.setGen c g
        d.putGen c (if !was && d.markersIn c (d.tickOf c) then { g with markAt := now } else g)) s

/-- DRAIN_TOKEN_RECEIVE: the oldest drain token received on a port (R305). -/
def execDrainTokenReceive (p : Port) (s : State) : Host.Outcome State Fault Refusal :=
  run (fun d =>
    let l := Tab.get [] d.marksIn p
    match l.find? (fun x => evKind x.2 == 5) with
    | none => d
    | some (c, w) =>
      let d := { d with marksIn := Tab.set [] d.marksIn p (dropFirst (fun (x : Nat × W64) => evKind x.2 == 5) 1 l) }
      if d.markPort p then d.setF RIM_DT (c * 6 + p) RIM_DT_TICK (fullTick (d.tickOf c) (evTick w)) else d) s

/-- Whether copies bound for gateways remain in the tiles for a context and parity (R304). -/
def Dev.boundForRim (d : Dev) (c par : Nat) : Bool :=
  (List.range 32).any (fun t =>
    let r := d.router t
    r.arr.any (fun q => q.2.any (fun a => a.flit.rim == 1 && a.flit.carries c par))
    || r.wait.any (fun w => w.flit.rim == 1 && w.flit.carries c par))
  || d.rimIn.any (fun q => q.2.any (fun f => f.carries c par))

/-- The tick whose drain token a port sends next: the one after the last it sent, or took as sent (R304). -/
def Dev.tokenNext (d : Dev) (c p : Nat) : Nat := tickSucc (Tab.get 0 (d.gen c).tokSent p)

/-- Whether tick `n` of a context is update-complete: an earlier tick than the present one, or the present one once it is (R142, R304). -/
def Dev.updComplete (d : Dev) (c n : Nat) : Bool :=
  tickGe (d.tickOf c) n && (n != d.tickOf c || (d.gen c).upd)

/-- Tokens of a port are taken as sent up to tick `n`. -/
def Gen.tokensTo (g : Gen) (p n : Nat) : Gen := { g with tokSent := Tab.set 0 g.tokSent p n }

/-- DRAIN_TOKEN_SEND: the rim sends DRAIN(n) on a marker port once tick n is update-complete, no copy bound for a gateway
remains for its parity, and the port's class-0 queue holds no word of the context stamped n or earlier; n steps from tick to tick
(R304). DEDUCED, log entry 13. -/
def execDrainTokenSend (c : Ctx) (p : Port) (s : State) : Host.Outcome State Fault Refusal :=
  run (fun d =>
    let n := d.tokenNext c p
    let early := (d.port p).c0.any (fun i => i.flits.any (fun f =>
      f.ctx == c.val && f.words.any (fun w => tickGe n (fullTick n (evTick w)))))
    if (d.markPorts c).contains p.val ∧ d.markPort p ∧ d.updComplete c n ∧ !early ∧ !(d.boundForRim c (n % 2)) then
      (d.setGen c ((d.gen c).tokensTo p n)).queueMark p (d.markFlit 5 c n)
    else d) s

/-- A write of CLP_CTRL: a POLICY of 3 is ignored, and a port that newly carries markers sends drain tokens from the present tick on
(R151, R166, R304). -/
def Dev.clpCtrl (d : Dev) (c : Nat) (half : Half) (v : W64) : Dev :=
  let old := d.markPorts c
  let v := if CLP_CTRL_POLICY.get v = 3 then CLP_CTRL_POLICY.put v (d.fld CLP_CTRL c CLP_CTRL_POLICY) else v
  let d := d.store CLP_CTRL c half v
  d.setGen c (((d.markPorts c).filter (fun p => !(old.contains p))).foldl (fun g p => g.tokensTo p ((d.tickOf c + tickMod - 1) % tickMod)) (d.gen c))

end Sys2Proof.Machine
end

