-- ==== Sys2Proof/Machine/Refuse.lean ====
section
/-! DEFINITION. The log of refusals and aborts (R492 to R494). -/

namespace Sys2Proof.Machine

/-- A refuser's objection: its type of R492, tile, unit, context and reason. -/
structure Objection where
  type : Nat
  tile : Nat := 0xFF
  unit : Nat := 0xFF
  ctx : Nat := 0
  reason : Nat := 1
  deriving DecidableEq, Repr

/-- Entries logged since the log began: the position of the next in its ring (R493). -/
def Dev.refCount (d : Dev) : Nat := (List.range 9).foldl (fun a k => a + d.fld PWR_REFCNT k PWR_REFCNT_COUNT) 0

/-- One entry of the refusal log, with its count (R493). -/
def Dev.logObjection (d : Dev) (action abort : Nat) (o : Objection) : Dev :=
  let i := d.refCount % 16
  let v := BitVec.ofNat 64 (action % 256 * 2 ^ 56 + abort % 2 * 2 ^ 55 + o.type % 16 * 2 ^ 51 + o.tile % 256 * 2 ^ 43
    + o.unit % 256 * 2 ^ 35 + o.ctx % 8 * 2 ^ 32 + o.reason % 65536 * 2 ^ 16)
  let d := (d.wr PWR_REFLOG i v).wr PWR_REFLOG_TIME i (BitVec.ofNat 64 (d.fld BRK_OPTIME 0 BRK_OPTIME_SECONDS))
  let d := d.setF PWR_REFLOG_IDX 0 PWR_REFLOG_IDX_COUNT (min 16 (d.fld PWR_REFLOG_IDX 0 PWR_REFLOG_IDX_COUNT + 1))
  d.bump PWR_REFCNT (o.type - 1) 1

/-- A refused request: every objection is logged, and 0x3D01 is recorded (R493). -/
def Dev.refused (d : Dev) (action : Nat) (os : List Objection) : Dev :=
  (os.foldl (fun d o => d.logObjection action 0 o) d).occur 0x3D01 1 0xFF srcDevice 0

/-- An aborted entry: a type-7 entry with ABORT = 1, and 0x3D02 (R494). -/
def Dev.aborted (d : Dev) (action source : Nat) : Dev :=
  (d.logObjection action 1 { type := 7, unit := source }).occur 0x3D02 1 0xFF srcDevice 0

/-- Bytes 0 to 3 of RESULT for an objection (R382, R492). -/
def Objection.result (o : Objection) : List Byte :=
  let c := if o.type = 6 ∨ o.type = 7 ∨ o.type = 9 then 0xFF else o.ctx
  [BitVec.ofNat 8 o.type, BitVec.ofNat 8 o.tile, BitVec.ofNat 8 o.unit, BitVec.ofNat 8 c]

end Sys2Proof.Machine
end

