-- ==== Sys2Proof/Machine/Box.lean ====
section
/-! DEFINITION. The Box Office's frame of every command: which of the taken commands may run (R377 to R381), what they read and
write by DMA (R369, R382, R388), contexts (R375, R440), and how they end (R376, R387). -/

namespace Sys2Proof.Machine

/-! ## Fields of a command -/

/-- `n` parameter bytes from byte `i` as a number. -/
def Cmd.p (c : Cmd) (i n : Nat) : Nat := at_ c.params i n

/-- Whether a command is privileged: from a queue of the physical function, or from the agents 0x00 and 0x3F of another chip
(R366, R388). -/
def Cmd.priv (c : Cmd) : Bool :=
  match c.remote with
  | some (_, a, _) => a == 0 || a == 0x3F
  | none => decide (c.sq < 8)

/-- Function whose queue carries the command: 0 the PF, 1 + c VF c. -/
def Cmd.fn (c : Cmd) : Nat := if c.priv then 0 else 1 + c.ctx

/-- Opcodes that the Box Office passes to the Ringmaster (R377, R382). -/
def slowOp (op : Nat) : Bool :=
  [0x10, 0x11, 0x12, 0x13, 0x16, 0x17, 0x20, 0x21, 0x22, 0x29, 0x30, 0x31, 0x38, 0x40, 0x41, 0x48, 0x49, 0x4A, 0x4B, 0x50, 0x51].contains op

/-- Opcodes that act on a context (R375, R382). -/
def ctxOp (op : Nat) : Bool :=
  [0x10, 0x11, 0x12, 0x13, 0x14, 0x15, 0x16, 0x17, 0x18, 0x19, 0x22, 0x28, 0x29, 0x30, 0x31].contains op

/-- Opcodes that wait until no other Ringmaster command runs and hold every later one: POWER_STATE, FW_ACTIVATE (R380). -/
def soleOp (op : Nat) : Bool := op == 0x38 || op == 0x41

/-- Whether a Ringmaster command must wait for an earlier one (R380). -/
def Cmd.after (c b : Cmd) : Bool :=
  decide (b.id < c.id) && slowOp b.opcode && b.stage != 2
  && (soleOp c.opcode || soleOp b.opcode || (ctxOp c.opcode && ctxOp b.opcode && c.ctx == b.ctx))

/-- Whether a fast-path command was taken from the same queue, or from the same remote sender, before another and has not taken
effect (R378). -/
def Cmd.behind (c b : Cmd) : Bool :=
  decide (b.id < c.id) && !(slowOp b.opcode) && b.stage == 0 && b.sq == c.sq
  && b.remote.map (fun r => (r.1, r.2.1)) == c.remote.map (fun r => (r.1, r.2.1))

/-- Whether a taken command may start: a fast-path command in take order of its queue; a Ringmaster command outside a restart, a
debug halt and a Hibernate entry, in the order of R380 (R377, R378, R381, R494). -/
def Dev.mayRun (d : Dev) (c : Cmd) : Bool :=
  c.stage == 0 && (if slowOp c.opcode then !d.rmRestart && !d.dbgHalt && d.fld PWR_STATUS 0 PWR_STATUS_STATE != 3 && !(d.cmds.any (fun b => c.after b)) else !(d.cmds.any (fun b => c.behind b)))

/-- A command has started. -/
def Dev.started (d : Dev) (id : Nat) : Dev :=
  { d with cmds := d.cmds.map (fun x => if x.id = id then { x with stage := 1 } else x) }

/-- A command of an opcode runs when it may. -/
def Dev.command (d : Dev) (id op : Nat) (f : Cmd → Dev → Dev) : Dev :=
  match d.cmds.find? (fun c => c.id == id) with
  | some c => if c.opcode = op ∧ d.mayRun c then f c (d.started id) else d
  | none => d

/-- A command that needs a power-gated tile or engine in Nap is refused with refuser type 9 (R487). DEDUCED, log entry 23. -/
def Dev.unlessNap (d : Dev) (id : Nat) (need : Bool) (tile unit : Nat) (k : Dev → Dev) : Dev :=
  if need ∧ d.fld PWR_STATUS 0 PWR_STATUS_STATE = 2 then
    let o : Objection := { type := 9, tile := tile, unit := unit }
    (d.refused 0x30 [o]).finish id 0x0301 0x0107 o.result
  else k d

/-- A command that runs waits for something. -/
def Dev.await (d : Dev) (id : Nat) (w : CmdWait) : Dev :=
  { d with cmds := d.cmds.map (fun x => if x.id = id then { x with wait := w } else x) }

/-! ## Ends -/

/-- OK with result bytes. -/
def Dev.ok (d : Dev) (id : Nat) (result : List Byte) : Dev := d.finish id 0 0 result
/-- REFUSED with a code of R387. -/
def Dev.refuse (d : Dev) (id code : Nat) : Dev := d.finish id 0x0301 code []
/-- OUT_OF_RANGE naming the parameter byte of the field. -/
def Dev.outOfRange (d : Dev) (id off : Nat) : Dev := d.finish id 0x0105 off []
/-- BUSY. -/
def Dev.busy (d : Dev) (id : Nat) : Dev := d.finish id 0x0300 0 []

/-! ## Contexts -/

/-- What a physical-function command does to a confidential context (R440). -/
inductive Closing where
  | reads | feeds | usual
  deriving DecidableEq, Repr

/-- A command that acts on a context: a CONTEXT above 7 is out of range; a physical-function command that reads or feeds a
confidential context completes OK without it, with the result `shut` (R375, R440). -/
def Dev.ctxCommand (d : Dev) (id op : Nat) (k : Closing) (shut : List Byte) (f : Cmd → Dev → Dev) : Dev :=
  d.command id op (fun c d =>
    if c.priv ∧ c.ctx > 7 then d.outOfRange id 0xFFFC
    else if c.priv ∧ k ≠ .usual ∧ d.confidential c.ctx then (d.violation 0 5 op).ok id shut
    else f c d)

/-! ## DMA -/

/-- The bytes at a command's ADDR: what the host's memory supplied, or device memory for a remote command; none when the DMA
failed or is not allowed (R348, R382, R388). -/
def Dev.dmaRead (d : Dev) (c : Cmd) (addr n : Nat) (data : Option (List Byte)) : Option (List Byte) :=
  if c.remote.isSome then some (d.ldBytes addr n)
  else if d.dmaOk c.fn then data.map (fun b => (b ++ List.replicate (n - b.length) 0).take n) else none

/-- Bytes written at a command's ADDR; none when the DMA is not allowed or fails. -/
def Dev.dmaWrite (d : Dev) (c : Cmd) (addr : Nat) (bytes : List Byte) (ok : Bool) : Option Dev :=
  if c.remote.isSome then some (d.stBytes addr bytes)
  else if ok ∧ d.dmaOk c.fn then some (d.hostW addr bytes) else none

/-- A command whose host DMA failed (R387). -/
def Dev.dmaFailed (d : Dev) (id : Nat) : Dev := d.finish id 0x0500 0x0200 []

/-- A command that reads `n` bytes at its ADDR, held at parameter byte `pos`, which must be 8-byte aligned (R382). -/
def Dev.withData (d : Dev) (c : Cmd) (pos n : Nat) (data : Option (List Byte)) (f : List Byte → Dev) : Dev :=
  let a := c.p pos 8
  if a % 8 ≠ 0 then d.outOfRange c.id pos
  else match d.dmaRead c a n data with
    | none => d.dmaFailed c.id
    | some b => f b

/-- A command that writes bytes at its ADDR, held at parameter byte `pos`. -/
def Dev.writeData (d : Dev) (c : Cmd) (pos : Nat) (bytes : List Byte) (ok : Bool) (f : Dev → Dev) : Dev :=
  let a := c.p pos 8
  if a % 8 ≠ 0 then d.outOfRange c.id pos
  else match d.dmaWrite c a bytes ok with
    | none => d.dmaFailed c.id
    | some d => f d

end Sys2Proof.Machine
end

