-- ==== Sys2Proof/Machine/Bilbex.lean ====
section
/-! DEFINITION. Bilbex descriptions: header and records (R198 to R205), the checks of LOAD_DESCRIPTION (R87, R206), and the
generator of procedural projections (R202). -/

namespace Sys2Proof.Machine

/-! ## Records -/

/-- A record: its position, TYPE, ID and body (R199). -/
structure Rec where
  ix : Nat
  type : Nat
  id : Nat
  body : List Byte
  deriving DecidableEq, Repr

/-- A field of `n` bytes of a record's body. -/
def Rec.f (r : Rec) (i n : Nat) : Nat := at_ r.body i n

/-- The records in the bytes after the header; `inr k` when the header or LENGTH of record k is wrong (R199). -/
def records : Nat → Nat → List Byte → List Rec ⊕ Nat
  | 0, ix, bs => if bs.isEmpty then .inl [] else .inr ix
  | n + 1, ix, bs =>
    let type := at_ bs 0 2
    let len := at_ bs 4 4
    if bs.length < 8 ∨ type = 0 ∨ type > 9 ∨ len % 8 ≠ 0 ∨ len < 8 ∨ len > bs.length then .inr ix
    else match records n (ix + 1) (bs.drop len) with
      | .inr k => .inr k
      | .inl rs => .inl (⟨ix, type, at_ bs 2 2, slice bs 8 (len - 8)⟩ :: rs)

/-- The records of a description. -/
def recsOf (bs : List Byte) : List Rec :=
  match records (at_ bs 6 2) 0 (bs.drop 32) with
  | .inl rs => rs
  | .inr _ => []

/-- Record of a type and ID. -/
def recFind (rs : List Rec) (type id : Nat) : Option Rec := rs.find? (fun r => r.type == type && r.id == id)

/-- Smallest body of each record type (R87, R199 to R204, R340, R360). -/
def bodyMin (type : Nat) : Nat :=
  match type with
  | 1 => 20 | 2 => 40 | 4 => 8 | 5 => 132 | 6 => 56 | 7 => 16 | 8 => 8 | 9 => 12 | _ => 0

/-- Whether a record's LENGTH fits its type: a body holds its fields, and a POP body its patches. -/
def bodyOk (r : Rec) : Bool :=
  decide (bodyMin r.type ≤ r.body.length) && (r.type != 1 || decide (20 + 8 * r.f 18 2 ≤ r.body.length))

/-- Keys that a population owns: its first key and their number (R200). -/
def keysOf (r : Rec) : Nat × Nat := (r.f 0 4, if (r.f 10 1).testBit 1 then 2 * r.f 4 4 else r.f 4 4)

/-- Words of a ROUTINE record. -/
def routineWords (r : Rec) : List Nat := (List.range (r.body.length / 8)).map (fun k => r.f (8 * k) 8)

/-- The limits of R205: a type and its largest number of records. -/
def recLimits : List (Nat × Nat) := [(1, 4096), (2, 8192), (4, 56), (5, 255), (8, 256), (9, 1024)]

/-! ## Checks on one record -/

/-- Fields of a record within their ranges (R87, R199 to R204, R340, R360). -/
def fieldsOk (r : Rec) : Bool :=
  match r.type with
  | 1 =>
    r.f 0 4 % 256 == 0 && decide (1 ≤ r.f 4 4) && decide (r.f 4 4 ≤ 2097152)
    && (decide (r.f 8 1 ≤ 4) || (decide (0x40 ≤ r.f 8 1) && decide (r.f 8 1 ≤ 0x40 + 55)))
    && decide (1 ≤ r.f 9 1) && decide (r.f 9 1 ≤ 5) && decide (r.f 11 1 ≤ 15) && decide (r.f 18 2 ≤ 16)
    && (List.range (r.f 18 2)).all (fun k => decide (r.f (20 + 8 * k) 1 < 64))
  | 2 =>
    decide (r.f 4 1 ≤ 4) && decide (r.f 5 1 ≤ 3) && decide (r.f 7 1 ≤ 2) && decide (r.f 20 1 ≤ 2) && decide (r.f 23 1 ≤ 2)
    && (r.f 23 1 == 0 || (decide (1 ≤ r.f 24 1) && decide (r.f 24 1 ≤ 63)))
    && (r.f 23 1 != 2 || (decide (1 ≤ r.f 25 1) && decide (r.f 25 1 ≤ 63)))
    && (r.f 4 1 != 2 || (decide (1 ≤ r.f 33 1) && decide (r.f 33 1 ≤ 4)))
  | 4 => decide (r.id ≤ 55) && decide (1 ≤ r.body.length / 8) && decide (r.body.length / 8 ≤ 64)
  | 5 => decide (r.id ≤ 254)
  | 6 => decide (r.f 0 1 ≤ 17)
  | 7 => decide (r.f 0 1 ≤ 3)
  | 8 => decide (1 ≤ r.f 2 1) && decide (r.f 2 1 ≤ 48) && decide (1 ≤ r.f 3 1) && decide (r.f 3 1 ≤ 16)
  | 9 => decide (1 ≤ r.f 0 1) && decide (r.f 0 1 ≤ 3) && (r.f 0 1 != 2 || decide (r.f 1 1 ≤ 2))
  | _ => true

/-- Every ID that a record names resolves to a record of the type expected (R199 to R204). -/
def idsOk (rs : List Rec) (r : Rec) : Bool :=
  let has := fun type id => (recFind rs type id).isSome
  match r.type with
  | 1 => (decide (r.f 8 1 < 0x40) || has 4 (r.f 8 1 - 0x40))
    && (List.range 4).all (fun j => r.f (12 + j) 1 == 0xFF || has 5 (r.f (12 + j) 1))
  | 2 => has 1 (r.f 0 2) && has 1 (r.f 2 2) && (r.f 26 2 == 0xFFFF || has 3 (r.f 26 2))
    && (r.f 28 2 == 0xFFFF || has 3 (r.f 28 2))
    && (r.f 26 2 != 0xFFFF || !(r.f 4 1 == 0 || r.f 4 1 == 2 || r.f 20 1 == 0 || r.f 23 1 == 0))
  | 8 => has 1 (r.f 0 2)
  | 9 => has 1 (r.f 2 2) && (r.f 0 1 != 2 || has 1 (r.f 4 2))
  | _ => true

/-- The constants that a user routine may hold in a word: K is an ignored field, and zero, where no source selects it (R71, R87). -/
def constOk (op : MicroOp) (tables : List Nat) : Bool :=
  match op with
  | .add _ a b k _ | .sub _ a b k _ | .cmpge a b k _ | .cmplt a b k _ | .sel _ a b k _ => a == 4 || b == 4 || k == 0
  | .shr _ _ k _ => bits k.toNat 23 9 == 0
  | .noise _ _ k _ => bits k.toNat 23 9 == 0
  | .emit _ k _ => bits k.toNat 23 9 == 0
  | .refr k _ => bits k.toNat 22 8 == 0
  | .decay _ _ k _ => tables.contains (k.toNat % 4)
  | _ => true

/-- First word of a user routine that breaks R87: legal OP with its unused fields zero, END as the last word only, one SLOT at
most, a REFR test form before a set form, the constants of `constOk`. -/
def routineBad (ws tables : List Nat) : Option Nat :=
  let bad : Nat → Bool := fun k =>
    let w := ws.getD k 0
    match microDecode w with
    | none => true
    | some op =>
      let before := (ws.take k).filterMap microDecode
      MicroOp.encode op != w || !(constOk op tables)
      || (match op with
        | .fin _ => decide (k + 1 < ws.length)
        | .slot _ => before.any (fun o => match o with | .slot _ => true | _ => false)
        | .refr c _ => !(c.getLsbD 23) && !(before.any (fun o => match o with | .refr c' _ => c'.getLsbD 23 | _ => false))
        | _ => false)
      || (decide (k + 1 = ws.length) && (match op with | .fin _ => false | _ => true))
  (List.range ws.length).find? bad

/-- Decay tables that every population using a user routine maps. -/
def tablesOf (rs : List Rec) (routine : Nat) : List Nat :=
  let users := rs.filter (fun r => r.type == 1 && r.f 8 1 == 0x40 + routine)
  (List.range 4).filter (fun j => users.all (fun r => r.f (12 + j) 1 != 0xFF))

/-- The check code of R387 that one record earns, with the word index for a routine (R206). DESIGN CHOICE, log entry 12. -/
def recCheck (rs : List Rec) (r : Rec) : Option (Nat × Nat) :=
  if !(fieldsOk r) then some (0x0D, 0xFFFF)
  else if !(idsOk rs r) then some (6, 0xFFFF)
  else if r.type = 4 then (routineBad (routineWords r) (tablesOf rs r.id)).map (fun w => (8, w))
  else if r.type = 2 then
    let size := fun i => ((recFind rs 1 (r.f i 2)).map (fun p => p.f 4 4)).getD 0
    if r.f 4 1 = 3 ∧ size 0 ≠ size 2 then some (9, 0xFFFF)
    else if (r.f 6 1).testBit 2 ∧ r.f 5 1 ≠ 0 then some (0x0A, 0xFFFF)
    else if (r.f 6 1).testBit 1 ∧ r.f 5 1 < 2 then some (0x0B, 0xFFFF)
    else none
  else none

/-! ## The checks of LOAD_DESCRIPTION -/

/-- First record whose ID an earlier record of its type has. -/
def dupId : List Rec → List Rec → Option Nat
  | _, [] => none
  | seen, r :: rest => if seen.any (fun q => q.type == r.type && q.id == r.id) then some r.ix else dupId (r :: seen) rest

/-- First record beyond a limit of R205. -/
def overLimit (rs : List Rec) : Option Nat :=
  (recLimits.filterMap (fun l => ((rs.filter (fun r => r.type == l.1))[l.2]?).map (·.ix))).head?

/-- First population whose keys meet those of an earlier one, or pass 32 bits (R205). -/
def keyOverlap : List Rec → List Rec → Option Nat
  | _, [] => none
  | seen, r :: rest =>
    let (a, n) := keysOf r
    if a + n > 2 ^ 32 ∨ seen.any (fun q => let (b, m) := keysOf q; decide (a < b + m) && decide (b < a + n)) then some r.ix
    else keyOverlap (r :: seen) rest

/-- The refusal of a description (R198 to R206, R387): check code, record index, word index; none when it is accepted. `len`
is the command's LENGTH. DESIGN CHOICE, log entry 12. -/
def descCheck (bs : List Byte) (len : Nat) : Option (Nat × Nat × Nat) :=
  let n := at_ bs 8 4
  if at_ bs 0 4 ≠ 0x58424C42 then some (1, 0xFFFF, 0xFFFF)
  else if at_ bs 4 2 ≠ 1 then some (2, 0xFFFF, 0xFFFF)
  else if n % 8 ≠ 0 ∨ n < 64 ∨ n > 2 ^ 28 ∨ n ≠ len then some (3, 0xFFFF, 0xFFFF)
  else if crc32c (slice bs 32 (n - 32)) ≠ at_ bs 28 4 then some (4, 0xFFFF, 0xFFFF)
  else if at_ bs 6 2 = 0 ∨ at_ bs 12 4 < 200 then some (0x0D, 0xFFFF, 0xFFFF)
  else match records (at_ bs 6 2) 0 (slice bs 32 (n - 32)) with
    | .inr k => some (5, k, 0xFFFF)
    | .inl rs =>
      match rs.find? (fun r => !(bodyOk r)), dupId [] rs, overLimit rs with
      | some r, _, _ => some (5, r.ix, 0xFFFF)
      | none, some k, _ => some (5, k, 0xFFFF)
      | none, none, some k => some (7, k, 0xFFFF)
      | none, none, none =>
        match rs.findSome? (fun r => (recCheck rs r).map (fun x => (x.1, r.ix, x.2))) with
        | some x => some x
        | none => (keyOverlap [] (rs.filter (fun r => r.type == 1))).map (fun k => (0x0C, k, 0xFFFF))

/-! ## Procedural projections (R202) -/

/-- mix of R202. -/
def mix (z : W64) : W64 :=
  let z := (z ^^^ (z >>> 30)) * 0xBF58476D1CE4E5B9
  let z := (z ^^^ (z >>> 27)) * 0x94D049BB133111EB
  z ^^^ (z >>> 31)

/-- draw of R202. -/
def draw (seed : W64) (i j s : Nat) : W64 :=
  mix (seed ^^^ mix (BitVec.ofNat 64 (i * 2 ^ 32 + j)) ^^^ (BitVec.ofNat 64 s <<< 56))

/-- The weight code of a procedural synapse. -/
def genCode (r : Rec) (i j : Nat) : Int :=
  let lo := sgn 8 (r.f 21 1)
  let hi := sgn 8 (r.f 22 1)
  if r.f 20 1 = 2 then lo + ((((draw (BitVec.ofNat 64 (r.f 8 8)) i j 1).toNat % 65536 : Nat) : Int) * (hi - lo + 1)) / 65536 else lo

/-- The delay of a procedural synapse. -/
def genDelay (r : Rec) (i j : Nat) : Nat :=
  let lo := r.f 24 1
  let hi := r.f 25 1
  if r.f 23 1 = 2 then lo + ((draw (BitVec.ofNat 64 (r.f 8 8)) i j 2).toNat % 65536 * (hi + 1 - lo)) / 65536 else lo

/-- Whether a procedural projection connects source i to target j: fixed probability, one-to-one, all-to-all. -/
def genExists (r : Rec) (i j : Nat) : Bool :=
  match r.f 4 1 with
  | 1 => decide ((draw (BitVec.ofNat 64 (r.f 8 8)) i j 0).toNat / 2 ^ 32 < r.f 16 4)
  | 3 => i == j
  | 4 => true
  | _ => false

/-- The explicit entries of a projection: source, target, code, delay (R201). -/
def explicitSyns (rs : List Rec) (r : Rec) : List (Nat × Nat × Int × Nat) :=
  match recFind rs 3 (r.f 26 2) with
  | none => []
  | some x => (List.range (x.body.length / 8)).map (fun k =>
      let v := x.f (8 * k) 8
      (bits v 63 43, bits v 42 22, sgn 8 (bits v 21 14), bits v 13 8))

/-- Whether R201 and R202 give the codes of a projection's synapses: WGEN generates them, or explicit entries hold them. The layout of
a DATA record of plain weights is not stated. DEDUCED, log entry 37. -/
def codeKnown (r : Rec) : Bool := r.f 4 1 == 0 || r.f 20 1 != 0
/-- The same for the delays, by DGEN. -/
def delayKnown (r : Rec) : Bool := r.f 4 1 == 0 || r.f 23 1 != 0

/-- The synapses of source i of a projection that is no convolution, onto targets first to first + n − 1: target, code, delay. An
explicit entry gives the code with WGEN 0 and the delay with DGEN 0. A code of 0 is left out in C16 (R201, R202). -/
def genSyns (rs : List Rec) (r : Rec) (i first n : Nat) : List (Nat × Int × Nat) :=
  let all :=
    if r.f 4 1 = 0 then
      (explicitSyns rs r).filterMap (fun e => if e.1 = i ∧ first ≤ e.2.1 ∧ e.2.1 < first + n then
        some (e.2.1, if r.f 20 1 = 0 then e.2.2.1 else genCode r i e.2.1, if r.f 23 1 = 0 then e.2.2.2 else genDelay r i e.2.1) else none)
    else ((List.range n).map (first + ·)).filterMap (fun j =>
      if genExists r i j then some (j, genCode r i j, genDelay r i j) else none)
  if r.f 5 1 = 1 ∧ codeKnown r then all.filter (fun x => x.2.1 != 0) else all

end Sys2Proof.Machine
end

