-- ==== Sys2Proof/Machine/Sensors.lean ====
section
/-! DEFINITION. Sensor ingress (R319 to R343): CSI-2 packets with their trailers and CRC engines, address-event inputs and the
address-event output, word decoding, the seven stages, mapping and stamps. Times are edges of the 400 MHz timebase, 2.5 ns
each; half nanoseconds where sensor time is compared with them. -/

namespace Sys2Proof.Machine

/-! ## Inputs -/

/-- State of a sensor input. -/
def Dev.snsIn (d : Dev) (i : Nat) : SnsIn := Tab.get {} d.sns i
/-- A sensor input takes a state. -/
def Dev.setSns (d : Dev) (i : Nat) (x : SnsIn) : Dev := { d with sns := Tab.set {} d.sns i x }
/-- Context of an input. -/
def Dev.snsCtx (d : Dev) (i : Nat) : Nat := d.fld SNS_IN_CFG i SNS_IN_CFG_CTX
/-- A word or packet of an input dropped at an ingress point, under class 1 (R342). -/
def Dev.snsDrop (d : Dev) (p : DropPt) (i key : Nat) : Dev := d.drop p i (d.snsCtx i) 1 key 1
/-- A count of SNS_PC_SEL for an input (R343). DEDUCED, log entry 22. -/
def Dev.snsCount (d : Dev) (k i : Nat) : Dev := d.bump SNS_PC (k * 32 + i) 1

/-- A bit of SNS_INT_STATUS is set; an enabled one that was clear signals PF vector 0 (R343, R359). DEDUCED, log entry 22. -/
def Dev.snsRaise (d : Dev) (b : Nat) : Dev :=
  let was := (d.rd SNS_INT_STATUS 0).getLsbD b
  let d := d.wr SNS_INT_STATUS 0 (d.rd SNS_INT_STATUS 0 ||| BitVec.ofNat 64 (2 ^ b))
  if !was && (d.fld SNS_INT_EN 0 SNS_INT_EN_EN).testBit b then d.msix 0 0 else d

/-- A cause in an input's status, with its interrupt bit. -/
def Dev.snsCause (d : Dev) (i : Nat) (f : Fld) : Dev := (d.setF SNS_IN_STATUS i f 1).snsRaise i

/-! ## Words -/

/-- `w` bits of a number from bit `pos`; what lies above the word reads as zero (R327). -/
def bitField (v pos w : Nat) : Nat := v / 2 ^ pos % 2 ^ w

/-- Tokens of an input's bucket at an edge, in 1/6,400: RATE ÷ 16 tokens a microsecond (R332). DEDUCED, log entry 22. -/
def Dev.turnTokens (d : Dev) (i now : Nat) : Nat :=
  let cap := max 1 (d.fld SNS_TURN i SNS_TURN_BURST) * 6400
  match (d.snsIn i).bucket with
  | none => cap
  | some (n, at_) => min cap (n + (now - at_) * d.fld SNS_TURN i SNS_TURN_RATE)

/-- The receiver or input whose 1,024-word buffer an input uses (R341). -/
def snsBuffer (i : Nat) : Nat := if i < 16 then i / 4 else i - 12

/-- Whether the ingress buffer of an input is full. -/
def Dev.snsFull (d : Dev) (i : Nat) : Bool :=
  decide (1024 ≤ ((Tab.get [] d.swIn 6).filter (fun (x : RimWord) => x.sns.any (fun y => snsBuffer y.1 == snsBuffer i))).length)

/-- An event that has passed the stages enters the ingress buffer, or is dropped there (R341). -/
def Dev.snsEnter (d : Dev) (i L : Nat) (key : Nat) : Dev :=
  if d.snsFull i then d.snsDrop .snsOverflow i key
  else
    let x : RimWord := ⟨evWord 1 0 key 0, d.snsCtx i, 1, none, 0, some (i, L)⟩
    ({ d with swIn := Tab.upd [] d.swIn 6 (· ++ [x]) }).snsCount 1 i

/-- Stages 5 to 7 and the map (R328, R331 to R333); `L` is the local time in half nanoseconds. -/
def Dev.snsLate (d : Dev) (i px key now : Nat) (L : Int) : Dev :=
  let us := (L / 2000).toNat
  let e := d.fld SNS_PIXEL_APER px SNS_PIXEL_APER_ENTRY
  let r := d.fld SNS_IN_CFG i SNS_IN_CFG_REFR_US
  if r ≠ 0 ∧ e.testBit 15 ∧ (us + 32768 - e % 32768) % 32768 < r then d.snsDrop .snsRefr i key
  else
    let d := d.setF SNS_PIXEL_APER px SNS_PIXEL_APER_ENTRY (32768 + us % 32768)
    if !(d.gen (d.snsCtx i)).running then d.snsDrop .snsCtxStop i key
    else
      let tok := d.turnTokens i now
      if d.fld SNS_TURN i SNS_TURN_RATE = 0 then d.snsDrop .snsPolice i key
      else if tok < 6400 then (d.setSns i { d.snsIn i with bucket := some (tok, now) }).snsDrop .snsPolice i key
      else (d.setSns i { d.snsIn i with bucket := some (tok - 6400, now) }).snsEnter i (L / 5).toNat key

/-- Local time of an event with sensor time `ts` (R330), in half nanoseconds, with the anchor it leaves. -/
def Dev.snsLocal (d : Dev) (i ts now : Nat) : Int × Dev :=
  let x := d.snsIn i
  let here : Int := 5 * now
  let first : Int := here - 2 * ts
  match x.off with
  | none => (here, d.setSns i { x with off := some first })
  | some o =>
    if 2 * (ts : Int) + o > here then (here, (d.setSns i { x with off := some first }).snsCount 6 i) else (2 * ts + o, d)

/-- Stages 1 to 4 of an event word and what follows (R328 to R330). -/
def Dev.snsEvent (d : Dev) (i x y p : Nat) (ts : Option Nat) (now : Nat) : Dev :=
  let x0 := d.fld SNS_MAP_ORG i SNS_MAP_ORG_X0
  let y0 := d.fld SNS_MAP_ORG i SNS_MAP_ORG_Y0
  let xm := d.fld SNS_IN_CHK i SNS_IN_CHK_X_MAX
  let bw := d.fld SNS_MAP i SNS_MAP_BW
  let bx := (x - x0) / 2 ^ d.fld SNS_MAP i SNS_MAP_BIN_X
  let by' := (y - y0) / 2 ^ d.fld SNS_MAP i SNS_MAP_BIN_Y
  let cell := by' * bw + bx
  let key := (d.fld SNS_MAP i SNS_MAP_KEY_BASE + (if d.flag SNS_MAP i SNS_MAP_POL_EN then cell * 2 + p else cell)) % 2 ^ 32
  if x < x0 ∨ xm ≤ x ∨ y < y0 ∨ d.fld SNS_IN_CHK i SNS_IN_CHK_Y_MAX ≤ y ∨ bw ≤ bx then d.snsDrop .snsRange i 0
  else
    let px := (d.fld SNS_IN_CFG i SNS_IN_CFG_PIX_BASE * 1024 + y * xm + x) % 1048576
    if (d.fld SNS_HOT_APER (px / 32) SNS_HOT_APER_MASK).testBit (px % 32) then d.snsDrop .snsHotPix i key
    else match ts with
      | none => d.snsLate i px key now (5 * now)
      | some t =>
        let s := d.snsIn i
        if s.tmax.any (fun m => decide (t + d.fld SNS_IN_CHK i SNS_IN_CHK_TOL_US * 1000 < m)) then
          let d := d.snsDrop .snsTsBack i key
          if s.back + 1 = 256 then
            ((d.setSns i { s with tmax := some t, off := none, back := 0 }).snsCount 5 i).snsCause i SNS_IN_STATUS_TS_RESYNC
          else d.setSns i { s with back := s.back + 1 }
        else
          let (L, d) := (d.setSns i { s with tmax := some (max t (s.tmax.getD 0)), back := 0 }).snsLocal i t now
          let stale := d.fld SNS_IN_CHK i SNS_IN_CHK_STALE_US
          if stale ≠ 0 ∧ 5 * (now : Int) - L > stale * 2000 then d.snsDrop .snsStale i key else d.snsLate i px key now L

/-- A payload word is classed by its type field and its fields taken (R326, R327); `timed` is false for an AERI word (R324). -/
def Dev.snsWord (d : Dev) (i v now : Nat) (timed : Bool) : Dev :=
  let a := fun f => d.fld SNS_LAYOUT_A i f
  let b := fun f => d.fld SNS_LAYOUT_B i f
  let d := d.snsCount 0 i
  let type := bitField v (a SNS_LAYOUT_A_TYPE_POS) (min 8 (a SNS_LAYOUT_A_TYPE_W))
  let tsw := b SNS_LAYOUT_B_TS_W
  if a SNS_LAYOUT_A_TYPE_W = 0 ∨ type = a SNS_LAYOUT_A_EV_TYPE then
    let x := bitField v (a SNS_LAYOUT_A_X_POS) (a SNS_LAYOUT_A_X_W)
    let y := bitField v (a SNS_LAYOUT_A_Y_POS) (a SNS_LAYOUT_A_Y_W)
    let p := if a SNS_LAYOUT_A_P_EN = 0 then 0 else bitField v (a SNS_LAYOUT_A_P_POS) 1
    let unit := max 1 (b SNS_LAYOUT_B_TS_UNIT_NS)
    let ts := ((d.snsIn i).tbase % 2 ^ (48 - tsw) * 2 ^ tsw + bitField v (b SNS_LAYOUT_B_TS_POS) tsw) * unit
    d.snsEvent i x y p (if timed && tsw != 0 then some ts else none) now
  else if type = a SNS_LAYOUT_A_TB_TYPE then
    d.setSns i { d.snsIn i with tbase := bitField v (b SNS_LAYOUT_B_TB_POS) (b SNS_LAYOUT_B_TB_W) }
  else d.snsDrop .snsWordType i 0

/-- The words of a payload in order (R326); `nows` gives each word's time at stage 3. Bytes after the last whole word are
counted, each (R320). -/
def Dev.snsWords (d : Dev) (i size : Nat) (nows : List Nat) (bs : List Byte) : Dev :=
  let d := (List.range (bs.length / size)).foldl (fun d k =>
    d.snsWord i (at_ bs (k * size) size) (nows.getD k (nows.getLast?.getD 0)) true) d
  d.bump SNS_PC (4 * 32 + i) (bs.length % size)

/-! ## CSI-2 packets -/

/-- The receiver's CRC engine over bytes (R338). -/
def Dev.crcEngine (d : Dev) (n : Nat) (bs : List Byte) : Nat :=
  crc (d.fld CRC_CFG n CRC_CFG_WIDTH) (d.fld CRC_PARAM n CRC_PARAM_POLY) (d.fld CRC_PARAM n CRC_PARAM_INIT)
    (d.fld CRC_CFG n CRC_CFG_XOROUT) (d.flag CRC_CFG n CRC_CFG_REFIN) (d.flag CRC_CFG n CRC_CFG_REFOUT) bs

/-- A committed CRC configuration takes effect at a packet start (R339). -/
def Dev.crcStart (d : Dev) (n : Nat) : Dev :=
  match d.crcDue.lookup n with
  | some (cfg, param) =>
    ({ d with crcDue := d.crcDue.filter (fun (x : Nat × W64 × W64) => x.1 != n) }.wr CRC_CFG n cfg).wr CRC_PARAM n param
  | none => d

/-- A packet that has passed the CSI-2 checks: its trailer, then its words (R336, R337). -/
def Dev.csiTrailer (d : Dev) (n i size : Nat) (payload : List Byte) (nows : List Nat) : Dev :=
  let len := payload.length
  match (Tab.get (0, 0) d.csi n).2 with
  | 1 =>
    let body := payload.take (len - 8)
    let alive := at_ payload (len - 8) 1
    let last := d.fld SNS_IN_STATUS i SNS_IN_STATUS_LAST_ALIVE
    let seen := (d.snsIn i).alive
    if len < 8 ∨ crc32c (payload.take (len - 4)) ≠ at_ payload (len - 4) 4 then
      (d.snsDrop .snsTrailer i 0).snsCause i SNS_IN_STATUS_TRAILER
    else if seen ∧ alive = last then (d.snsDrop .snsAliveRep i 0).snsCause i SNS_IN_STATUS_ALIVE_REP
    else
      let d := if seen ∧ alive ≠ (last + 1) % 256 then d.snsCount 8 i else d
      let d := (d.setSns i { d.snsIn i with alive := true }).setF SNS_IN_STATUS i SNS_IN_STATUS_LAST_ALIVE alive
      d.snsWords i size nows body
  | 2 =>
    let body := payload.take (len - 4)
    if len < 4 ∨ d.crcEngine n body ≠ at_ payload (len - 4) 4 then
      (d.snsDrop .snsTrailer i 0).snsCause i SNS_IN_STATUS_TRAILER
    else d.snsWords i size nows body
  | _ => d.snsWords i size nows payload

/-- Check bits that each of the 26 header bits enters: the words of three ones, then those of five, of a six-bit single-error
code (R319). PRESUMED, log entry 36. -/
def csiColumns : List Nat :=
  [0x07, 0x0B, 0x0D, 0x0E, 0x13, 0x15, 0x16, 0x19, 0x1A, 0x1C, 0x23, 0x25, 0x26, 0x29, 0x2A, 0x2C, 0x31, 0x32, 0x34, 0x38,
   0x1F, 0x2F, 0x37, 0x3B, 0x3D, 0x3E]

/-- Check bits of 26 header bits (R319). PRESUMED, log entry 36. -/
def csiEcc (v : Nat) : Nat := (csiColumns.zipIdx.filter (fun (c : Nat × Nat) => v.testBit c.2)).foldl (fun a c => a ^^^ c.1) 0

/-- A packet header after its error correction, with whether a bit was corrected: data identifier, word count and the extension
bits, 26 bits in all; nothing where the error cannot be corrected (R319, R320). PRESUMED, log entry 36. -/
def csiHeader (h : W32) : Option (Nat × Bool) :=
  let v := h.toNat % 2 ^ 24 + h.toNat / 2 ^ 30 * 2 ^ 24
  let syn := csiEcc v ^^^ h.toNat / 2 ^ 24 % 64
  if syn = 0 then some (v, false)
  else match csiColumns.findIdx? (· == syn) with
    | some k => some (v ^^^ 2 ^ k, true)
    | none => if (List.range 6).any (fun k => syn == 2 ^ k) then some (v, true) else none

/-- CSI_PACKET_RECEIVE: a packet at a receiver (R319, R320): its four header bytes, and the bytes after them, payload and the two
bytes of its CRC-16. `nows` gives each word's time at stage 3. PRESUMED, log entry 36. -/
def execCsiPacketReceive (n : Fin 4) (hdr : W32) (bytes : List Byte) (nows : List Nat) (s : State) : Host.Outcome State Fault Refusal :=
  run (fun d =>
    if !(d.flag SNS_CSI_CTRL n SNS_CSI_CTRL_EN) then d
    else
      let d := d.crcStart n
      match csiHeader hdr with
      | none => d.snsDrop .snsHdrEcc (4 * n.val) 0
      | some (v, fixed) =>
        let dt := v % 64
        let count := v / 256 % 65536
        let vcx := decide (v / 2 ^ 24 ≠ 0)
        let i := 4 * n.val + (if vcx then 0 else v / 64 % 4)
        let payload := bytes.take count
        let d := if fixed then d.snsCount 9 i else d
        if dt < 16 then d.snsCount 3 i
        else
          let d := d.snsCount 2 i
          let on := decide (0x30 ≤ dt) && decide (dt ≤ 0x37) && (d.fld SNS_IN_CFG i SNS_IN_CFG_DT_MASK).testBit (dt - 0x30)
          if vcx ∨ !(d.flag SNS_IN_CFG i SNS_IN_CFG_EN) ∨ !on then d.snsDrop .snsDtype i 0
          else if count > 8192 then d.snsDrop .snsPktLen i 0
          else if bytes.length < count + 2 ∨ crc 16 0x1021 0xFFFF 0 true true payload ≠ at_ bytes count 2 then d.snsDrop .snsPktCrc i 0
          else d.csiTrailer n i (2 * 2 ^ min 2 (d.fld SNS_LAYOUT_A i SNS_LAYOUT_A_WSIZE)) payload nows) s

/-! ## Address-event ports -/

/-- The word of an AERI input is taken and ACK rises, if its buffer has room (R322 to R324). -/
def Dev.aeriTake (d : Dev) (i now : Nat) : Dev :=
  let x := Tab.get ({} : Aeri) d.aeri i
  match x.held with
  | some a =>
    if d.snsFull (16 + i) ∨ !(d.flag SNS_IN_CFG (16 + i) SNS_IN_CFG_EN) then d
    else ({ d with aeri := Tab.set {} d.aeri i { x with ack := true, held := none } }).snsWord (16 + i) a now false
  | none => d

/-- AERI_REQ_RISE: REQ rises with an address; ACK rises while the buffer has room (R322). DEDUCED, log entry 22. -/
def execAeriReqRise (i : Fin 2) (a : BitVec 24) (now : Nat) (s : State) : Host.Outcome State Fault Refusal :=
  run (fun d =>
    let x := Tab.get ({} : Aeri) d.aeri i
    if x.req ∨ x.ack then d
    else ({ d with aeri := Tab.set {} d.aeri i { x with req := true, held := some a.toNat } }).aeriTake i now) s

/-- AERI_ACK_RAISE: room in the buffer lets the held ACK rise (R323). -/
def execAeriAckRaise (i : Fin 2) (now : Nat) (s : State) : Host.Outcome State Fault Refusal :=
  run (fun d => d.aeriTake i now) s

/-- AERI_REQ_FALL: REQ falls and ACK is lowered (R322). -/
def execAeriReqFall (i : Fin 2) (s : State) : Host.Outcome State Fault Refusal :=
  run (fun d => { d with aeri := Tab.set {} d.aeri i {} }) s

/-- AERI_HS_TIMEOUT: REQ stays high for HS_TO after ACK rose: ACK stays high and HS_ERR is set (R323). -/
def execAeriHsTimeout (i : Fin 2) (s : State) : Host.Outcome State Fault Refusal :=
  run (fun d =>
    let x := Tab.get ({} : Aeri) d.aeri i
    if x.req ∧ x.ack then d.snsCause (16 + i) SNS_IN_STATUS_HS_ERR else d) s

/-- AERO_SEND: with REQ and ACK low, AERO drives A = (KEY − MATCH)[23:0] for its oldest word and raises REQ; ACK seen low ends
AERO_STUCK (R325). -/
def execAeroSend (ackLow : Bool) (s : State) : Host.Outcome State Fault Refusal :=
  run (fun d =>
    let p := d.aeroPin
    match d.aero with
    | w :: q =>
      if ackLow ∧ !p.req then
        let a := (w.1 + 2 ^ 32 - d.fld SNS_AERO_KEY 0 SNS_AERO_KEY_MATCH) % 2 ^ 24
        { d with aero := q, aeroPin := ⟨a, true, some w, false⟩ }
      else d
    | [] => if ackLow then { d with aeroPin := { p with stuck := false } } else d) s

/-- AERO_ACK_RISE: ACK rises; AERO lowers REQ and the word is sent (R325). DEDUCED, log entry 22. -/
def execAeroAckRise (s : State) : Host.Outcome State Fault Refusal :=
  run (fun d =>
    let p := d.aeroPin
    if p.req then ({ d with aeroPin := { p with req := false, word := none } }).snsCount 0 18 else d) s

/-- AERO_HS_TIMEOUT: ACK has not risen HS_TO after REQ: the word is dropped at DP-SNS-AEROHS and REQ falls (R325). -/
def execAeroHsTimeout (s : State) : Host.Outcome State Fault Refusal :=
  run (fun d =>
    let p := d.aeroPin
    match p.word with
    | some (key, c, cls) =>
      if p.req then
        (({ d with aeroPin := { p with req := false, word := none } }).drop .snsAeroHs 18 c cls key 1).snsRaise 18
      else d
    | none => d) s

/-- AERO_STUCK: ACK stays high HS_TO after REQ fell (R325). -/
def execAeroStuck (s : State) : Host.Outcome State Fault Refusal :=
  run (fun d => if d.aeroPin.req then d else ({ d with aeroPin := { d.aeroPin with stuck := true } }).snsRaise 19) s

/-! ## Registers -/

/-- PIXEL_SCAN: VALID clears wherever an entry's age is 16,384 µs or more at edge `now` (R331). -/
def execPixelScan (now : Nat) (s : State) : Host.Outcome State Fault Refusal :=
  run (fun d =>
    let us := now / 400
    (d.regs.filter (fun (p : Nat × W64) => decide (p.1 / 2 ^ 20 = SNS_PIXEL_APER.id))).foldl (fun d p =>
      let e := d.fld SNS_PIXEL_APER (p.1 % 2 ^ 20) SNS_PIXEL_APER_ENTRY
      if e.testBit 15 ∧ (us + 32768 - e % 32768) % 32768 ≥ 16384 then
        d.setF SNS_PIXEL_APER (p.1 % 2 ^ 20) SNS_PIXEL_APER_ENTRY (e % 32768)
      else d) d) s

/-- EN of an input from 0 to 1 restarts its anchor, t_max, ALIVE and token bucket (R329, R332, R336). -/
def Dev.snsCfg (d : Dev) (i : Nat) (half : Half) (v : W64) : Dev :=
  let was := d.flag SNS_IN_CFG i SNS_IN_CFG_EN
  let d := d.store SNS_IN_CFG i half v
  if !was && d.flag SNS_IN_CFG i SNS_IN_CFG_EN then
    d.setSns i { d.snsIn i with off := none, tmax := none, back := 0, alive := false, bucket := none }
  else d

/-- SNS_IN_CFG_WRITE (R329). -/
def execSnsInCfgWrite (i : Fin 18) (half : Half) (v : W64) (s : State) : Host.Outcome State Fault Refusal :=
  run (fun d => d.snsCfg i half v) s

/-- A write of SNS_CSI_CTRL_n: LANES and TRAILER take effect when EN goes from 0 to 1 (R321, R337). -/
def Dev.csiCtrl (d : Dev) (n : Nat) (v : W64) : Dev :=
  let was := d.flag SNS_CSI_CTRL n SNS_CSI_CTRL_EN
  let d := d.store SNS_CSI_CTRL n .whole v
  if !was && d.flag SNS_CSI_CTRL n SNS_CSI_CTRL_EN then
    { d with csi := Tab.set (0, 0) d.csi n (min 2 (d.fld SNS_CSI_CTRL n SNS_CSI_CTRL_LANES), d.fld SNS_CSI_CTRL n SNS_CSI_CTRL_TRAILER % 3) }
  else d

/-- SNS_CSI_CTRL_WRITE (R321). -/
def execSnsCsiCtrlWrite (n : Fin 4) (v : W32) (s : State) : Host.Outcome State Fault Refusal :=
  run (fun d => d.csiCtrl n (v.setWidth 64)) s

/-- CRC_PARAM_WRITE: held until the next write of CRC_CFG_n (R339). -/
def execCrcParamWrite (n : Fin 4) (half : Half) (v : W64) (s : State) : Host.Outcome State Fault Refusal :=
  run (fun d =>
    let now := (d.crcHeld.lookup n.val).getD (d.rd CRC_PARAM n)
    { d with crcHeld := (d.crcHeld.filter (fun (x : Nat × W64) => x.1 != n.val)) ++ [(n.val, CRC_PARAM.written now v (halfCover half))] }) s

/-- CRC_CFG_WRITE: a write that covers the high half arms CRC_CFG_n with the held CRC_PARAM_n for the next packet start; a WIDTH
outside 8 to 32 is ignored together with the held parameters (R18, R339). -/
def execCrcCfgWrite (n : Fin 4) (half : Half) (v : W64) (s : State) : Host.Outcome State Fault Refusal :=
  run (fun d =>
    let cfg := CRC_CFG.written ((d.crcLow.lookup n.val).getD (d.rd CRC_CFG n)) v (halfCover half)
    let w := CRC_CFG_WIDTH.get cfg
    let param := (d.crcHeld.lookup n.val).getD (d.rd CRC_PARAM n)
    let others := d.crcLow.filter (fun (x : Nat × W64) => x.1 != n.val)
    let done := { d with crcLow := others, crcHeld := d.crcHeld.filter (fun (x : Nat × W64) => x.1 != n.val) }
    if !(halfCommits half) then { d with crcLow := others ++ [(n.val, cfg)] }
    else if w < 8 ∨ 32 < w then done.setF CRC_STATUS n CRC_STATUS_CFG_ERR 1
    else { done with crcDue := (d.crcDue.filter (fun (x : Nat × W64 × W64) => x.1 != n.val)) ++ [(n.val, cfg, param)] }) s

end Sys2Proof.Machine
end

