-- ==== Sys2Proof/Machine/Rings.lean ====
section
/-! DEFINITION. Event rings: injection rings (R348, R349, R354, R355) and the doorbells and controls of output rings (R358,
R362). -/

namespace Sys2Proof.Machine

/-- Entries of a ring of a SIZE field, as a bound of its pointers. DEDUCED, log entry 23. -/
def ringEntries (size : Nat) : Nat := 2 ^ ringBits size

/-- A word that the host injects for a context: dropped for its KIND or while the context does not run, else handed to the rim
switch (R354). The first result says whether it was handed over. -/
def Dev.injectWord (d : Dev) (c : Nat) (w : W64) : Bool × Dev :=
  if evKind w = 0 ∨ evKind w > 3 then (false, d.drop .hstBadKind 0 c 1 (evKey w) 1)
  else if !(d.gen c).running then (false, d.drop .hstCtxStop 0 c 1 (evKey w) 1)
  else (true, { d with swIn := Tab.upd [] d.swIn 7 (· ++ [⟨w, c, 1, none, 0, none⟩]) })

/-- A doorbell write of an injection ring (R355). -/
def Dev.injTail (d : Dev) (c tail : Nat) : Dev :=
  if ringEntries (d.fld HST_INJ_CTRL c HST_INJ_CTRL_SIZE) ≤ tail then d.setF HST_INJ_CTRL c HST_INJ_CTRL_ERR 1
  else d.setF HST_INJ_PTR c HST_INJ_PTR_TAIL tail

/-- INJ_TAIL_WRITE: a write of HST_INJ_PTR (R355). -/
def execInjTailWrite (c : Ctx) (v : W32) (s : State) : Host.Outcome State Fault Refusal :=
  run (fun d => d.injTail c (HST_INJ_PTR_TAIL.get (v.setWidth 64))) s

/-- A write of HST_INJ_CTRL: EN from 0 to 1 sets HEAD and TAIL to 0 (R362). -/
def Dev.injCtrl (d : Dev) (c : Nat) (v : W64) : Dev :=
  let was := d.flag HST_INJ_CTRL c HST_INJ_CTRL_EN
  let d := d.store HST_INJ_CTRL c .whole v
  if !was && d.flag HST_INJ_CTRL c HST_INJ_CTRL_EN then
    { d.wr HST_INJ_PTR c 0 with injStopped := d.injStopped.filter (· != c), injOut := Tab.set 0 d.injOut c 0 }
  else d

/-- INJ_CTRL_WRITE (R362). -/
def execInjCtrlWrite (c : Ctx) (v : W32) (s : State) : Host.Outcome State Fault Refusal :=
  run (fun d => d.injCtrl c (v.setWidth 64)) s

/-- INJ_FETCH: a read of up to 512 entries below TAIL, for an enabled ring that may issue DMA (R348, R355). -/
def execInjFetch (c : Ctx) (s : State) : Host.Outcome State Fault Refusal :=
  run (fun d =>
    let size := d.fld HST_INJ_CTRL c HST_INJ_CTRL_SIZE
    let n := ringEntries size
    let h := d.fld HST_INJ_PTR c HST_INJ_PTR_HEAD
    let t := d.fld HST_INJ_PTR c HST_INJ_PTR_TAIL
    let k := min 512 (if h ≤ t then t - h else n - h)
    if d.flag HST_INJ_CTRL c HST_INJ_CTRL_EN ∧ size ≠ 0 ∧ !(d.injStopped.contains c.val) ∧ d.dmaOk (d.fnOf c)
      ∧ Tab.get 0 d.injOut c = 0 ∧ 0 < k then { d with injOut := Tab.set 0 d.injOut c k }
    else d) s

/-- INJ_FETCH_COMPLETE: the entries are handed over or dropped and HEAD passes them; a failed read stops the ring with ERR and an
AER entry (R349, R354, R355). -/
def execInjFetchComplete (c : Ctx) (data : Option (List Byte)) (s : State) : Host.Outcome State Fault Refusal :=
  run (fun d =>
    let k := Tab.get 0 d.injOut c
    let d := { d with injOut := Tab.set 0 d.injOut c 0 }
    if k = 0 then d
    else match data with
      | none => (({ d with injStopped := d.injStopped ++ [c.val] }).setF HST_INJ_CTRL c HST_INJ_CTRL_ERR 1).emitOut (.aer (d.fnOf c) false)
      | some bs =>
        let d := (List.range k).foldl (fun d j => (d.injectWord c (BitVec.ofNat 64 (at_ bs (8 * j) 8))).2) d
        let n := ringEntries (d.fld HST_INJ_CTRL c HST_INJ_CTRL_SIZE)
        d.setF HST_INJ_PTR c HST_INJ_PTR_HEAD ((d.fld HST_INJ_PTR c HST_INJ_PTR_HEAD + k) % n)) s

/-- A doorbell write of an output ring (R358). -/
def Dev.outHead (d : Dev) (i head : Nat) : Dev :=
  if ringEntries (d.fld HST_OUT_CTRL i HST_OUT_CTRL_SIZE) ≤ head then d.setF HST_OUT_CTRL i HST_OUT_CTRL_ERR 1
  else d.setF HST_OUT_PTR i HST_OUT_PTR_HEAD head

/-- OUT_HEAD_WRITE (R358). -/
def execOutHeadWrite (c : Ctx) (j : Fin 4) (v : W32) (s : State) : Host.Outcome State Fault Refusal :=
  run (fun d => d.outHead (c * 4 + j) (HST_OUT_PTR_HEAD.get (v.setWidth 64))) s

/-- A write of HST_OUT_CTRL_j: EN from 0 to 1 sets HEAD and TAIL to 0 and PHASE to 1 (R358, R362). -/
def Dev.outCtrl (d : Dev) (i : Nat) (half : Half) (v : W64) : Dev :=
  let was := d.flag HST_OUT_CTRL i HST_OUT_CTRL_EN
  let d := d.store HST_OUT_CTRL i half v
  if !was && d.flag HST_OUT_CTRL i HST_OUT_CTRL_EN then
    { d.wr HST_OUT_PTR i 0 with outRings := Tab.set {} d.outRings i {} }
  else d

/-- OUT_CTRL_WRITE (R362). -/
def execOutCtrlWrite (c : Ctx) (j : Fin 4) (half : Half) (v : W64) (s : State) : Host.Outcome State Fault Refusal :=
  run (fun d => d.outCtrl (c * 4 + j) half v) s

end Sys2Proof.Machine
end

