-- ==== Sys2Proof/Machine/Load.lean ====
section
/-! DEFINITION. What Usher reckons with: a context's description in place (R200, R204), the modelled load of an engine (R233), a
row's heat and sampled fetch rate (R219, R223), and the load that Headcount's dumps show (R223). -/

namespace Sys2Proof.Machine

/-! ## Descriptions in place -/

/-- Records of a context's accepted description. -/
def Dev.recs (d : Dev) (c : Nat) : List Rec := recsOf (Tab.get [] d.descs c)

/-- HINT records of a KIND. -/
def hintsOf (rs : List Rec) (kind : Nat) : List Rec := rs.filter (fun r => r.type == 9 && r.f 0 1 == kind)

/-- The chip of a population: its CHIP hint's, else this one (R204, R231). -/
def Dev.chipOf (d : Dev) (rs : List Rec) (pop : Nat) : Nat :=
  (((hintsOf rs 3).find? (fun h => h.f 2 2 == pop)).map (fun h => h.f 8 4 % 2 ^ 15)).getD d.chipId

/-- Populations that lie on this chip: those without a CHIP hint naming another (R204, R231). -/
def Dev.localPops (d : Dev) (rs : List Rec) : List Rec := rs.filter (fun r => r.type == 1 && d.chipOf rs r.id == d.chipId)

/-- Populations of other chips, which the description names for projections between chips (R231). -/
def Dev.remotePops (d : Dev) (rs : List Rec) : List Rec := rs.filter (fun r => r.type == 1 && d.chipOf rs r.id != d.chipId)

/-- The pin of a population: PIN_HINT's, else its PIN hints (R204, R218). -/
def Dev.pinOf (d : Dev) (c : Nat) (rs : List Rec) (pop : Nat) : Nat :=
  match (Tab.get [] d.pins c).lookup pop with
  | some m => if m = 0 then 2 ^ 32 - 1 else m
  | none => ((hintsOf rs 1).filter (fun h => h.f 2 2 == pop)).foldl (fun a h => a &&& h.f 8 4) (2 ^ 32 - 1)

/-- Neuron positions that a block takes up, rounded to whole lines. -/
def blockSpan (b : Block) : Nat := cdiv b.size 32 * 32

/-- Ring depth of a POP record (R135). -/
def popDepth (r : Rec) : Nat := 2 ^ (r.f 9 1 + 1)

/-- Words of the running order that a POP record runs: its user or library routine, each patch's constant in CONST, bits [47:24], of
its word (R65, R200). -/
def routineOf (rs : List Rec) (r : Rec) : List Nat :=
  let k := r.f 8 1
  let ws := if 0x40 ≤ k then ((recFind rs 4 (k - 0x40)).map routineWords).getD []
    else (List.range (libraryLength k)).map (fun w => libraryRo (k * 64 + w))
  (List.range (r.f 18 2)).foldl (fun ws j =>
    let i := r.f (20 + 8 * j) 1
    let w := ws.getD i 0
    ws.set i (w - bits w 47 24 * 2 ^ 24 + r.f (24 + 8 * j) 4 % 2 ^ 24 * 2 ^ 24)) ws

/-- The population that owns a key. -/
def popOfKey (rs : List Rec) (key : Nat) : Option Rec :=
  rs.find? (fun r => r.type == 1 && decide ((keysOf r).1 ≤ key) && decide (key < (keysOf r).1 + (keysOf r).2))

/-- Keys of express flows (R203). -/
def flowKeys (rs : List Rec) : List (Nat × Nat) :=
  (rs.filter (fun r => r.type == 8)).filterMap (fun r => (recFind rs 1 (r.f 0 2)).map keysOf)

/-- Valid source-index entries of a context in an engine. -/
def Dev.sidxOf (d : Dev) (t e c : Nat) : List Nat :=
  (d.validEntries t e).filter (fun i => rdCtx (d.sidx t e i) == c)

/-! ## The cost model (R233) -/

/-- Core cycles of a tick of `tb` timebase cycles in a half: its clock is (4 − step) × 312.5 MHz (R497). -/
def Dev.tickCycles (d : Dev) (h tb : Nat) : Nat := tb * 25 * (4 - d.halfStep h) / 32

/-- Core cycles that a row takes (R122). -/
def rowCost (x : BitVec 128) : Nat :=
  max 1 (((List.range (rowWords (rdFmt x) (rdLen x))).map (wordCycles (rdFmt x) (rdLen x))).foldl (· + ·) 0)

/-- S_e of one row, in units of 2^-16 core cycles: a row serves one source neuron, of whose population ACT emits per tick. DEDUCED, log entry 37. -/
def rowLoad (rs : List Rec) (x : BitVec 128) : Nat := ((popOfKey rs (rdKey x)).map (fun r => r.f 16 2)).getD 0 * rowCost x

/-- S_e of a context: its rows in an engine that `sel` takes. -/
def Dev.synLoad (d : Dev) (rs : List Rec) (t e c : Nat) (sel : BitVec 128 → Bool) : Nat :=
  (((d.sidxOf t e c).map (d.sidx t e)).filter sel).foldl (fun a x => a + rowLoad rs x) 0

/-- The term of a block in N_e, in units of 2^-16 core cycles: T_phase's with the lines expected to be touched, `t` / 2^16 being the
expected share of the population's neurons touched per tick. No long path and no stall is reckoned, as in the manual's example.
DEDUCED, log entry 37. -/
def blockPhase (rs : List Rec) (touched : List (Nat × Nat)) (b : Block) : Nat :=
  match recFind rs 1 b.pop with
  | none => 0
  | some r =>
    let t := min (2 ^ 16) ((touched.lookup b.pop).getD 0)
    let run := cdiv b.size 32 * (routineOf rs r).length * (2 ^ 512 - (2 ^ 16 - t) ^ 32) / 2 ^ 496
    2 * 2 ^ 16 + max (cdiv b.size 128 * 2 ^ 16) run

/-- What the populations of one context cost an engine in a tick, in thousandths of a per cent of the tick of its description:
`sel` picks the blocks reckoned, with the rows into them. -/
def Dev.ctxLoad (d : Dev) (c t e : Nat) (sel : Block → Bool) : Nat :=
  let rs := d.recs c
  let bs := (Tab.get [] d.blocks c).filter (fun b => b.tile == t && b.eng == e && sel b)
  if bs.isEmpty then 0
  else
    let n := bs.foldl (fun a b => a + blockPhase rs (Tab.get [] d.touched c) b) (2 * 2 ^ 16)
    let s := d.synLoad rs t e c (fun x => bs.any (fun b => b.desc == d.proj t e (rdProj x) NE_PROJ_TPOP))
    let cyc := d.tickCycles (halfOf t) (at_ (Tab.get [] d.descs c) 12 4)
    if cyc = 0 then 100000 else (s + n) * 100000 / 2 ^ 16 / cyc

/-- Load_e of every context's blocks in an engine (R233). -/
def Dev.engineLoad (d : Dev) (t e : Nat) : Nat := (List.range 8).foldl (fun a c => a + d.ctxLoad c t e (fun _ => true)) 0

/-- LOAD_TARGET in effect: below 10 it is taken as 10, above 95 as 95 (R234). -/
def Dev.loadTarget (d : Dev) (c : Nat) : Nat := min 95 (max 10 (d.fld USH_CTRL c USH_CTRL_LOAD_TARGET))

/-! ## Heat (R219) -/

/-- Expected events per tick of the source block of a key, in units of 2^-16: SIZE × ACT; of a population on another chip, the whole
population's. -/
def Dev.blockEvents (d : Dev) (c : Nat) (rs : List Rec) (key : Nat) : Nat :=
  match popOfKey rs key with
  | none => 0
  | some r =>
    let i := (key - r.f 0 4) / (if (r.f 10 1).testBit 1 then 2 else 1)
    let size := (((Tab.get [] d.blocks c).find? (fun b => b.pop == r.id && decide (b.first ≤ i) && decide (i < b.first + b.size))).map (·.size)).getD (r.f 4 4)
    size * r.f 16 2

/-- Words of a row, at least one. -/
def rdWords (x : BitVec 128) : Nat := max 1 (rowWords (rdFmt x) (rdLen x))

/-- Whether row `x` is hotter than `k` times row `y`: heat is the source block's expected events per tick ÷ the row's words. -/
def Dev.hotter (d : Dev) (c k : Nat) (x y : BitVec 128) : Bool :=
  let rs := d.recs c
  decide (k * d.blockEvents c rs (rdKey y) * rdWords x < d.blockEvents c rs (rdKey x) * rdWords y)

/-! ## Measured load (R223) -/

/-- How far a counter rose between dumps `k` + 1 and `k`, the latest being 0. -/
def Dev.dumpRise (d : Dev) (k : Nat) (r : Reg) (i : Nat) : Nat :=
  let v := fun j => Tab.get 0 (d.dumps.getD j []) (r.key i)
  (v k + 2 ^ 64 - v (k + 1)) % 2 ^ 64

/-- Whether an engine's measured load between two dumps exceeds `pct` per cent: the larger of the share of core cycles in update
phases and the share of synapse lane-slots not front-starved. -/
def Dev.loadOver (d : Dev) (k t e pct : Nat) : Bool :=
  let np := fun n => d.dumpRise k NE_NPCNT (engIx t e * 12 + n)
  let sp := fun n => d.dumpRise k NE_SPCNT (engIx t e * 20 + n)
  let phase := (np 0 + np 1 + np 2 + np 3) / 32
  let busy := sp 0 + sp 1 + sp 3
  decide (pct * (phase + np 4) < 100 * phase) || decide (pct * (busy + sp 2) < 100 * busy)

/-- A figure of an engine's measured load between the last two dumps, in per cent. -/
def Dev.loadSeen (d : Dev) (t e : Nat) : Nat := ((List.range 100).filter (fun p => d.loadOver 0 t e p)).length

/-- Whether a context's retimed, late or fallen-back ticks rose between two dumps: retimed and late additions stand for such ticks.
DEDUCED, log entry 37. -/
def Dev.lateRose (d : Dev) (k c : Nat) : Bool :=
  decide (0 < d.dumpRise k CLP_CNT (c * 10 + 4))
  || (List.range 288).any (fun e => [0, 1].any (fun p => [0, 1].any (fun s => decide (0 < d.dumpRise k NE_LATE ((e * 8 + p) * 16 + c * 2 + s)))))

/-- Whether Usher has a reason of R223 to move a block of context `c` out of an engine: a load 10 points above the target in two
dumps, or late ticks in both and no other engine of the context more loaded. Three dumps make two intervals. DEDUCED, log entry 37. -/
def Dev.overloaded (d : Dev) (c t e : Nat) : Bool :=
  decide (3 ≤ d.dumps.length)
  && ((d.loadOver 0 t e (d.loadTarget c + 10) && d.loadOver 1 t e (d.loadTarget c + 10))
    || (d.lateRose 0 c && d.lateRose 1 c && (Tab.get [] d.blocks c).all (fun b => decide (d.loadSeen b.tile b.eng ≤ d.loadSeen t e))))

/-- Key of a descriptor of an engine among the sampled spill fetches. -/
def sampleKey (t e i : Nat) : Nat := engIx t e * 8192 + i

/-- Whether a spilled row's sampled fetch rate exceeds 1,000 fetches/s over the period: each sample stands for 64 fetches
(R223). -/
def Dev.fetchedOften (d : Dev) (t e i : Nat) : Bool :=
  decide (min 10000 (d.fld USH_PERIOD 0 USH_PERIOD_MS) < Tab.get 0 d.samples (sampleKey t e i) * 64)

end Sys2Proof.Machine
end

