-- ==== Sys2Proof/Machine/Plan.lean ====
section
/-! DEFINITION. What a placement must obey and what it writes: the limits of R212 that a plan of Usher's search is held to (R94, R133,
R208 to R211, R219, R220), what makes it Usher's (R208, R209, R219), the tables and memories it fills (R200, R211, R340, R360), and
the class-0 slot schedule (R213 to R216). -/

namespace Sys2Proof.Machine

/-! ## Reasons (R212) -/

/-- A reason that names a record and an engine. -/
def unitReason (code : Nat) (rs : List Rec) (pop t e : Nat) : Reason :=
  { code := code, record := ((recFind rs 1 pop).map (·.ix)).getD 0xFFFF, tile := t % 32, eng := e % 16 }

/-- The reason `r` unless `ok`. -/
def need (ok : Bool) (r : Reason) : Option Reason := if ok then none else some r

/-- The first reason of a list. -/
def firstReason (l : List (Option Reason)) : Option Reason := l.findSome? id

/-! ## Limits that a plan's operands alone decide -/

/-- Blocks of one population in order: a multiple of 128 each, 1 to 8,192 neurons, no gap (R208). -/
def blocksCover (size : Nat) : Nat → List Block → Bool
  | n, [] => n == size
  | n, b :: r => b.first == n && b.first % 128 == 0 && decide (1 ≤ b.size) && decide (b.size ≤ 8192) && blocksCover size (n + b.size) r

/-- Whether two ranges are apart. -/
def apart (a n b m : Nat) : Bool := decide (a + n ≤ b) || decide (b + m ≤ a)

/-- Whether a tile is licensed (R3). -/
def Dev.licensed (d : Dev) (t : Nat) : Bool := decide (t < d.fld SEC_LIC 0 SEC_LIC_TILES) && decide (t < 32)

/-- Available engines of a tile. -/
def Dev.spares (d : Dev) (t : Nat) : List Nat := (List.range 9).filter (fun e => (d.unit 1 (engIx t e)).1 == 4)

/-- Whether PLACE may use an engine: licensed and In service, or Available beside another that stays the tile's spare; a reinstated
tile is Available until it is given blocks (R209, R230, R423). -/
def Dev.placeable (d : Dev) (t e : Nat) : Bool :=
  d.licensed t && ((d.unit 2 t).1 == 0 || (d.unit 2 t).1 == 4)
  && ((d.unit 1 (engIx t e)).1 == 0 || ((d.unit 1 (engIx t e)).1 == 4 && (d.spares t).any (fun x => decide (e < x))))

/-- Descriptors in use in an engine that a plan for context `c` does not replace; `mine` when it replaces the context's own. -/
def Dev.othersIn (d : Dev) (t e c : Nat) (mine : Bool) : List Nat :=
  (List.range 64).filter (fun n => let p := d.popCommitted t e n; p.valid && !(mine && p.ctx == c))

/-- The limit of its engine that a block passes: neurons, descriptors and contexts, slots, routines and decay tables, each apart
from those of other descriptors in use there (R55, R92, R94, R200, R209). -/
def Dev.blockFault (d : Dev) (rs : List Rec) (c : Nat) (mine : Bool) (b : Block) : Option Reason :=
  let no := fun code => unitReason code rs b.pop b.tile b.eng
  match recFind rs 1 b.pop with
  | none => some (no 1)
  | some r =>
    let slots := (blockSpan b) * popDepth r
    let others := (d.othersIn b.tile b.eng c mine).map (fun n => (n, d.popCommitted b.tile b.eng n))
    firstReason [
      need (decide (b.tile < 32) && decide (b.eng < 9) && decide (1 ≤ b.size) && b.base % 32 == 0 && decide (b.base + b.size ≤ 8192)
        && others.all (fun p => apart b.base (blockSpan b) p.2.base (cdiv p.2.size 32 * 32))) (no 1),
      need (b.slotBase % 32 == 0 && decide (b.slotBase + slots ≤ 262144)
        && others.all (fun p => apart b.slotBase slots (p.2.l NE_POP_LO_SLOT_BASE) (cdiv p.2.size 32 * 32 * p.2.depth))) (no 2),
      need (decide (b.desc < 64) && others.all (fun p => p.1 != b.desc)
        && decide (((c :: others.map (fun p => p.2.ctx)).eraseDups).length ≤ 4)) (no 0xA),
      need (decide (b.dtab.length = 4) && b.dtab.all (fun k => decide (k < 16))
        && (if r.f 8 1 < 0x40 ∧ r.f 18 2 = 0 then b.routine == r.f 8 1 else decide (8 ≤ b.routine) && decide (b.routine < 64))
        && others.all (fun p => p.2.l NE_POP_LO_ROUTINE != b.routine || decide (b.routine < 8))) (no 0xB)]

/-- Whether a block fits its engine. -/
def Dev.blockFits (d : Dev) (rs : List Rec) (c : Nat) (mine : Bool) (b : Block) : Bool := (d.blockFault rs c mine b).isNone

/-- The limit of an engine that two blocks of a plan pass together. -/
def pairFault (rs : List Rec) (b x : Block) : Option Reason :=
  let slots := fun (y : Block) => (blockSpan y) * ((recFind rs 1 y.pop).map popDepth).getD 1
  let words := fun (y : Block) => (recFind rs 1 y.pop).map (routineOf rs)
  let no := fun code => unitReason code rs x.pop x.tile x.eng
  if x.tile ≠ b.tile ∨ x.eng ≠ b.eng then none
  else firstReason [need (apart b.base (blockSpan b) x.base (blockSpan x)) (no 1), need (apart b.slotBase (slots b) x.slotBase (slots x)) (no 2),
    need (x.desc != b.desc) (no 0xA), need (x.routine != b.routine || decide (b.routine < 8) || words x == words b) (no 0xB)]

/-- The limits that blocks of a plan pass together in their engines. -/
def blocksFault (rs : List Rec) : List Block → Option Reason
  | [] => none
  | b :: r => (firstReason (r.map (pairFault rs b))).or (blocksFault rs r)

/-- Blocks of a plan are apart from one another in their engines. -/
def blocksApart (rs : List Rec) (bs : List Block) : Bool := (blocksFault rs bs).isNone

/-- TOGETHER hints: the populations share an engine, a tile or a half (R204). -/
def togetherOk (rs : List Rec) (bs : List Block) : Bool :=
  (hintsOf rs 2).all (fun h =>
    let place := fun (b : Block) => match h.f 1 1 with | 0 => engIx b.tile b.eng | 1 => b.tile | _ => halfOf b.tile
    let ps := (bs.filter (fun b => b.pop == h.f 2 2 || b.pop == h.f 4 2)).map place
    decide (ps.eraseDups.length ≤ 1))

/-- The bounds entry that a plan gives the context in an engine (R435). -/
def planBound (p : Plan) (t e : Nat) : Option W64 := (p.bounds.find? (fun x => x.1 == t && x.2.1 == e)).map (fun x => x.2.2.2)

/-- Whether a byte range is one that a plan for context `c` may fill: synapse and scale memory within its bounds entry in an engine of
the plan, source-index entries no other context uses there, or the context's spill part (R210, R219, R435, R541). -/
def Dev.planMem (d : Dev) (c : Nat) (p : Plan) (a n : Nat) : Bool :=
  p.blocks.any (fun b =>
    let o := a - engBase b.tile b.eng
    let within := fun lo hi => decide (lo ≤ o) && decide (o + n ≤ hi)
    let free := fun i => let x := d.sidx b.tile b.eng i; rdBits x 95 95 != 1 || rdCtx x == c
    decide (engBase b.tile b.eng ≤ a)
    && ((within 0x280000 0x2A0000 && (List.range ((o % 16 + n + 15) / 16)).all (fun k => free ((o - 0x280000) / 16 + k)))
      || (planBound p b.tile b.eng).any (fun w =>
        within (NE_BOUNDS_SMEM_LO.get w * 64) (NE_BOUNDS_SMEM_HI.get w * 64 + 64)
        || within (0x2F0000 + NE_BOUNDS_SCALE_LO.get w * 2) (0x2F0000 + NE_BOUNDS_SCALE_HI.get w * 2 + 2))))
  || (decide ((d.spillPart c).1 ≤ a) && decide (a + n ≤ (d.spillPart c).1 + (d.spillPart c).2))

/-- Whether a plan's bounds entries are valid ones of the context, apart from those of other contexts in their engines (R435). -/
def Dev.boundsApart (d : Dev) (c : Nat) (p : Plan) : Bool :=
  p.bounds.all (fun x =>
    let w := x.2.2.2
    NE_BOUNDS_VALID.get w == 1 && NE_BOUNDS_CTX.get w == c
    && (List.range 4).all (fun k =>
      let y := d.rd NE_BOUNDS (engIx x.1 x.2.1 * 4 + k)
      NE_BOUNDS_VALID.get y == 0 || NE_BOUNDS_CTX.get y == c
      || (k != x.2.2.1 && apart (NE_BOUNDS_SMEM_LO.get w) (NE_BOUNDS_SMEM_HI.get w + 1 - NE_BOUNDS_SMEM_LO.get w)
            (NE_BOUNDS_SMEM_LO.get y) (NE_BOUNDS_SMEM_HI.get y + 1 - NE_BOUNDS_SMEM_LO.get y)
        && apart (NE_BOUNDS_SCALE_LO.get w) (NE_BOUNDS_SCALE_HI.get w + 1 - NE_BOUNDS_SCALE_LO.get w)
            (NE_BOUNDS_SCALE_LO.get y) (NE_BOUNDS_SCALE_HI.get y + 1 - NE_BOUNDS_SCALE_LO.get y))))
  && (p.bounds.map (fun x => (x.1, x.2.1))).eraseDups.length == p.bounds.length

/-- Fan-out entries of a plan lie in the context's ranges (R243). -/
def Dev.fanInRange (d : Dev) (c : Nat) (p : Plan) : Option Reason :=
  firstReason (p.fan.map (fun x => need (decide (x.1 < 32) && decide (d.fld MID_FT_REGION (x.1 * 8 + c) MID_FT_REGION_BASE ≤ x.2.1)
    && decide (x.2.1 < d.fld MID_FT_REGION (x.1 * 8 + c) MID_FT_REGION_BASE + d.fld MID_FT_REGION (x.1 * 8 + c) MID_FT_REGION_COUNT))
    { code := 4, tile := x.1 % 32 }))

/-- Rim entries of a plan lie in the context's range (R295). -/
def Dev.rimInRange (d : Dev) (c : Nat) (p : Plan) : Bool :=
  p.rim.all (fun x => decide (d.fld RIM_TAB_REGION c RIM_TAB_REGION_BASE ≤ x.1)
    && decide (x.1 < d.fld RIM_TAB_REGION c RIM_TAB_REGION_BASE + d.fld RIM_TAB_REGION c RIM_TAB_REGION_COUNT))

/-- Table entries of a plan lie in the context's ranges. -/
def Dev.planTables (d : Dev) (c : Nat) (p : Plan) : Bool := (d.fanInRange c p).isNone && d.rimInRange c p

/-- Whether an engine is one of a plan's blocks. -/
def planHas (p : Plan) (t e : Nat) : Bool := p.blocks.any (fun b => b.tile == t && b.eng == e)

/-- Engine parts of a plan name engines of its blocks. -/
def planEngines (p : Plan) : Bool :=
  p.projs.all (fun x => planHas p x.1 x.2.1 && decide (x.2.2.1 < 32)) && p.decays.all (fun x => planHas p x.1 x.2.1 && decide (x.2.2.1 < 16))
  && p.bounds.all (fun x => planHas p x.1 x.2.1 && decide (x.2.2.1 < 4)) && p.homes.all (fun x => planHas p x.1 x.2.1)
  && p.plastic.all (fun x => planHas p x.1 x.2.1 && decide (x.2.2.2.1 ≤ 7168))

/-- Every decay table that a block's DTAB bytes map is loaded with the DECAY record they name (R76, R200). -/
def decaysTied (rs : List Rec) (p : Plan) : Option Reason :=
  firstReason (p.blocks.map (fun b =>
    need ((List.range 4).all (fun j =>
        match recFind rs 1 b.pop with
        | none => false
        | some r => r.f (12 + j) 1 == 0xFF
          || (p.decays.filter (fun x => x.1 == b.tile && x.2.1 == b.eng && x.2.2.1 == b.dtab.getD j 0)).map (fun x => x.2.2.2) == [r.f (12 + j) 1]))
      (unitReason 0xB rs b.pop b.tile b.eng)))

/-- Fields of a projection's word that its PROJ record fixes for its block (R103, R201); every word of the plan is such a word. -/
def projTied (rs : List Rec) (p : Plan) : Bool :=
  p.projs.all (fun x =>
    let w := x.2.2.2.1
    let i := x.2.2.1
    match recFind rs 2 x.2.2.2.2, p.blocks.find? (fun b => b.tile == x.1 && b.eng == x.2.1 && b.desc == NE_PROJ_TPOP.get w) with
    | some r, some b =>
      let fl := r.f 6 1
      let bit := fun (k : Nat) => if fl.testBit k then 1 else 0
      let mask := ((p.plastic.find? (fun y => y.1 == x.1 && y.2.1 == x.2.1)).map (fun y => y.2.2.2.2)).getD 0
      b.pop == r.f 2 2 && NE_PROJ_VALID.get w == 1 && NE_PROJ_SROUND.get w == bit 0 && NE_PROJ_GATHER_EN.get w == bit 1
      && mask.testBit i == fl.testBit 2 && NE_PROJ_GWIDTH.get w == r.f 7 1 && NE_PROJ_TGRP_COUNT.get w == cdiv b.size (32 * 2 ^ r.f 7 1)
      && (r.f 5 1 != 3 || (NE_PROJ_KC.get w == r.f 32 1 && NE_PROJ_MAP_W.get w == r.f 38 2 && (r.f 23 1 != 1 || NE_PROJ_KDELAY.get w == r.f 24 1)))
    | _, _ => false)

/-- 64-byte units of an engine's image (R130). -/
def imageUnits : Nat := 35328

/-- Home images of a plan's engines: each lies in the home part of a context, apart from those of other engines in use, and above the
home copies where the context mirrors its spilled rows (R130, R541). -/
def Dev.homesOk (d : Dev) (c : Nat) (mirror : Bool) (p : Plan) : Bool :=
  let home := fun k => (d.fld MEM_CTX k MEM_CTX_BASE * 2 ^ 20, d.fld MEM_CTX k MEM_CTX_HOME * 2 ^ 20)
  let used := (List.range 288).filter (fun e => !(planHas p (e / 9) (e % 9)) && !((d.othersIn (e / 9) (e % 9) c true).isEmpty))
  p.blocks.all (fun b => (p.homes.filter (fun x => x.1 == b.tile && x.2.1 == b.eng)).length == 1)
  && p.homes.all (fun x =>
    (List.range 8).any (fun k =>
      (k == c || (d.othersIn x.1 x.2.1 c true).any (fun n => (d.popCommitted x.1 x.2.1 n).ctx == k))
      && decide ((home k).1 + (if mirror ∧ k = c then p.used else 0) ≤ x.2.2) && decide (x.2.2 + imageUnits ≤ (home k).1 + (home k).2))
    && used.all (fun e => apart x.2.2 imageUnits (d.fld NE_HOME_BASE e NE_HOME_BASE_IMAGE) imageUnits)
    && p.homes.all (fun y => x == y || apart x.2.2 imageUnits y.2.2 imageUnits))

/-- Whether a plan keeps the context's spilled rows in two copies: all of its bounds entries say so alike (R220). -/
def planMirrors (p : Plan) : Bool := p.bounds.any (fun x => NE_BOUNDS_SPILL_MIRROR.get x.2.2.2 == 1)

/-- R220: the mirrored form where the home part has room for both copies beside the images, else the single one; and the region holds
the form in use. -/
def Dev.spillForm (d : Dev) (c : Nat) (p : Plan) : Bool :=
  let room := decide (p.used + imageUnits * p.homes.length ≤ d.fld MEM_CTX c MEM_CTX_HOME * 2 ^ 20)
  p.bounds.all (fun x => (NE_BOUNDS_SPILL_MIRROR.get x.2.2.2 == 1) == planMirrors p) && (p.used == 0 || planMirrors p == room)
  && decide (p.used * 64 ≤ (d.spillPart c).2) && d.homesOk c (planMirrors p) p

/-- Who a PLACE makes the chip (R231, R232): alone with its own description, the lead chip of a fabric, or a chip that places the
share a lead chip sent it. -/
inductive PlaceRole where
  | alone
  | lead
  | share
  deriving DecidableEq, Repr

/-- The role that LEAD gives (R382). -/
def Dev.roleOf (d : Dev) (lead : Nat) : PlaceRole :=
  if lead < 2 ^ 15 then .alone else if lead % 2 ^ 15 = d.chipId then .lead else .share

/-- Whether the chips of a plan's blocks are those that the role and the CHIP hints allow, which pin a population for a lead chip
(R204, R231, R232). -/
def Dev.chipsOk (d : Dev) (role : PlaceRole) (rs : List Rec) (p : Plan) : Bool :=
  let hint := fun (b : Block) => (hintsOf rs 3).find? (fun h => h.f 2 2 == b.pop)
  match role with
  | .lead => p.away.all (fun x => x.1 != d.chipId && decide (x.1 < 2 ^ 15) && (hint x.2).all (fun h => h.f 8 4 % 2 ^ 15 == x.1))
  | _ => p.away.isEmpty

/-- Whether the blocks of a population cover it: on this chip alone; with a lead chip's blocks for the others; of a share, whatever it
holds (R208, R232). -/
def coverFault (role : PlaceRole) (rs pops : List Rec) (p : Plan) : Option Reason :=
  let cover := fun (bs : List Block) (r : Rec) =>
    need (blocksCover (r.f 4 4) 0 ((bs.filter (fun b => b.pop == r.id)).mergeSort (fun a b => decide (a.first ≤ b.first)))) { code := 1, record := r.ix }
  match role with
  | .alone => firstReason (pops.map (cover p.blocks))
  | .lead => firstReason ((rs.filter (fun r => r.type == 1)).map (cover (p.blocks ++ p.away.map (·.2))))
  | .share => none

/-- The first limit of R212 that a plan passes by its operands alone, in the order of Usher's steps (R207 to R211, R218). DEDUCED, log entry 37. -/
def Dev.planFault (d : Dev) (c : Nat) (role : PlaceRole) (rs : List Rec) (p : Plan) : Option Reason :=
  let pops := d.localPops rs
  firstReason [
    need (d.chipsOk role rs p) { code := 0xE },
    firstReason (p.blocks.map (fun b => need (pops.any (fun r => r.id == b.pop) && d.placeable b.tile b.eng) (unitReason 1 rs b.pop b.tile b.eng))),
    coverFault role rs pops p,
    firstReason (p.blocks.map (d.blockFault rs c true)), blocksFault rs p.blocks,
    firstReason (p.blocks.map (fun b => need ((d.pinOf c rs b.pop).testBit b.tile) (unitReason 0xE rs b.pop b.tile b.eng))),
    need (togetherOk rs p.blocks) { code := 0xE },
    firstReason (p.plastic.map (fun x => need (decide (x.2.2.2.1 ≤ 7168)) { code := 0xF, tile := x.1 % 32, eng := x.2.1 % 16 })),
    decaysTied rs p,
    need (planEngines p && (p.projs.map (fun x => (x.1, x.2.1, x.2.2.1))).eraseDups.length == p.projs.length) { code := 9 },
    d.fanInRange c p, need (d.rimInRange c p) { code := 5 },
    need (p.mem.all (fun x => d.planMem c p x.1 x.2.length) && d.boundsApart c p) { code := 6 },
    need (d.spillForm c p) { code := 7 }]

/-! ## What a plan writes -/

/-- The population descriptor of a block (R56, R92, R200). -/
def blockDesc (c : Nat) (r : Rec) (b : Block) (express valid : Bool) : Desc :=
  let fl := r.f 10 1
  let bit := fun (f : Fld) (x : Bool) (v : W64) => f.put v (if x then 1 else 0)
  let lo := bit NE_POP_LO_VALID valid (NE_POP_LO_CONTEXT.put 0 c)
  let lo := bit NE_POP_LO_GRADED (fl.testBit 0) (bit NE_POP_LO_SIGNED (fl.testBit 1) (bit NE_POP_LO_EXPRESS express lo))
  let lo := bit NE_POP_LO_EXACT_LONG (fl.testBit 3) (bit NE_POP_LO_AA_RESET (fl.testBit 4) lo)
  let lo := NE_POP_LO_DEPTH_CODE.put (NE_POP_LO_ROUTINE.put (NE_POP_LO_SLOT_SHIFT.put lo (r.f 11 1)) b.routine) (r.f 9 1)
  let lo := NE_POP_LO_DTAB0.put (NE_POP_LO_DTAB1.put lo (b.dtab.getD 1 0)) (b.dtab.getD 0 0)
  let lo := NE_POP_LO_DTAB2.put (NE_POP_LO_DTAB3.put lo (b.dtab.getD 3 0)) (b.dtab.getD 2 0)
  let lo := NE_POP_LO_SLOT_BASE.put lo b.slotBase
  let key := r.f 0 4 + (if fl.testBit 1 then 2 * b.first else b.first)
  ⟨lo, NE_POP_HI_KEY_BASE.put (NE_POP_HI_SIZE.put (NE_POP_HI_BASE.put 0 b.base) b.size) key⟩

/-- Whether a population is the source of an express flow. -/
def isExpress (rs : List Rec) (pop : Nat) : Bool := rs.any (fun r => r.type == 8 && r.f 0 2 == pop)

/-- A block's records at PLACE: R54's values without RESET_MARK, ALWAYS_ACTIVE from FLAGS[2] (R200). R54 takes the tick being updated for
LAST_TICK and PLACE has none; the model takes CLP_TICK_c. DESIGN CHOICE, log entry 12. -/
def Dev.initRecords (d : Dev) (c : Nat) (r : Rec) (b : Block) : Dev :=
  let rest := d.fld NE_DECAY_REST (engIx b.tile b.eng * 16 + b.dtab.getD 0 0) NE_DECAY_REST_REST
  (List.range b.size).foldl (fun d k =>
    let a := recAddr b.tile b.eng (b.base + k)
    (((d.st a 3 rest).fill (a + 3) 10 0).stB (a + 13) (if (r.f 10 1).testBit 2 then 1 else 0)).st (a + 14) 2 (d.tickOf c % 65536)) d

/-- Slot regions and touch bits of a block zeroed (R139). -/
def Dev.zeroSlots (d : Dev) (r : Rec) (b : Block) : Dev :=
  let d := d.clear (engBase b.tile b.eng + 0x200000 + b.slotBase * 2) ((blockSpan b) * popDepth r * 2)
  (List.range 64).foldl (fun d s => d.clear (engBase b.tile b.eng + 0x2E0000 + (s * 8192 + b.base) / 8) ((blockSpan b) / 8)) d

/-- A block's routine and descriptor. -/
def Dev.putBlock (d : Dev) (c : Nat) (rs : List Rec) (valid : Bool) (b : Block) : Dev :=
  match recFind rs 1 b.pop with
  | none => d
  | some r =>
    let d := if b.routine < 8 then d
      else (routineOf rs r).zipIdx.foldl (fun d w => d.st (engBase b.tile b.eng + 0x2F8000 + (b.routine * 64 + w.2) * 8) 8 w.1) d
    d.commitDesc b.tile b.eng b.desc (blockDesc c r b (isExpress rs b.pop) valid)

/-- Decay tables, bounds, images, plastic regions, projections and memories of a plan, with the engines' copies in the home
part (R130, R210, R211, R435). -/
def Dev.putPlan (d : Dev) (rs : List Rec) (p : Plan) : Dev :=
  let d := p.decays.foldl (fun d x =>
    match recFind rs 5 x.2.2.2 with
    | none => d
    | some r =>
      let i := engIx x.1 x.2.1 * 16 + x.2.2.1
      (List.range 64).foldl (fun d k => d.setF NE_DECAY (i * 64 + k) NE_DECAY_FACTOR (r.f (4 + 2 * k) 2))
        (d.setF NE_DECAY_REST i NE_DECAY_REST_REST (r.f 0 4))) d
  let d := p.bounds.foldl (fun d x => d.wr NE_BOUNDS (engIx x.1 x.2.1 * 4 + x.2.2.1) x.2.2.2) d
  let d := p.homes.foldl (fun d x => d.setF NE_HOME_BASE (engIx x.1 x.2.1) NE_HOME_BASE_IMAGE x.2.2) d
  let d := p.plastic.foldl (fun d x =>
    let i := engIx x.1 x.2.1
    (d.tumPl x.1 x.2.1 (TUM_PL_WORDS.put (TUM_PL_BASE.put (d.rd TUM_PL i) x.2.2.1) x.2.2.2.1)).setF TUM_PLASTIC_PROJ i TUM_PLASTIC_PROJ_MASK x.2.2.2.2) d
  let d := p.projs.foldl (fun d x =>
    let i := engIx x.1 x.2.1 * 32 + x.2.2.1
    { ((d.flushProj x.1 x.2.1 x.2.2.1).store NE_PROJ i .whole x.2.2.2.1) with projRec := Tab.set 0 d.projRec i (x.2.2.2.2 + 1) }) d
  p.mem.foldl (fun d x =>
    let d := d.stBytes x.1 x.2
    if 0x1000000000 ≤ x.1 then
      let t := (x.1 - 0x1000000000) / 0x2000000
      x.2.zipIdx.foldl (fun d b => d.stB (d.imageOf t (x.1 + b.2)) b.1) d
    else d) d

/-- Home copies of the spilled rows of a context that mirrors them (R220, R541). -/
def Dev.mirrorSpill (d : Dev) (c used : Nat) : Dev :=
  let (start, _) := d.spillPart c
  let home := d.fld MEM_CTX c MEM_CTX_BASE * 2 ^ 26
  (d.mem.filter (fun x => decide (start ≤ x.1) && decide (x.1 < start + used * 64))).foldl (fun d x => d.stB (home + (x.1 - start)) x.2)
    (d.clear home (used * 64))

/-- SPILL_MAX of an engine as Usher sets it: 4 where it holds a spilled row, or one still waits to be fetched, else 0 (R129, R219). -/
def Dev.setSpillMax (d : Dev) (t e : Nat) : Dev :=
  let any := (d.validEntries t e).any (fun i => rdSpill (d.sidx t e i)) || !((d.eng t e).parked.isEmpty)
  (d.spillMaxTo t e (if any then 4 else 0)).issueSpill t e 8

/-! ## Faithful rows -/

/-- A row's bytes where its descriptor names them. -/
def Dev.rowBytes (d : Dev) (t e c : Nat) (x : BitVec 128) (o n : Nat) : Nat :=
  if rdSpill x then d.ld ((d.spillPart c).1 + rdAddr x * 64 + o) n else d.ld (engBase t e + rdAddr x * 64 + o) n

/-- What the rows that `sel` takes of a key add in block `b`: target position, delay, code, scale word. -/
def Dev.rowsInto (d : Dev) (c : Nat) (b : Block) (key : Nat) (sel : BitVec 128 → Bool) : List (Nat × Nat × Int × Nat) :=
  ((d.lookupRows b.tile b.eng key c).filter (fun j => sel j.desc)).flatMap (fun j =>
    ((d.synapses b.tile b.eng j.desc (d.rowBytes b.tile b.eng c j.desc)).filter (fun y => y.live)).filterMap (fun y =>
      let tgt := y.tgt.toNat
      if (b.base : Int) ≤ y.tgt ∧ tgt < b.base + b.size then
        some (tgt - b.base, y.delay, y.code,
          d.ld (engBase b.tile b.eng + 0x2F0000 + 2 * d.scaleIx b.tile b.eng (rdProj j.desc) (rdSgrp j.desc) tgt) 2)
      else none))

/-- Key of source neuron `i` of a population (R83, R200). -/
def keyOf (src : Rec) (i : Nat) : Nat := src.f 0 4 + (if (src.f 10 1).testBit 1 then 2 * i else i)

/-- Whether a row belongs to projection record `r`. -/
def Dev.isOf (d : Dev) (b : Block) (r : Rec) (x : BitVec 128) : Bool := Tab.get 0 d.projRec (engIx b.tile b.eng * 32 + rdProj x) == r.id + 1

/-- What R201 and R202 give for the rows of source neuron `i` of projection record `r` in block `b` of its target. -/
def rowsWanted (rs : List Rec) (r dst : Rec) (b : Block) (i : Nat) : List (Nat × Nat × Int × Nat) :=
  let w := 32 * 2 ^ r.f 7 1
  (genSyns rs r i b.first b.size).map (fun y =>
    let sc := match recFind rs 3 (r.f 28 2) with
      | some x => x.f (2 * (i / w * cdiv (dst.f 4 4) w + y.1 / w)) 2
      | none => 0x0100
    (y.1 - b.first, y.2.2, y.2.1, sc))

/-- Whether the synapses got are those wanted: codes and delays only where R202 gives them; zero codes of the dense formats are not
compared; C16 leaves out a code of 0 that DATA gives. -/
def sameSyns (r : Rec) (got want : List (Nat × Nat × Int × Nat)) : Bool :=
  let see := fun (y : Nat × Nat × Int × Nat) => (y.1, if delayKnown r then y.2.1 else 0, if codeKnown r then y.2.2.1 else 0, y.2.2.2)
  let keep := fun (l : List (Nat × Nat × Int × Nat)) => (if r.f 5 1 < 2 then l else l.filter (fun y => y.2.2.1 != 0)).map see
  if codeKnown r ∨ r.f 5 1 = 0 then (keep got).isPerm (keep want)
  else (got.map see).all ((want.map see).contains ·) && (got.map (fun y => y.1)).eraseDups.length == got.length

/-- Whether a kernel row holds the taps of its source channel that one stride phase takes, each once, in tap order; with STRIDE 1 the
whole slice (R103, R201). The channel is the source index modulo SRC_C, as KC is innermost in a target map; the manual gives no origin.
DEDUCED, log entry 37. -/
def Dev.sliceOk (d : Dev) (c : Nat) (rs : List Rec) (r : Rec) (b : Block) (i : Nat) (x : BitVec 128) : Bool :=
  let kw := r.f 30 1
  let kh := r.f 31 1
  let kc := r.f 32 1
  let s := r.f 33 1
  let p := rdProj x
  let w := d.proj b.tile b.eng p NE_PROJ_KW
  let h := d.proj b.tile b.eng p NE_PROJ_KH
  match recFind rs 3 (r.f 26 2) with
  | none => false
  | some k => (List.range (s * s)).any (fun ph =>
      let px := ph % s
      let py := ph / s
      w == cdiv (kw - px) s && h == cdiv (kh - py) s
      && (List.range (w * h * kc)).all (fun t =>
        let dx := t / kc % w
        let dy := t / kc / w
        d.rowBytes b.tile b.eng c x t 1 == k.f ((i % r.f 36 1 * (kw * kh) + (py + s * dy) * kw + px + s * dx) * kc + t % kc) 1))

/-- Whether every F32 synapse of a row carries the PLASTIC and RULE of its projection (R99, R201). -/
def Dev.ruleTied (d : Dev) (c : Nat) (b : Block) (r : Rec) (x : BitVec 128) : Bool :=
  rdFmt x != 0 || (List.range (rdLen x)).all (fun k =>
    let v := d.rowBytes b.tile b.eng c x (4 * k) 4
    bits v 2 2 == bits (r.f 6 1) 2 2 && (bits v 2 2 == 0 || bits v 4 3 == bits (r.f 6 1) 4 3))

/-- The rows of a plan are those of the description (R201, R202, R210): for each projection, each source and each block of the
target, rows of its format, with the synapses that R202 gives or the kernel slices of a convolution. -/
def Dev.rowsFaithful (d : Dev) (c : Nat) (rs : List Rec) (bs : List Block) : Bool :=
  (rs.filter (fun r => r.type == 2)).all (fun r =>
    match recFind rs 1 (r.f 0 2), recFind rs 1 (r.f 2 2) with
    | some src, some dst =>
      (bs.filter (fun b => b.pop == dst.id)).all (fun b =>
        (List.range (src.f 4 4)).all (fun i =>
          let xs := ((d.lookupRows b.tile b.eng (keyOf src i) c).map (·.desc)).filter (d.isOf b r)
          xs.all (fun x => rdFmt x == r.f 5 1 && d.ruleTied c b r x)
          && (if r.f 4 1 = 2 then r.f 5 1 != 3 || xs.all (d.sliceOk c rs r b i)
              else sameSyns r (d.rowsInto c b (keyOf src i) (d.isOf b r)) (rowsWanted rs r dst b i))))
    | _, _ => true)

/-! ## Limits of the rows and tables in place -/

/-- Descriptors of a context's rows in an engine. -/
def Dev.rowsIn (d : Dev) (t e c : Nat) : List (BitVec 128) := (d.sidxOf t e c).map (d.sidx t e)

/-- Whether a row may spill (R219): it is not plastic, not gathered, no K8 kernel, not of a projection with FORBID_SPILL, and carries no
key of an express flow. -/
def Dev.maySpill (d : Dev) (t e : Nat) (x : BitVec 128) : Bool :=
  let p := rdProj x
  let c := rdCtx x
  let forbid := match recFind (d.recs c) 2 (Tab.get 0 d.projRec (engIx t e * 32 + p) - 1) with
    | some r => (r.f 6 1).testBit 5 || (r.f 6 1).testBit 2
    | none => false
  rdFmt x != 3 && !forbid && !((d.fld TUM_PLASTIC_PROJ (engIx t e) TUM_PLASTIC_PROJ_MASK).testBit p)
  && d.proj t e p NE_PROJ_GATHER_EN == 0
  && !((flowKeys (d.recs c)).any (fun f => decide (f.1 ≤ rdKey x) && decide (rdKey x < f.1 + f.2)))

/-- The delays that a row gives, at least those of its live synapses. -/
def Dev.rowDelays (d : Dev) (t e c : Nat) (x : BitVec 128) : List Nat :=
  (((d.synapses t e x (d.rowBytes t e c x)).filter (fun y => y.live)).map (fun y => y.delay)).eraseDups

/-- Marker hops to a chip: 1 over an up port of MARK_PORTS, else as the fabric gives (R161, R163). -/
def Dev.hopsTo (d : Dev) (c : Nat) (p : Plan) (chip : Nat) : Nat :=
  if (List.range 6).any (fun k => (d.fld CLP_CTRL c CLP_CTRL_MARK_PORTS).testBit k && d.portUp k && d.neighbourChip k == chip) then 1
  else max 1 ((p.hops.lookup chip).getD 1)

/-- Whether a row's delays keep R135 within the chip; from `h` marker hops away, R163's d ≤ D − 1 − h, and under Stretch R306's d ≥ h
for an odd h, d ≥ h + 1 for an even one. -/
def Dev.delaysOk (d : Dev) (c : Nat) (p : Plan) (rs : List Rec) (t e : Nat) (x : BitVec 128) : Bool :=
  let depth := (d.pop t e (d.proj t e (rdProj x) NE_PROJ_TPOP)).depth
  let h := match popOfKey rs (rdKey x) with
    | some r => if d.chipOf rs r.id = d.chipId then 0 else d.hopsTo c p (d.chipOf rs r.id)
    | none => 0
  let least := if h = 0 ∨ d.fld CLP_CTRL c CLP_CTRL_POLICY ≠ 0 then 1 else h + (h + 1) % 2
  (d.rowDelays t e c x).all (fun y => decide (least ≤ y) && decide (y + h < depth))

/-- The limit of R212 that a row in place passes: scale words, on-die space and bounds, spilled rows, gather windows, delays
(R106, R115, R128, R133, R219, R436). -/
def Dev.rowFault (d : Dev) (c : Nat) (p : Plan) (rs : List Rec) (t e : Nat) (x : BitVec 128) : Option Reason :=
  let no := fun code => { code := code, record := ((recFind rs 2 (Tab.get 0 d.projRec (engIx t e * 32 + rdProj x) - 1)).map (·.ix)).getD 0xFFFF,
                          tile := t % 32, eng := e % 16 : Reason }
  let tg := d.proj t e (rdProj x) NE_PROJ_TGRP_COUNT
  firstReason [
    need (decide (d.proj t e (rdProj x) NE_PROJ_SCALE_BASE + (rdSgrp x + 1) * tg ≤ 16384)) (no 8),
    need (!rdSpill x || (d.maySpill t e x && decide (rdWords x ≤ 64))) (no 6),
    need (!rdSpill x || decide (rdAddr x + rdWords x ≤ p.used)) (no 7),
    need (!(d.rowOutside t e x) && !(d.projBad t e x)) (no 6),
    need (!(d.gathers t e x) || !(d.geometryBad t e x)) (no 0x11),
    need (rdLen x == 0 || !(d.descRowBad t e x)) (no 6),
    need (d.delaysOk c p rs t e x) (no 0x10)]

/-- Whether each row of a context in an engine is found by its key's lookup, within eight buckets (R95). -/
def Dev.chainsOk (d : Dev) (t e c : Nat) : Bool :=
  (d.sidxOf t e c).all (fun i => (d.lookupRows t e (rdKey (d.sidx t e i)) c).any (fun j => j.index == i))

/-- The limits of R212 that an engine of a plan passes: 6,144 descriptors and eight buckets (R208), its rows', and its modelled load:
at most LOAD_TARGET, or 100 per cent after the finest split, 128 neurons a block (R208, R212, R233). -/
def Dev.engineFault (d : Dev) (c : Nat) (p : Plan) (rs : List Rec) (t e : Nat) : Option Reason :=
  let no := fun code => { code := code, tile := t % 32, eng := e % 16 : Reason }
  let finest := (p.blocks.filter (fun b => b.tile == t && b.eng == e)).all (fun b => decide (b.size ≤ 128))
  firstReason [
    need (decide ((List.range 8).foldl (fun a k => a + (d.sidxOf t e k).length) 0 ≤ 6144) && d.chainsOk t e c) (no 3),
    firstReason ((d.rowsIn t e c).map (d.rowFault c p rs t e)),
    need (decide (d.engineLoad t e ≤ 1000 * (if finest then 100 else d.loadTarget c))) (no 0x12)]

/-- Engines of a plan. -/
def enginesOf (p : Plan) : List (Nat × Nat) := (p.blocks.map (fun b => (b.tile, b.eng))).eraseDups

/-! ## Tables (R40, R211) -/

/-- First fan-out entry that a gateway tile keeps for inbound keys (R211). -/
def inboundFrom : Nat := 3584

/-- Tiles that hold a row of a context for a key. -/
def Dev.rowTiles (d : Dev) (c : Nat) (bs : List Block) (key : Nat) : List Nat :=
  ((bs.filter (fun x => !(d.lookupRows x.tile x.eng key c).isEmpty)).map (·.tile)).eraseDups

/-- FLOW identifier of an express flow: its context in bits [15:13] and its index in [12:0], which in the manual's example is the FLOW
record's ID; IDs that pass 13 bits are counted in ascending order instead (R211). DEDUCED, log entry 24. -/
def flowId (c : Nat) (rs : List Rec) (r : Rec) : Nat :=
  let fs := rs.filter (fun x => x.type == 8)
  c * 8192 + (if fs.all (fun x => decide (x.id < 8192)) then r.id else (fs.filter (fun x => decide (x.id < r.id))).length)

/-- The FLOW record of a source population. -/
def flowOf (rs : List Rec) (pop : Nat) : Option Rec := rs.find? (fun r => r.type == 8 && r.f 0 2 == pop)

/-- Whether the events of a population leave the chip: it is the source of a projection whose target lies on another chip, or has
blocks there (R211, R231, R232). -/
def Dev.leaves (d : Dev) (rs : List Rec) (p : Plan) (pop : Nat) : Bool :=
  rs.any (fun r => r.type == 2 && r.f 0 2 == pop && (d.chipOf rs (r.f 2 2) != d.chipId || p.away.any (fun x => x.2.pop == r.f 2 2)))

/-- Keys that the blocks of a tile own: population and key. -/
def tileKeys (rs : List Rec) (bs : List Block) (t : Nat) : List (Rec × Nat) :=
  (bs.filter (fun b => b.tile == t)).flatMap (fun b =>
    match recFind rs 1 b.pop with
    | none => []
    | some r =>
      let per := if (r.f 10 1).testBit 1 then 2 else 1
      (List.range (per * b.size)).map (fun k => (r, r.f 0 4 + per * b.first + k)))

/-- Keys that enter the chip, of populations on other chips or of other chips' blocks, for which rows lie here. -/
def Dev.inboundKeys (d : Dev) (c : Nat) (rs : List Rec) (p : Plan) : List (Rec × Nat) :=
  let all := fun (r : Rec) => (List.range (keysOf r).2).map (fun k => (r, (keysOf r).1 + k))
  let own := p.blocks.map (·.tile) |>.eraseDups |>.flatMap (tileKeys rs p.blocks)
  ((rs.filter (fun r => r.type == 1 && (d.chipOf rs r.id != d.chipId || p.away.any (fun x => x.2.pop == r.id)))).flatMap all).filter (fun x =>
    !(own.any (fun y => y.2 == x.2)) && !((d.rowTiles c p.blocks x.2).isEmpty))

/-- Whether an entry carries a key as R203 and R211 ask: an express flow's in class 0 with its identifier, any other in class 1. -/
def classOk (c : Nat) (rs : List Rec) (r : Rec) (cls flow : Nat) : Bool :=
  match flowOf rs r.id with
  | some f => cls == 0 && flow == flowId c rs f
  | none => cls != 0

/-- A key of a block of tile `t`: the entry it finds in version `v` names every tile that holds a row of it, and a gateway if it leaves
the chip; in a gateway tile it is none of the entries kept for inbound keys (R211, R244). -/
def Dev.keyCovered (d : Dev) (c v : Nat) (rs : List Rec) (p : Plan) (t : Nat) (r : Rec) (key : Nat) : Bool :=
  let tiles := d.rowTiles c p.blocks key
  let out := d.leaves rs p r.id
  (tiles.isEmpty && !out) || (match d.ftFind t c v key with
    | some (i, x) => tiles.all (fun u => (bits x 63 32).testBit u) && classOk c rs r (bits x 88 87) (bits x 79 64)
        && (!out || bits x 31 24 != 0) && (!(gwTiles.contains t) || decide (i < inboundFrom))
    | none => false)

/-- Every key of a tile's blocks is covered, by entries of which no two would merge into one (R211). -/
def Dev.fanCovers (d : Dev) (c : Nat) (v : Nat → Nat) (rs : List Rec) (p : Plan) : Option Reason :=
  let merge := fun (x y : Nat) =>
    let n := bits x 94 89
    x % 2 ^ 96 == y % 2 ^ 96 && decide (0 < n) && decide (n ≤ 32) && bits x 127 96 / 2 ^ (33 - n) == bits y 127 96 / 2 ^ (33 - n)
      && bits x 127 96 / 2 ^ (32 - n) != bits y 127 96 / 2 ^ (32 - n)
  firstReason ((p.blocks.map (·.tile)).eraseDups.map (fun t =>
    need ((tileKeys rs p.blocks t).all (fun k => d.keyCovered c (v t) rs p t k.1 k.2)
        && p.fan.all (fun x => p.fan.all (fun y => x.1 != t || y.1 != t || !(merge x.2.2 y.2.2))))
      { code := 4, tile := t % 32 }))

/-- Every key that enters the chip finds a rim entry that names one gateway in each half that holds targets and none else, and in each
gateway's tile one of the entries kept for inbound keys, naming the half's tiles; every key that leaves finds one that names a port
(R40, R211). -/
def Dev.rimCovers (d : Dev) (c : Nat) (v : Nat → Nat) (rv : Nat) (rs : List Rec) (p : Plan) : Option Reason :=
  let enters := fun (x : Rec × Nat) =>
    let tiles := d.rowTiles c p.blocks x.2
    match d.rimFind c rv x.2 with
    | none => false
    | some (_, e) => [0, 1].all (fun h =>
        let mine := tiles.filter (fun t => halfOf t == h)
        match (ones 8 (bits e 76 69)).filter (fun g => halfOf (gwTiles.getD g 0) == h) with
        | [] => mine.isEmpty
        | [g] => !mine.isEmpty && (match d.ftFind (gwTiles.getD g 0) c (v (gwTiles.getD g 0)) x.2 with
            | some (i, f) => decide (inboundFrom ≤ i) && mine.all (fun t => (bits f 63 32).testBit t) && classOk c rs x.1 (bits f 88 87) (bits f 79 64)
            | none => false)
        | _ => false)
  let goes := fun (x : Rec × Nat) => !(d.leaves rs p x.1.id) || (match d.rimFind c rv x.2 with
    | some (_, e) => bits e 88 83 != 0 && classOk c rs x.1 (bits e 68 67) (bits e 66 51)
    | none => false)
  need ((d.inboundKeys c rs p).all enters && ((p.blocks.map (·.tile)).eraseDups.flatMap (tileKeys rs p.blocks)).all goes) { code := 5 }

/-- The first limit of R212 that a plan in place passes. -/
def Dev.placedFault (d : Dev) (c : Nat) (v : Nat → Nat) (rv : Nat) (rs : List Rec) (p : Plan) : Option Reason :=
  firstReason [firstReason ((enginesOf p).map (fun x => d.engineFault c p rs x.1 x.2)), d.fanCovers c v rs p, d.rimCovers c v rv rs p]

/-! ## What makes a plan Usher's -/

/-- Hops between tiles, a Trapeze hop counting three times (R209). -/
def hopsOf (a b : Nat) : Nat :=
  let gap := fun (x y : Nat) => (x - y) + (y - x)
  gap (a / 8) (b / 8) + gap (a % 8) (b % 8) + (if halfOf a = halfOf b then 0 else 2)

/-- Σ over pairs of a source block and a target tile of expected events per tick × hops (R209). -/
def placeCost (rs : List Rec) (bs : List Block) : Nat :=
  (bs.map (fun b =>
    let act := ((recFind rs 1 b.pop).map (fun r => r.f 16 2)).getD 0
    let dsts := (rs.filter (fun r => r.type == 2 && r.f 0 2 == b.pop)).map (fun r => r.f 2 2)
    let tiles := ((bs.filter (fun x => dsts.contains x.pop)).map (·.tile)).eraseDups
    b.size * act * (tiles.map (hopsOf b.tile)).sum)).sum

/-- Engines that are free for a block of a population: placeable, in its pin, empty in the plan and of other contexts. -/
def Dev.freeFor (d : Dev) (c : Nat) (rs : List Rec) (bs : List Block) (pop : Nat) : List (Nat × Nat) :=
  ((List.range 288).map (fun k => (k / 9, k % 9))).filter (fun x =>
    d.placeable x.1 x.2 && (d.pinOf c rs pop).testBit x.1 && !(bs.any (fun b => b.tile == x.1 && b.eng == x.2))
    && (d.othersIn x.1 x.2 c true).isEmpty)

/-- No block would lower the sum of R209 by moving to a free engine, the hints and the halves of the flows being kept. DEDUCED, log entry 37. -/
def Dev.costLeast (d : Dev) (c : Nat) (rs : List Rec) (bs : List Block) : Bool :=
  let now := placeCost rs bs
  let flowing := fun (pop : Nat) => rs.any (fun r => r.type == 8 && (r.f 0 2 == pop || rs.any (fun q => q.type == 2 && q.f 0 2 == r.f 0 2 && q.f 2 2 == pop)))
  bs.all (fun b => (d.freeFor c rs bs b.pop).all (fun x =>
    let bs' := bs.map (fun y => if y = b then { b with tile := x.1, eng := x.2 } else y)
    decide (now ≤ placeCost rs bs') || !(togetherOk rs bs') || (flowing b.pop && halfOf b.tile != halfOf x.1)))

/-- An express flow lies within one half when the pins of its source and targets leave an engine for each there (R209). -/
def Dev.flowsInHalf (d : Dev) (c : Nat) (rs : List Rec) (bs : List Block) : Bool :=
  (rs.filter (fun r => r.type == 8)).all (fun r =>
    let pops := r.f 0 2 :: (rs.filter (fun q => q.type == 2 && q.f 0 2 == r.f 0 2)).map (fun q => q.f 2 2)
    let can := fun h => pops.all (fun k => (List.range 288).any (fun x => halfOf (x / 9) == h && d.placeable (x / 9) (x % 9) && (d.pinOf c rs k).testBit (x / 9)))
    let halves := ((bs.filter (fun b => pops.contains b.pop)).map (fun b => halfOf b.tile)).eraseDups
    decide (halves.length ≤ 1) || !(can 0 || can 1))

/-- No two neighbouring blocks of a population could be one: they would pass 8,192 neurons, the load target, 6,144 descriptors, 262,144
slots or 8,192 positions of the first one's engine (R208). DEDUCED, log entry 37. -/
def Dev.splitFewest (d : Dev) (c : Nat) (rs : List Rec) (bs : List Block) : Bool :=
  let sum := fun (l : List Nat) => l.foldl (· + ·) 0
  bs.all (fun a => bs.all (fun b =>
    b.pop != a.pop || b.first != a.first + a.size || decide (8192 < a.size + b.size)
    || ((a.tile, a.eng) != (b.tile, b.eng)
      && (let ps := ((List.range 64).map (d.popCommitted a.tile a.eng)).filter (fun p => p.valid)
          let depth := ((recFind rs 1 a.pop).map popDepth).getD 1
          decide (1000 * d.loadTarget c < d.engineLoad a.tile a.eng + d.ctxLoad c b.tile b.eng (fun x => x == b))
          || decide (6144 < (List.range 8).foldl (fun n k => n + (d.sidxOf a.tile a.eng k).length) 0
              + ((d.rowsIn b.tile b.eng c).filter (fun x => d.proj b.tile b.eng (rdProj x) NE_PROJ_TPOP == b.desc)).length)
          || decide (262144 < sum (ps.map (fun p => cdiv p.size 32 * 32 * p.depth)) + blockSpan b * depth)
          || decide (8192 < sum (ps.map (fun p => cdiv p.size 32 * 32)) + blockSpan b)))))

/-- The hottest rows are on die: a row spills only when it would not fit beside those that stay, and no colder row that may spill stays
(R219). -/
def Dev.hottestOnDie (d : Dev) (c : Nat) (p : Plan) : Bool :=
  (enginesOf p).all (fun g =>
    let rows := d.rowsIn g.1 g.2 c
    let stay := rows.filter (fun x => !rdSpill x)
    let words := fun (l : List (BitVec 128)) => (l.map (fun x => (rdAddr x, rdWords x))).eraseDups.foldl (fun a y => a + y.2) 0
    let all := words ((List.range 8).flatMap (fun k => (d.rowsIn g.1 g.2 k).filter (fun x => !rdSpill x)))
    let own := match d.bounds g.1 g.2 c with
      | some b => NE_BOUNDS_SMEM_HI.get b + 1 - NE_BOUNDS_SMEM_LO.get b
      | none => 0
    (rows.filter (fun x => rdSpill x && rdLen x != 0)).all (fun x =>
      (decide (32768 - 64 * 4 < all + rdWords x) || decide (own < words stay + rdWords x))
      && stay.all (fun y => !(d.maySpill g.1 g.2 y) || !(d.hotter c 1 x y))))

/-- What Usher's search makes of a description besides keeping the limits: rows and projections as described, the fewest blocks, the
least sum of events × hops, express flows within a half, the hottest rows on die (R201, R208 to R210, R219). -/
def Dev.usherMade (d0 d : Dev) (c : Nat) (rs : List Rec) (p : Plan) : Bool :=
  projTied rs p && d.rowsFaithful c rs p.blocks && d.splitFewest c rs p.blocks && d0.costLeast c rs p.blocks && d0.flowsInHalf c rs p.blocks
  && d.hottestOnDie c p

/-! ## Class-0 schedule (R213 to R216) -/

/-- Links of a tree from tile `t` to the tiles of mask `m`: tile, output, slots past the first link's, whether in the far half
of the seam from `h`. -/
def treeLinks (h : Nat) : Nat → Nat → Nat → Nat → List (Nat × Nat × Nat × Bool)
  | 0, _, _, _ => []
  | k + 1, t, m, off =>
    ((treeSplit t m).take 4).zipIdx.flatMap (fun p =>
      if p.1 = 0 then []
      else
        let u := neighbour t p.2
        (t, p.2, off, halfOf t != h) :: treeLinks h k u p.1 (off + (if halfOf u = halfOf t then 3 else 9)))

/-- m = ⌈1.25 GHz ÷ f⌉ for the step that USH_CTRL_c.SEAM_FLOOR names (R216). -/
def seamFactor (floor : Nat) : Nat := match floor with | 0 => 1 | 1 => 2 | 2 => 2 | _ => 4

/-- Slots that a flow takes on a link when it holds `x` as its first there. -/
def linkSlots (n x : Nat) : List Nat := (List.range n).map (fun j => (x + j * (64 / n)) % 64)

/-- Whether a slot of a link is free for context `c`, in both versions but for the context's own entries.
DEDUCED, log entry 24. -/
def Dev.slotFree (d : Dev) (c t v p x : Nat) : Bool :=
  [0, 1].all (fun w =>
    let f := d.fld MID_SLOT_APER (slotIx t w p x) MID_SLOT_APER_FLOW
    f == 0xFFFF || (w != v && f / 8192 == c))

/-- Engines that hold rows of a key range of a context, with the core cycles of its longest row and whether all lie on die. -/
def Dev.flowTargets (d : Dev) (c key n : Nat) : List (Nat × Nat × Bool) :=
  (List.range 288).filterMap (fun k =>
    let xs := (d.rowsIn (k / 9) (k % 9) c).filter (fun x => decide (key ≤ rdKey x) && decide (rdKey x < key + n))
    if xs.isEmpty then none else some (k, (xs.map rowCost).foldl max 1, xs.all (fun x => !(rdSpill x))))

/-- R214 for the flows of every context, with context `c`'s being `fs`: the engine at fault. DEDUCED, log entry 24. -/
def Dev.flowFault (d : Dev) (c : Nat) (fs : List Flow) : Option Nat :=
  let all : List (Nat × Flow) := (List.range 8).flatMap (fun k => (if k = c then fs else Tab.get [] d.flows k).map (fun f => (k, f)))
  let hits : List (Nat × Nat × Nat × Bool) :=
    all.flatMap (fun x => (d.flowTargets x.1 x.2.key x.2.keys).map (fun y => (y.1, x.2.rate, x.2.rate * y.2.1, y.2.2)))
  let src : List (Nat × Nat) :=
    all.flatMap (fun x => ((Tab.get [] d.blocks x.1).filter (fun b => b.pop == x.2.pop)).map (fun b => (engIx b.tile b.eng, x.2.burst)))
  let sum : List Nat → Nat := fun l => l.foldl (· + ·) 0
  (List.range 288).find? (fun k =>
    let h := hits.filter (fun y => y.1 == k)
    decide (16 < sum (h.map (fun y => y.2.1))) || decide (32 < sum (h.map (fun y => y.2.2.1))) || h.any (fun y => !y.2.2.2)
    || decide (16 < sum ((src.filter (fun y => y.1 == k)).map (fun y => y.2))))

/-- The OR of a field over the entries that keys find. -/
def orOver (l : List Nat) : Nat := l.foldl (· ||| ·) 0

/-- Gateways that the fan-out entries of a key range name in a tile: where the events leave the mesh. -/
def Dev.gatesOut (d : Dev) (c t v : Nat) (keys : List Nat) : Nat :=
  orOver (keys.map (fun k => ((d.ftFind t c v k).map (fun x => bits x.2 31 24)).getD 0))

/-- Gateways through which the keys enter the mesh, and ports by which they leave the chip, by the rim entries of version `rv`. -/
def Dev.rimGates (d : Dev) (c rv : Nat) (keys : List Nat) : Nat × Nat :=
  let xs := keys.filterMap (fun k => (d.rimFind c rv k).map (·.2))
  (orOver (xs.map (fun x => bits x 76 69)), orOver (xs.map (fun x => bits x 88 83)))

/-- The links of a flow's tree with the tiles its events start from: the source blocks' tiles, or the gateways' for a source on
another chip; the trees reach the tiles that hold rows of its keys and the gateways by which they leave (R40, R213). -/
def Dev.flowTree (d : Dev) (c : Nat) (v : Nat → Nat) (rv : Nat) (bs : List Block) (pop : Rec) : List Nat × List (Nat × Nat × Nat × Bool) :=
  let (key, n) := keysOf pop
  let keys := (List.range n).map (key + ·)
  let rows := orOver ((d.flowTargets c key n).map (fun x => 2 ^ (x.1 / 9)))
  let own := ((bs.filter (fun b => b.pop == pop.id)).map (·.tile)).eraseDups
  let gates := (ones 8 (d.rimGates c rv keys).1).map (fun g => gwTiles.getD g 0)
  let tree := fun t m => treeLinks (halfOf t) 16 t m 0
  if own.isEmpty then
    (gates, (gates.flatMap (fun t => tree t (orOver (((d.flowTargets c key n).filter (fun x => halfOf (x.1 / 9) == halfOf t)).map (fun x => 2 ^ (x.1 / 9)))))).eraseDups)
  else (own, (own.flatMap (fun t => tree t (rows ||| gwTileMask (d.gatesOut c t (v t) keys)))).eraseDups)

/-- Class-0 positions of a port in a 64-cycle frame: one for every 11.04 ns, half as many when the port is degraded (R294, R300).
DEDUCED, log entry 24. -/
def Dev.portPositions (d : Dev) (p : Nat) : Nat := if d.flag ELK_STATUS p ELK_STATUS_DEGRADED then 2 else 4

/-- Core cycles that one class-0 flit ahead of a flow's costs at a port: 11.04 ns, twice that when degraded (R294, R300). -/
def Dev.portWait (d : Dev) (p n : Nat) : Nat := cdiv (n * (if d.flag ELK_STATUS p ELK_STATUS_DEGRADED then 276 else 138)) 10

/-- Policer of a tile for a flow: the first that is off or the context's own, none of `taken` (R254). -/
def Dev.freePolicer (d : Dev) (c t : Nat) (taken : List (Nat × Nat)) : Option Nat :=
  (List.range 16).find? (fun i => !(taken.contains (t, i))
    && (!(d.flag MID_C0POL (t * 16 + i) MID_C0POL_EN) || d.fld MID_C0POL (t * 16 + i) MID_C0POL_FLOW / 8192 == c))

/-- Where a flow of rate class `k` (with `k` × `m` slots in the far half) fits with its first slot at `s`: on every link its slots, at
all of the link's offsets together, are free and the table stays at 16 (R213, R216, R252). -/
def Dev.slotsFit (d : Dev) (c : Nat) (v : Nat → Nat) (k m s : Nat) (links : List (Nat × Nat × Nat × Bool)) (l : Nat × Nat) : Bool :=
  let mine := ((links.filter (fun x => (x.1, x.2.1) == l)).flatMap (fun x => linkSlots (if x.2.2.2 then k * m else k) (s + x.2.2.1))).eraseDups
  let held := ((List.range 64).filter (fun x => !(d.slotFree c l.1 (v l.1) l.2 x))).length
  mine.all (fun x => d.slotFree c l.1 (v l.1) l.2 x) && decide (held + mine.length ≤ 16)

/-- One flow scheduled in version `v` of the tiles and `rv` of the rim after the flows `acc`: the smallest first slot for which every
slot it needs is free and no link passes 16 reserved slots, its slots, and the policers it will have; else the tile and link, or
port, that it does not fit (R213 to R216, R252, R254). Its bound has the waits of R215, R255 and R300. -/
def Dev.scheduleFlow (d : Dev) (c : Nat) (v : Nat → Nat) (rv : Nat) (rs : List Rec) (bs : List Block) (acc : List Flow) (r : Rec) :
    (Nat × Nat) ⊕ (Flow × Dev) :=
  match recFind rs 1 (r.f 0 2) with
  | none => .inl (0, 0)
  | some pop =>
    let (key, n) := keysOf pop
    let rate := r.f 2 1
    let k := cdiv rate 3
    let tol := (r.f 4 1).testBit 0
    let m := if tol then seamFactor (d.fld USH_CTRL c USH_CTRL_SEAM_FLOOR) else 1
    let (srcs, links) := d.flowTree c v rv bs pop
    let ls := (links.map (fun l => (l.1, l.2.1))).eraseDups
    let crosses := links.any (fun l => l.2.2.2)
    let ports := ones 6 (d.rimGates c rv ((List.range n).map (key + ·))).2
    let others := fun p => ((List.range 8).flatMap (fun j => if j = c then acc else Tab.get [] d.flows j)).filter (fun f => f.ports.contains p)
    let hop := (links.map (fun l => l.2.2.1 + (if halfOf (neighbour l.1 l.2.1) = halfOf l.1 then 3 else 9))).foldl max 0
    let hold := if crosses ∧ tol then 64 / (k * m) - 1 else 0
    let wait := (ports.map (fun p => d.portWait p (others p).length)).foldl max 0
    let pols := srcs.map (fun t => (t, d.freePolicer c t (acc.flatMap (·.pols))))
    match ports.find? (fun p => decide (d.portPositions p < k + ((others p).map (·.slots)).sum)) with
    | some p => .inl (gwTiles.getD p 0, 4)
    | none =>
      match (List.range 64).find? (fun s => ls.all (d.slotsFit c v k m s links)), pols.find? (fun x => x.2.isNone) with
      | none, _ => .inl ((ls.find? (fun l => !(d.slotsFit c v k m 0 links l))).getD (0, 0))
      | some _, some x => .inl (x.1, 0)
      | some s, none =>
        let d := links.foldl (fun d l => (linkSlots (if l.2.2.2 then k * m else k) (s + l.2.2.1)).foldl (fun d x =>
          d.setF MID_SLOT_APER (slotIx l.1 (v l.1) l.2.1 x) MID_SLOT_APER_FLOW (flowId c rs r)) d) d
        .inr (⟨pop.id, key, n, flowId c rs r, k, s, (4 + 8 + (64 / k - 1) + hop + 9 + hold + wait) % 256, tol, rate, r.f 3 1, crosses,
          pols.map (fun x => (x.1, x.2.getD 0)), ports⟩, d)

/-- FLOW records in descending RATE and then ascending ID (R213). -/
def flowOrder (rs : List Rec) : List Rec :=
  let fs := rs.filter (fun r => r.type == 8)
  (List.range 49).reverse.flatMap (fun k =>
    (fs.filter (fun r => r.f 2 1 == k)).mergeSort (fun a b => decide (a.id ≤ b.id)))

/-- A context's flows scheduled in the versions `v` and `rv`: the flows, or why one finds no slots (R213). -/
def Dev.scheduleAll (d : Dev) (c : Nat) (v : Nat → Nat) (rv : Nat) (rs : List Rec) (bs : List Block) :
    List Rec → List Flow → (Reason ⊕ List Flow) × Dev
  | [], acc => (.inr acc, d)
  | r :: rest, acc =>
    match d.scheduleFlow c v rv rs bs acc r with
    | .inl l => (.inl { code := 0x000C, record := r.ix, tile := l.1, eng := 15, link := l.2 }, d)
    | .inr (f, d) => d.scheduleAll c v rv rs bs rest (acc ++ [f])

/-- The schedule of a context in its deselected versions, with the other slots of its flows freed there, held to R214. -/
def Dev.scheduleCtx (d : Dev) (c : Nat) (rs : List Rec) (bs : List Block) : (Reason ⊕ List Flow) × Dev :=
  match d.scheduleAll c (fun t => 1 - d.midVer t c) (1 - d.rimVer c) rs bs (flowOrder rs) [] with
  | (.inr fs, d') =>
    match d'.flowFault c fs with
    | some k => (.inl { code := 0x000D, tile := k / 9, eng := k % 9 }, d)
    | none => (.inr fs, d')
  | (.inl r, _) => (.inl r, d)

/-- A schedule rebuilt for a context that runs on (R217): each flow in order, if it finds slots and keeps R214 with those before it; one
that does not is no longer admitted, and its events leave in class 1 (R253). DEDUCED, log entry 24. -/
def Dev.admitAll (d : Dev) (c : Nat) (rs : List Rec) (bs : List Block) : List Rec → List Flow → List Flow × Dev
  | [], acc => (acc, d)
  | r :: rest, acc =>
    match d.scheduleFlow c (fun t => 1 - d.midVer t c) (1 - d.rimVer c) rs bs acc r with
    | .inl _ => d.admitAll c rs bs rest acc
    | .inr (f, d') => if (d'.flowFault c (acc ++ [f])).isNone then d'.admitAll c rs bs rest (acc ++ [f]) else d.admitAll c rs bs rest acc

/-- A rebuilt schedule waits for its context's flip (R217). -/
def Dev.holdFlows (d : Dev) (c : Nat) (fs : List Flow) : Dev := { d with newFlows := d.newFlows.filter (fun x => x.1 != c) ++ [(c, fs)] }

/-- The policers of a context become those of its flows `fs`, with full buckets (R215, R217, R254). -/
def Dev.setPolicers (d : Dev) (c : Nat) (fs : List Flow) : Dev :=
  let d := (List.range 512).foldl (fun d i => if d.fld MID_C0POL i MID_C0POL_FLOW / 8192 = c then d.setF MID_C0POL i MID_C0POL_EN 0 else d) d
  fs.foldl (fun d f => f.pols.foldl (fun d x =>
    let d := d.wr MID_C0POL (x.1 * 16 + x.2) (MID_C0POL_EN.put (MID_C0POL_RATE.put (MID_C0POL_BURST.put (MID_C0POL_FLOW.put 0 f.id) f.burst) f.rate) 1)
    let y := d.router x.1
    d.setRouter x.1 { y with tokens := Tab.set 0 y.tokens x.2 (d.polBurst x.1 x.2) }) d) d

end Sys2Proof.Machine
end

