-- ==== Sys2Proof/Machine/Shake.lean ====
section
/-! DEFINITION. SHAKE256 with 256-bit output (FIPS 202), the digest of the measurements (R452), and a measurement extended by a
digest. -/

namespace Sys2Proof.Machine

/-- The five lanes of one row of the sponge's state, lane 0 lowest. -/
abbrev Plane := BitVec 320

/-- Lane `x` of a plane. -/
def Plane.lane (p : BitVec 320) (x : Nat) : W64 := p.extractLsb' (64 * x) 64

/-- The difference that θ adds to every plane: each column's two neighbours in the parity plane, one of them turned by a bit. -/
def thetaPlane (s : List Plane) : Plane :=
  let p := s.foldl (fun a b => a ^^^ b) 0
  let next := p.rotateRight 64
  let turned := (List.range 5).foldl (fun (a : Plane) x => a ||| (((Plane.lane next x).rotateLeft 1).setWidth 320 <<< (64 * x))) 0
  p.rotateLeft 64 ^^^ turned

/-- ρ and π in one walk: step `t` carries the lane where the walk stands to the walk's next place, turned by the triangular number of
t + 1; lane (0, 0) stays. -/
def walkLanes (s : List Plane) : List Plane :=
  let origin : Plane := (Plane.lane (s.headD 0) 0).setWidth 320
  ((List.range 24).foldl (fun (a : (Nat × Nat) × List Plane) t =>
    let ((x, y), out) := a
    let w := (Plane.lane (s.getD y 0) x).rotateLeft ((t + 1) * (t + 2) / 2 % 64)
    let z := (2 * x + 3 * y) % 5
    ((y, z), out.modify z (fun p => p ||| (w.setWidth 320 <<< (64 * y))))) ((1, 0), [origin, 0, 0, 0, 0])).2

/-- The generator of ι's bits: one step of the register of x^8 + x^6 + x^5 + x^4 + 1. -/
def iotaStep (r : Nat) : Nat := if 128 ≤ r then (2 * r) ^^^ 0x171 else 2 * r

/-- The constant of the round that begins with register `r`, its seven bits at places 2^j − 1, and the register after it. -/
def iota (r : Nat) : Plane × Nat :=
  (List.range 7).foldl (fun (a : Plane × Nat) j => (a.1 ||| (BitVec.ofNat 320 (a.2 % 2) <<< (2 ^ j - 1)), iotaStep a.2)) (0, r)

/-- The permutation of a block's state: 24 rounds, each θ, the walk, χ on every plane and ι (FIPS 202). -/
def permute (s : List Plane) : List Plane :=
  ((List.range 24).foldl (fun (a : List Plane × Nat) _ =>
    let (rc, r) := iota a.2
    let d := thetaPlane a.1
    let chi := (walkLanes (a.1.map (fun p => p ^^^ d))).map (fun p => p ^^^ (~~~(p.rotateRight 64) &&& p.rotateRight 128))
    (chi.modify 0 (fun p => p ^^^ rc), r)) (s, 1)).1

/-- A block of 136 bytes, as one number, is taken into the state. -/
def absorb (s : List Plane) (block : Nat) : List Plane :=
  permute (s.zipIdx.map (fun x => x.1 ^^^ BitVec.ofNat 320 (block / 2 ^ (320 * x.2))))

/-- SHAKE256 with 32 bytes of output: whole blocks, then the rest with the domain bits 0x1F after it and the last bit of the block. -/
def shake256 (m : List Byte) : List Byte :=
  let full := m.length / 136
  let s := (List.range full).foldl (fun s k => absorb s (at_ m (136 * k) 136)) (List.replicate 5 (0 : Plane))
  let rest := m.drop (136 * full)
  leBytes 32 ((absorb s (leNat rest + 0x1F * 256 ^ rest.length + 0x80 * 256 ^ 135)).headD 0).toNat

/-- Measurement `m`, 0 to 5 for M0 to M5 and 6 + c for C_c, as bytes (R452). -/
def Dev.meas (d : Dev) (m : Nat) : List Byte := (List.range 4).flatMap (fun k => leBytes 8 (d.rd SEC_MEAS (m * 4 + k)).toNat)

/-- A measurement takes a value of 32 bytes. -/
def Dev.setMeas (d : Dev) (m : Nat) (v : List Byte) : Dev :=
  (List.range 4).foldl (fun d k => d.wr SEC_MEAS (m * 4 + k) (BitVec.ofNat 64 (at_ v (8 * k) 8))) d

/-- A measurement is extended by a digest (R452). -/
def Dev.extendMeas (d : Dev) (m : Nat) (digest : List Byte) : Dev := d.setMeas m (shake256 (d.meas m ++ digest))

end Sys2Proof.Machine
end

