-- ==== Sys2Proof/Machine/Usher.lean ====
section
/-! DEFINITION. Usher: LOAD_DESCRIPTION (R206), PLACE (R207 to R216), PIN_HINT (R218), tiering (R219 to R222), rebalancing and
migration (R223 to R230), the schedule's rebuild (R217), and Intermissions with the work done in them (R159, R160, R264, R307).
What Usher's search chooses comes as an operand, held to the rules of `Plan`. -/

namespace Sys2Proof.Machine

/-! ## Freeing a placement -/

/-- A source-index entry's VALID is cleared. -/
def Dev.sidxDrop (d : Dev) (t e i : Nat) : Dev :=
  let a := engBase t e + 0x280000 + i * 16 + 11
  d.stB a (d.ldB a &&& 0x7F)

/-- A descriptor's VALID is cleared. -/
def Dev.popDrop (d : Dev) (t e n : Nat) : Dev :=
  let p := d.popCommitted t e n
  d.commitDesc t e n { p with lo := NE_POP_LO_VALID.put p.lo 0 }

/-- A projection becomes invalid, after the flush of a gather state of it (R116). -/
def Dev.projDrop (d : Dev) (t e p : Nat) : Dev :=
  let i := engIx t e * 32 + p
  { (d.flushProj t e p).setF NE_PROJ i NE_PROJ_VALID 0 with projRec := Tab.set 0 d.projRec i 0 }

/-- Projections of an engine that target a descriptor. -/
def Dev.projsTo (d : Dev) (t e n : Nat) : List Nat :=
  (List.range 32).filter (fun p => d.proj t e p NE_PROJ_VALID == 1 && d.proj t e p NE_PROJ_TPOP == n)

/-- The bounds entries of a context in an engine become invalid. -/
def Dev.boundsDrop (d : Dev) (t e c : Nat) : Dev :=
  (List.range 4).foldl (fun d k =>
    let i := engIx t e * 4 + k
    if d.fld NE_BOUNDS i NE_BOUNDS_CTX = c then d.setF NE_BOUNDS i NE_BOUNDS_VALID 0 else d) d

/-- What a context holds in one engine is freed: descriptors, projections, source-index entries, bounds. -/
def Dev.freeEngine (d : Dev) (c t e : Nat) : Dev :=
  let ns := (List.range 64).filter (fun n => let p := d.popCommitted t e n; p.valid && p.ctx == c)
  let d := ns.foldl (fun d n => ((d.projsTo t e n).foldl (fun d p => d.projDrop t e p) d).popDrop t e n) d
  ((d.sidxOf t e c).foldl (fun d i => d.sidxDrop t e i) d).boundsDrop t e c

/-- The placement of a context is freed (R206, R207). -/
def Dev.freePlacement (d : Dev) (c : Nat) : Dev :=
  let d := (List.range 288).foldl (fun d k => d.freeEngine c (k / 9) (k % 9)) d
  let d := { d with blocks := Tab.set [] d.blocks c [], flows := Tab.set [] d.flows c [], newFlows := Tab.set [] d.newFlows c [],
                    away := Tab.set [] d.away c [], touched := Tab.set [] d.touched c [], demoted := d.demoted.filter (fun x => x.ctx != c) }
  let d := (d.setF USH_STATUS c USH_STATUS_PLACED 0).setF SEC_CTX_STATUS c SEC_CTX_STATUS_PLACED 0
  (d.setF USH_STATUS c USH_STATUS_SPILL_SINGLE 0).wr USH_SPILL c 0

/-! ## LOAD_DESCRIPTION -/

/-- LOAD_DESCRIPTION (R206, R441, R452): the bytes at ADDR, or none when the DMA fails. -/
def execLoadDescription (id : Nat) (data : Option (List Byte)) (s : State) : Host.Outcome State Fault Refusal :=
  run (fun d => d.ctxCommand id 0x10 .feeds [] (fun cmd d =>
    let c := cmd.ctx
    if d.flag SEC_CTX_STATUS c SEC_CTX_STATUS_SCRUBBING then d.busy id
    else if (d.gen c).running then d.finish id 0x0301 0x0101 [0xFF, 0xFF, 0xFF, 0xFF]
    else d.withData cmd 0 (cmd.p 8 4) data (fun bs =>
      match descCheck bs (cmd.p 8 4) with
      | some (code, r, w) => d.finish id 0x0301 code (leBytes 2 r ++ leBytes 2 w)
      | none =>
        let d := { d with descs := Tab.set [] d.descs c bs, pins := Tab.set [] d.pins c [] }
        ((d.freePlacement c).setMeas (6 + c) (shake256 bs)).ok id []))) s

/-! ## PLACE -/

/-- A command that Usher has not yet run stays taken. -/
def Dev.decline (d : Dev) (id : Nat) : Dev :=
  { d with cmds := d.cmds.map (fun x => if x.id = id then { x with stage := 0 } else x) }

/-- An INFEASIBLE end: USH_REASON_c, LAST_REASON, the count, the record (R212). -/
def Dev.infeasible (d : Dev) (id c : Nat) (r : Reason) : Dev :=
  let v := USH_REASON_RECORD.put (USH_REASON_TILE.put (USH_REASON_ENGINE.put (USH_REASON_LINK.put 0 r.link) r.eng) r.tile) r.record
  let d := ((d.wr USH_REASON c v).setF USH_STATUS c USH_STATUS_LAST_REASON r.code).bump USH_CNT (c * 9 + 1) 1
  d.finish id 0x0302 r.code (leBytes 2 r.record ++ leBytes 1 r.tile ++ leBytes 1 r.eng ++ leBytes 1 r.link)

/-- The fan-out and rim entries of a context in its deselected versions become those of a plan (R211). -/
def Dev.putTables (d : Dev) (c : Nat) (p : Plan) : Dev :=
  let d := (List.range 32).foldl (fun d t =>
    let v := 1 - d.midVer t c
    let b := d.fld MID_FT_REGION (t * 8 + c) MID_FT_REGION_BASE
    let n := d.fld MID_FT_REGION (t * 8 + c) MID_FT_REGION_COUNT
    let d := d.clear (ftAddr t v b) (n * 16)
    let r := d.router t
    d.setRouter t { r with ftBad := r.ftBad.filter (fun i => !(decide (v * 4096 + b ≤ i) && decide (i < v * 4096 + b + n))) }) d
  let d := p.fan.foldl (fun d x => d.ftPut x.1 (1 - d.midVer x.1 c) x.2.1 x.2.2) d
  let v := 1 - d.rimVer c
  let b := v * 16384 + d.fld RIM_TAB_REGION c RIM_TAB_REGION_BASE
  let n := d.fld RIM_TAB_REGION c RIM_TAB_REGION_COUNT
  let inR := fun i => decide (b ≤ i) && decide (i < b + n)
  let d := { d with rimTab := d.rimTab.filter (fun x => !(inR x.1)), rimBad := d.rimBad.filter (fun i => !(inR i)) }
  { d with rimTab := p.rim.foldl (fun m x => Tab.set 0 m (v * 16384 + x.1) (x.2 / 2 ^ 51 * 2 ^ 51)) d.rimTab }

/-- Whether a context's deselected version may be written everywhere, which waits for a tile controller that restarts (R263, R318,
R428). -/
def Dev.tablesFree (d : Dev) (c : Nat) : Bool :=
  d.tcRestart.isEmpty &&
  (List.range 32).all (fun t => d.midWritable t c (1 - d.midVer t c)) && d.rimWritable c (1 - d.rimVer c)

/-- Available engines and tiles that hold blocks of a context are In service at the flip that includes them (R230, R423). -/
def Dev.serveBlocks (d : Dev) (c : Nat) : Dev :=
  let go := fun (d : Dev) (ty i : Nat) => if (d.unit ty i).1 = 4 then d.moveUnit ty i 0 0 else d
  (Tab.get [] d.blocks c).foldl (fun d b => go (go d 2 b.tile) 1 (engIx b.tile b.eng)) d

/-- Every tile and the rim flip a context's version (R207, R264); a rebuilt schedule takes effect with its policers (R215, R217). -/
def Dev.flipTables (d : Dev) (c : Nat) : Dev :=
  let d := (List.range 32).foldl (fun d t => d.midVerWrite t (d.fld MID_VER_SEL t MID_VER_SEL_VER ^^^ 2 ^ c)) d
  let d := d.rimVerWrite (d.fld RIM_VER_SEL 0 RIM_VER_SEL_VER ^^^ 2 ^ c)
  let d := d.setF USH_GEN c USH_GEN_FLIPS (d.fld USH_GEN c USH_GEN_FLIPS + 1)
  let d := d.serveBlocks c
  match d.newFlows.lookup c with
  | some fs => ({ d with flows := Tab.set [] d.flows c fs, newFlows := d.newFlows.filter (fun x => x.1 != c) }).setPolicers c fs
  | none => d

/-- SENSOR and OUTPUT records of a description take effect (R340, R360). -/
def Dev.attach (d : Dev) (c : Nat) (rs : List Rec) : Dev :=
  let d := (rs.filter (fun r => r.type == 6)).foldl (fun d r =>
    let i := r.f 0 1
    let img := fun (k n : Nat) => BitVec.ofNat 64 (r.f k n)
    let d := if i < 16 then
        d.store SNS_CSI_CTRL (i / 4) .whole (SNS_CSI_CTRL_LANES.put (SNS_CSI_CTRL_TRAILER.put (d.rd SNS_CSI_CTRL (i / 4)) (r.f 1 1 / 4)) (r.f 1 1))
      else d
    let d := ((d.store SNS_IN_CHK i .whole (img 16 8)).store SNS_TURN i .whole (img 24 4)).store SNS_MAP_ORG i .whole (img 28 4)
    let d := ((d.store SNS_LAYOUT_A i .whole (img 32 8)).store SNS_LAYOUT_B i .whole (img 40 8)).store SNS_MAP i .whole (img 48 8)
    d.snsCfg i .whole (SNS_IN_CFG_EN.put (SNS_IN_CFG_CTX.put (img 8 8) c) 1)) d
  (rs.filter (fun r => r.type == 7)).foldl (fun d r =>
    let i := c * 4 + r.f 0 1 % 4
    let d := d.setF HST_OUT_CTRL i HST_OUT_CTRL_PASS (r.f 1 1 % 2)
    let d := (d.setF HST_OUT_CTRL i HST_OUT_CTRL_THRESH (r.f 2 2)).setF HST_OUT_CTRL i HST_OUT_CTRL_TIMER_US (r.f 4 4)
    (d.setF HST_OUT_MATCH i HST_OUT_MATCH_MATCH (r.f 8 4)).setF HST_OUT_MATCH i HST_OUT_MATCH_MASK (r.f 12 4)) d

/-- The device after steps 5 and 6 of PLACE, before its flows and its flip (R207). -/
def Dev.placed (d : Dev) (c : Nat) (rs : List Rec) (p : Plan) : Dev :=
  let d := (d.freePlacement c).putPlan rs p
  let d := p.blocks.foldl (fun d b =>
    match recFind rs 1 b.pop with
    | some r => ((d.putBlock c rs true b).initRecords c r b).zeroSlots r b
    | none => d) d
  let d := (enginesOf p).foldl (fun d x => d.setSpillMax x.1 x.2) d
  let d := { d with blocks := Tab.set [] d.blocks c p.blocks, away := Tab.set [] d.away c p.away, touched := Tab.set [] d.touched c p.touched }
  (d.putTables c p).clearFlows c (fun t => 1 - d.midVer t c)

/-- The rows of a context that spill, and its synapses (R382). -/
def Dev.placeCounts (d : Dev) (c : Nat) (p : Plan) : Nat × Nat :=
  ((p.blocks.map (fun b => (b.tile, b.eng))).eraseDups.flatMap (fun x => (d.sidxOf x.1 x.2 c).map (fun i => (x, i)))).foldl (fun acc y =>
    let x := d.sidx y.1.1 y.1.2 y.2
    (acc.1 + (if rdSpill x then 1 else 0),
     acc.2 + ((d.synapses y.1.1 y.1.2 x (d.rowBytes y.1.1 y.1.2 c x)).filter (fun z => z.live)).length)) (0, 0)

/-- The device with every descriptor as committed, as it is once the phases that run have ended (R57). -/
def Dev.committed (d : Dev) : Dev := { d with engs := d.engs.map (fun g => (g.1, { g.2 with popEff := [] })) }

/-- A class-3 message of the Ringmaster to the Ringmaster of a chip, on a queue. -/
def Dev.rmSend (d : Dev) (chip q : Nat) (payload : List Byte) : Dev :=
  d.mqSend 0 (payload.length % 256 * 2 ^ 40 + q * 2 ^ 28 + chip % 2 ^ 15) (payload.take 248) 0

/-- Step 7 of PLACE and its end: home copies of spilled rows, flows, attachments, the flip, the record; a lead chip sends the other
chips their shares (R207, R220, R232, R382). -/
def Dev.finishPlace (d : Dev) (id c : Nat) (rs : List Rec) (p : Plan) (fs : List Flow) : Dev :=
  let d := { d with newFlows := Tab.set [] d.newFlows c [] }
  let d := ({ d with flows := Tab.set [] d.flows c fs }).attach c rs
  let (spilled, syns) := d.committed.placeCounts c p
  let d := if planMirrors p then d.mirrorSpill c p.used else d
  let d := d.setF USH_STATUS c USH_STATUS_SPILL_SINGLE (if spilled ≠ 0 ∧ !(planMirrors p) then 1 else 0)
  let d := ((d.setF USH_SPILL c USH_SPILL_USED (if spilled = 0 then 0 else p.used)).flipTables c).setPolicers c fs
  let d := (d.setF USH_STATUS c USH_STATUS_PLACED 1).setF SEC_CTX_STATUS c SEC_CTX_STATUS_PLACED 1
  let d := p.shares.foldl (fun d x => d.rmSend x.1 x.2.1 x.2.2) d
  (d.bump USH_CNT (c * 9) 1).ok id (leBytes 4 p.blocks.length ++ leBytes 2 fs.length ++ leBytes 2 spilled ++ leBytes 8 syns)

/-- Usher's steps on the plan that its search ends with: INFEASIBLE with the first limit that it passes, before anything is written;
else the plan in place. A plan whose rows are not the description's, or that is not the best by R208, R209 and R219, is none that
Usher makes: PLACE then stays taken. DESIGN CHOICE, log entry 12. -/
def Dev.tryPlan (d : Dev) (id c : Nat) (role : PlaceRole) (rs : List Rec) (p : Plan) : Dev :=
  match d.planFault c role rs p with
  | some r => d.infeasible id c r
  | none =>
    let d' := d.placed c rs p
    match d'.committed.placedFault c (fun t => 1 - d.midVer t c) (1 - d.rimVer c) rs p with
    | some r => d.infeasible id c r
    | none =>
      if !(d.usherMade d'.committed c rs p) then d.decline id
      else match d'.scheduleCtx c rs p.blocks with
        | (.inl r, _) => d.infeasible id c r
        | (.inr fs, d') => d'.finishPlace id c rs p fs

/-- PLACE (R207 to R216), with the plan that Usher's search ends with; it waits until the context's deselected tables may be written
(R263, R318). DEDUCED, log entry 24. -/
def execPlace (id : Nat) (p : Plan) (s : State) : Host.Outcome State Fault Refusal :=
  run (fun d => d.ctxCommand id 0x11 .feeds [] (fun cmd d =>
    let c := cmd.ctx
    if d.flag SEC_CTX_STATUS c SEC_CTX_STATUS_SCRUBBING then d.busy id
    else if (d.gen c).running then d.refuse id 0x0101
    else if (Tab.get [] d.descs c).isEmpty then d.refuse id 0x0103
    else d.unlessNap id true 0 0xFF (fun d =>
      if d.tablesFree c then d.tryPlan id c (d.roleOf (cmd.p 0 2)) (d.recs c) p else d.decline id))) s

/-! ## PIN_HINT -/

/-- Whether some placement can meet a population's pins `m`: usable engines of its tiles hold all of its neurons, and for each TOGETHER
hint the other population's pin leaves a usable tile, or half, in common (R204, R218). DEDUCED, log entry 24. -/
def Dev.pinMeets (d : Dev) (c : Nat) (rs : List Rec) (r : Rec) (m : Nat) : Bool :=
  let use := fun (mask t : Nat) => mask.testBit t && (List.range 9).any (fun e => d.placeable t e)
  let engines := (List.range 288).filter (fun k => m.testBit (k / 9) && d.placeable (k / 9) (k % 9))
  decide (r.f 4 4 ≤ 8192 * engines.length)
  && (hintsOf rs 2).all (fun h =>
    let other := if h.f 2 2 = r.id then h.f 4 2 else h.f 2 2
    (h.f 2 2 != r.id && h.f 4 2 != r.id)
    || (List.range 32).any (fun t => use m t && (List.range 32).any (fun u => use (d.pinOf c rs other) u
        && (if h.f 1 1 < 2 then u == t else halfOf u == halfOf t))))

/-- PIN_HINT: the pin of a placed population is replaced, a mask of 0 removing it, and the blocks outside it are to move in the periods
that follow; or no placement can meet it, and the old pin stays (R218, R384, R389). DEDUCED, log entry 24. -/
def execPinHint (id : Nat) (s : State) : Host.Outcome State Fault Refusal :=
  run (fun d => d.ctxCommand id 0x22 .feeds [] (fun cmd d =>
    let c := cmd.ctx
    let pop := cmd.p 0 2
    let m := cmd.p 4 4
    if !(d.flag USH_STATUS c USH_STATUS_PLACED) then d.refuse id 0x0103
    else match recFind (d.recs c) 1 pop with
      | none => d.outOfRange id 0
      | some r =>
        if m ≠ 0 ∧ !(d.pinMeets c (d.recs c) r m) then d.infeasible id c { code := 0xE, record := r.ix }
        else
          let l := (Tab.get [] d.pins c).filter (fun x => x.1 != pop)
          let d := { d with pins := Tab.set [] d.pins c (l ++ [(pop, m)]) }
          let breaks := (Tab.get [] d.blocks c).filter (fun b => b.pop == pop && m != 0 && !(m.testBit b.tile))
          d.ok id (leBytes 4 breaks.length))) s

/-! ## Migration -/

/-- Whether a migration goes from chip to chip (R232). -/
def Migr.crosses (m : Migr) : Bool := m.dstChip.isSome || m.srcChip.isSome

/-- Status bits of a context's migrations (R234). -/
def Dev.migrStatus (d : Dev) (c : Nat) : Dev :=
  let bit := fun (b : Bool) => if b then 1 else 0
  let m := d.migrs.find? (fun m => m.ctx == c)
  let d := d.setF USH_STATUS c USH_STATUS_MIGRATING (bit m.isSome)
  let d := d.setF USH_STATUS c USH_STATUS_MIGR_STEP ((m.map (·.step)).getD 0)
  d.setF USH_STATUS c USH_STATUS_EVACUATING (bit (m.any (fun m => m.evac.isSome)))

/-- Whether a block lies in a unit of TYPE 1 or 2. -/
def blockIn (type index : Nat) (b : Block) : Bool := if type = 1 then engIx b.tile b.eng == index else b.tile == index

/-- Whether an engine may take a block: licensed, In service or Available, in a half that runs, within the pin, not the source
(R218, R227, R228). -/
def Dev.mayTake (d : Dev) (c : Nat) (rs : List Rec) (src : Block) (t e : Nat) : Bool :=
  let ok := fun (st : Nat) => st == 0 || st == 4
  d.licensed t && ok (d.unit 2 t).1 && ok (d.unit 1 (engIx t e)).1 && !(d.halfStopped (halfOf t)) && (d.pinOf c rs src.pop).testBit t
  && !(t == src.tile && e == src.eng)

/-- Descriptors of the rows into a block. -/
def Dev.blockRows (d : Dev) (c : Nat) (b : Block) : List (BitVec 128) :=
  (d.rowsIn b.tile b.eng c).filter (fun x => d.proj b.tile b.eng (rdProj x) NE_PROJ_TPOP == b.desc)

/-- Room of an engine for a block of neurons, slots, descriptors, rows and contexts: by the totals in use (`tight` false), without which
no layout has room; or past the last one in use (`tight`), where it surely has. DEDUCED, log entry 24. -/
def Dev.roomIn (d : Dev) (c : Nat) (src : Block) (t e : Nat) (tight : Bool) : Bool :=
  let ps := ((List.range 64).map (d.popCommitted t e)).filter (fun p => p.valid)
  let depth := ((recFind (d.recs c) 1 src.pop).map popDepth).getD 1
  let span := fun (p : Desc) => cdiv p.size 32 * 32
  let use := fun (from_ len : Desc → Nat) =>
    if tight then ps.foldl (fun a p => max a (from_ p + len p)) 0 else ps.foldl (fun a p => a + len p) 0
  let rows := (List.range 8).flatMap (fun k => d.rowsIn t e k)
  let mine := d.blockRows c src
  let words := fun (l : List (BitVec 128)) => (((l.filter (fun x => !rdSpill x)).map (fun x => (rdAddr x, rdWords x))).eraseDups).foldl (fun a y => a + y.2) 0
  decide (ps.length < 64) && decide (use (fun p => p.base) span + blockSpan src ≤ 8192)
  && decide (use (fun p => p.l NE_POP_LO_SLOT_BASE) (fun p => span p * p.depth) + blockSpan src * depth ≤ 262144)
  && decide (((c :: ps.map (fun p => p.ctx)).eraseDups).length ≤ 4) && decide (rows.length + mine.length ≤ 6144)
  && decide (words rows + words mine ≤ 32768 - 64 * d.spillMax t e)

/-- Rank of a target: the tile's spare, its tile, a tile of its half by distance, the other half (R228). -/
def Dev.targetRank (d : Dev) (src : Block) (t e : Nat) : Nat :=
  if t = src.tile then (if (d.unit 1 (engIx t e)).1 = 4 then 0 else 1)
  else if halfOf t = halfOf src.tile then 2 + hopsOf src.tile t else 100

/-- Whether an engine is the target that Usher takes: no engine that may take the block and surely has room is of a better rank, or of
the same with a lower modelled load (R228); `avoid` are engines that just failed as targets (R227). DEDUCED, log entry 24. -/
def Dev.targetOk (d : Dev) (c : Nat) (rs : List Rec) (src dst : Block) (avoid : List (Nat × Nat)) : Bool :=
  d.mayTake c rs src dst.tile dst.eng && !(avoid.contains (dst.tile, dst.eng))
  && (List.range 288).all (fun k =>
    avoid.contains (k / 9, k % 9) || !(d.mayTake c rs src (k / 9) (k % 9)) || decide (d.targetRank src dst.tile dst.eng < d.targetRank src (k / 9) (k % 9))
    || !(d.roomIn c src (k / 9) (k % 9) true)
    || (d.targetRank src dst.tile dst.eng == d.targetRank src (k / 9) (k % 9)
      && decide (d.engineLoad dst.tile dst.eng ≤ d.engineLoad (k / 9) (k % 9))))

/-- Whether no engine can take a block at all (R229). -/
def Dev.noTarget (d : Dev) (c : Nat) (src : Block) : Bool :=
  (List.range 288).all (fun k => !(d.mayTake c (d.recs c) src (k / 9) (k % 9) && d.roomIn c src (k / 9) (k % 9) false))

/-- Whether a byte range of a plan is scale memory, which step 1 writes. -/
def isScales (a : Nat) : Bool := decide (0x1000000000 ≤ a) && decide (0x2F0000 ≤ (a - 0x1000000000) % 0x2000000 % 0x300000)
  && decide ((a - 0x1000000000) % 0x2000000 % 0x300000 < 0x2F8000) && decide ((a - 0x1000000000) % 0x2000000 < 0x1B00000)

/-- Whether Usher may open a migration of a context: one per context, four on the device, none of a running context that takes no
Intermission (R223, R227). -/
def Dev.mayMigrate (d : Dev) (c : Nat) : Bool :=
  decide (d.migrs.length < 4) && !(d.migrs.any (fun x => x.ctx == c))
  && (!((d.gen c).running) || d.fld CLP_INTERM_MAX c CLP_INTERM_MAX_INTERM_MAX != 0)

/-- A migration is open. -/
def Dev.openMigr (d : Dev) (x : Migr) : Dev :=
  (({ d with migrs := d.migrs ++ [x] }).bump USH_CNT (x.ctx * 9 + 2) 1).migrStatus x.ctx

/-- Step 1 of a migration (R224, R139): into the target engine the descriptor with VALID = 0, projections, bounds, scales and decay
tables, with its slots and touch planes zeroed; the step ends with the command that starts it. Under L-FAB a block moves to another
chip, whose Usher allocates it, or from one (R232). DEDUCED, log entry 24. -/
def Dev.startMigr (d : Dev) (m : Move) (evac : Option (Nat × Nat)) (avoid : List (Nat × Nat)) : Dev :=
  let rs := d.recs m.ctx
  let named := fun (b : Block) => b.pop == m.pop && b.first == m.first
  let fits := fun (src dst : Block) => d.blockFits rs m.ctx false dst && planEngines m.plan && d.planTables m.ctx m.plan && projTied rs m.plan
    && (decaysTied rs m.plan).isNone && d.boundsApart m.ctx m.plan && m.plan.mem.all (fun x => d.planMem m.ctx m.plan x.1 x.2.length)
    && dst.pop == src.pop && dst.first == src.first && dst.size == src.size
  let alloc := fun (dst : Block) =>
    let d := (d.putPlan rs { m.plan with mem := m.plan.mem.filter (fun x => isScales x.1) }).putBlock m.ctx rs false dst
    match recFind rs 1 dst.pop with
    | some r => d.zeroSlots r dst
    | none => d
  let fab := (d.fld SEC_LIC 0 SEC_LIC_FEATURES).testBit 2
  if !(d.mayMigrate m.ctx) then d
  else match m.chip, (Tab.get [] d.blocks m.ctx).find? named, (Tab.get [] d.away m.ctx).find? (fun x => named x.2), m.plan.blocks with
    | none, some src, _, [dst] =>
      if fits src dst ∧ d.targetOk m.ctx rs src dst avoid ∧ evac.all (fun u => blockIn u.1 u.2 src) then
        (alloc dst).openMigr { ctx := m.ctx, src := src, dst := dst, plan := m.plan, step := 2, evac := evac }
      else d
    | some k, some src, _, [dst] =>
      if fab ∧ k ≠ d.chipId ∧ dst.pop = src.pop ∧ dst.first = src.first ∧ dst.size = src.size ∧ evac.all (fun u => blockIn u.1 u.2 src) then
        d.openMigr { ctx := m.ctx, src := src, dst := dst, plan := m.plan, step := 2, evac := evac, dstChip := some k }
      else d
    | some k, none, some (k', src), [dst] =>
      if fab ∧ k = k' ∧ fits src dst ∧ d.placeable dst.tile dst.eng ∧ evac.isNone then
        (alloc dst).openMigr { ctx := m.ctx, src := src, dst := dst, plan := m.plan, step := 2, srcChip := some k }
      else d
    | _, _, _, _ => d

/-- What a migration wrote into its target is freed (R227). -/
def Dev.freeTarget (d : Dev) (m : Migr) : Dev :=
  let t := m.dst.tile
  let e := m.dst.eng
  if m.dstChip.isSome then d
  else
  let ps := m.plan.projs.map (fun x => x.2.2.1)
  let d := ((d.sidxOf t e m.ctx).filter (fun i => ps.contains (rdProj (d.sidx t e i)))).foldl (fun d i => d.sidxDrop t e i) d
  let d := ps.foldl (fun d p => d.projDrop t e p) d
  let d := d.popDrop t e m.dst.desc
  if d.holds t e m.ctx then d else d.boundsDrop t e m.ctx

/-- A migration is abandoned: the target is freed and the case counted (R227). -/
def Dev.abandonMigr (d : Dev) (m : Migr) : Dev :=
  let d := d.freeTarget m
  let d := { d with migrs := d.migrs.filter (fun x => x.ctx != m.ctx), newFlows := d.newFlows.filter (fun x => x.1 != m.ctx) }
  ((d.setGen m.ctx { d.gen m.ctx with interReq := (d.gen m.ctx).interReq.filter (fun r => r.2.1 != 0) }).bump USH_CNT (m.ctx * 9 + 4) 1).migrStatus m.ctx

/-- Migrations of a context in step 1 or 2 are abandoned (R227). -/
def Dev.abandonOpen (d : Dev) (c : Nat) : Dev :=
  (d.migrs.filter (fun m => m.ctx == c && decide (m.step ≤ 2))).foldl (fun d m => d.abandonMigr m) d

/-- Whether no sweep or write-through of a context runs in a tile, and its controller does not restart (R227, R428). -/
def Dev.tileQuiet (d : Dev) (c t : Nat) : Bool :=
  let g := d.tum t
  !(d.tcRestart.contains t) &&
  !(g.sweepQ.any (fun q => q.1 == c)) && !(g.sweep.any (fun x => x.ctx == c)) && !(g.ended.any (fun k => k.1 == c))
  && !(g.wt.any (fun w => w.2.any (fun k => k.1 == c)))

/-- Bytes copied from one place of the device physical map to another. -/
def Dev.copyBytes (d : Dev) (src dst n : Nat) : Dev := d.stBytes dst (d.ldBytes src n)

/-- Bytes sent to a place of another chip's map as class-2 packets of at most 512 bytes (R232, R308). -/
def Dev.bulkTo (d : Dev) (c chip dst : Nat) (bs : List Byte) : Dev :=
  { d with pkIn := d.pkIn ++ (List.range (cdiv bs.length 512)).map (fun k =>
      let part := slice bs (512 * k) (min 512 (bs.length - 512 * k))
      d.mkPacket 2 c chip 0 [BitVec.ofNat 64 ((part.length - 1) * 2 ^ 47 + (dst + 512 * k))] part) }

/-- The copy of a migration's bytes: within the chip, or to the chip it moves to. -/
def Dev.migrCopy (d : Dev) (m : Migr) (src dst n : Nat) : Dev :=
  match m.dstChip with
  | none => d.copyBytes src dst n
  | some k => d.bulkTo m.ctx k dst (d.ldBytes src n)

/-- Source-index entries into a migrating block, with the entry of the same key, projection record and turn into its target. -/
def Dev.entryPairs (d : Dev) (m : Migr) : List (Nat × Nat) :=
  let mine := fun (b : Block) (key : Nat) => (d.lookupRows b.tile b.eng key m.ctx).filter (fun j => d.proj b.tile b.eng (rdProj j.desc) NE_PROJ_TPOP == b.desc)
  let recOf := fun (b : Block) (j : RowJob) => Tab.get 0 d.projRec (engIx b.tile b.eng * 32 + rdProj j.desc)
  ((d.blockRows m.ctx m.src).map rdKey).eraseDups.flatMap (fun key =>
    let a := mine m.src key
    let b := mine m.dst key
    ((a.map (recOf m.src)).eraseDups).flatMap (fun r =>
      ((a.filter (fun j => recOf m.src j == r)).map (·.index)).zip ((b.filter (fun j => recOf m.dst j == r)).map (·.index))))

/-- What the final copy carries of a plastic block (R225): post-traces and counts of its neurons, pre-traces and pre-counts of its
descriptors, and its rows whole when a sweep of the context has ended in the tile since step 2 began. -/
def Dev.plasticCopy (d : Dev) (m : Migr) : Dev :=
  let a := m.src
  let b := m.dst
  let mask := d.fld TUM_PLASTIC_PROJ (engIx a.tile a.eng) TUM_PLASTIC_PROJ_MASK
  if !((d.projsTo a.tile a.eng a.desc).any mask.testBit) then d
  else
    let d := d.migrCopy m (traceAddr a.tile a.eng a.base) (traceAddr b.tile b.eng b.base) a.size
    let d := d.migrCopy m (traceAddr a.tile a.eng (8192 + a.base)) (traceAddr b.tile b.eng (8192 + b.base)) a.size
    ((d.entryPairs m).filter (fun x => mask.testBit (rdProj (d.sidx a.tile a.eng x.1)))).foldl (fun d x =>
      let p := d.sidx a.tile a.eng x.1
      let q := d.sidx b.tile b.eng x.2
      let d := d.migrCopy m (preAddr a.tile a.eng x.1) (preAddr b.tile b.eng x.2) 1
      let d := d.st (engBase b.tile b.eng + 0x280000 + x.2 * 16) 16 (q.toNat - rdBits q 82 75 * 2 ^ 75 + rdBits p 82 75 * 2 ^ 75)
      if m.swept ∧ !rdSpill p ∧ !rdSpill q then
        let bs := d.ldBytes (engBase a.tile a.eng + rdAddr p * 64) (64 * rdWords p)
        let to_ := engBase b.tile b.eng + rdAddr q * 64
        (d.migrCopy m (engBase a.tile a.eng + rdAddr p * 64) to_ (64 * rdWords p)).stBytes (d.imageOf b.tile to_) bs
      else d) d

/-- The final copy (R225): records, slot region, touch planes 0 to depth − 1, and what a plastic block has more. What comes from another
chip arrives as its bulk transfers. -/
def Dev.finalCopy (d : Dev) (m : Migr) : Dev :=
  let a := m.src
  let b := m.dst
  let depth := ((recFind (d.recs m.ctx) 1 a.pop).map popDepth).getD 1
  if m.srcChip.isSome then d
  else
    let d := d.migrCopy m (recAddr a.tile a.eng a.base) (recAddr b.tile b.eng b.base) (16 * a.size)
    let d := d.migrCopy m (engBase a.tile a.eng + 0x200000 + a.slotBase * 2) (engBase b.tile b.eng + 0x200000 + b.slotBase * 2) (blockSpan a * depth * 2)
    let d := (List.range depth).foldl (fun d k =>
      d.migrCopy m (engBase a.tile a.eng + 0x2E0000 + (k * 8192 + a.base) / 8) (engBase b.tile b.eng + 0x2E0000 + (k * 8192 + b.base) / 8) (blockSpan a / 8)) d
    if m.dstChip.isSome then d else d.plasticCopy m

/-- The lists of blocks after a migration's flip. -/
def Dev.moveBlock (d : Dev) (m : Migr) : Dev :=
  match m.dstChip, m.srcChip with
  | some k, _ => { d with blocks := Tab.upd [] d.blocks m.ctx (fun l => l.filter (fun b => b != m.src)), away := Tab.upd [] d.away m.ctx (· ++ [(k, m.dst)]) }
  | none, some k => { d with blocks := Tab.upd [] d.blocks m.ctx (· ++ [m.dst]), away := Tab.upd [] d.away m.ctx (fun l => l.filter (fun x => x != (k, m.src))) }
  | none, none => { d with blocks := Tab.upd [] d.blocks m.ctx (fun l => l.map (fun b => if b = m.src then m.dst else b)) }

/-- Step 3 of a migration: final copy, the target's descriptor VALID and the source's not, the flip; between tiles the old
engine's projections of the block become invalid (R224, R226). Step 3 lasts until the Intermission ends; a stopped context has none. -/
def Dev.flipMigr (d : Dev) (m : Migr) (now : Nat) : Dev :=
  let rs := d.recs m.ctx
  let d := d.finalCopy m
  let d := if m.dstChip.isSome then d else d.putBlock m.ctx rs true m.dst
  let d := if m.srcChip.isSome then d
    else
      let d := if m.src.tile = m.dst.tile ∧ m.dstChip = none then d
        else (d.projsTo m.src.tile m.src.eng m.src.desc).foldl (fun d p => d.setF NE_PROJ (engIx m.src.tile m.src.eng * 32 + p) NE_PROJ_VALID 0) d
      d.popDrop m.src.tile m.src.eng m.src.desc
  let d := (d.moveBlock m).flipTables m.ctx
  let step := if (d.gen m.ctx).running then 3 else 4
  let d := { d with migrs := d.migrs.map (fun (x : Migr) => if x.ctx = m.ctx then { x with step := step, flipAt := now } else x)
                    evacs := d.evacs.map (fun (v : Evac) => if m.evac = some (v.type, v.index) then { v with moved := v.moved + 1 } else v) }
  let d := d.bump USH_CNT (m.ctx * 9 + 3) 1
  (if m.evac.isSome then d.bump USH_CNT (m.ctx * 9 + 7) 1 else d).migrStatus m.ctx

/-! ## Intermissions -/

/-- The Ringmaster requests an Intermission after tick `n` for a work, when its estimate fits CLP_INTERM_MAX_c (R159, R160): 0 a
migration's final copy, 1 a table switch, 2 a fabric-wide one. A final copy shares none with an Intermission-mode sweep (R227). -/
def Dev.requestInter (d : Dev) (c n work est now : Nat) : Dev :=
  let g := d.gen c
  let max := d.fld CLP_INTERM_MAX c CLP_INTERM_MAX_INTERM_MAX
  if g.running ∧ max ≠ 0 ∧ est ≤ max ∧ tickGe n (d.tickOf c) ∧ !(g.interReq.any (fun r => r.2.1 == work))
    ∧ !(work = 0 ∧ d.sweepInter c n) then
    d.setGen c { g with interReq := g.interReq ++ [(n % tickMod, work, now)] }
  else d

/-- INTERMISSION_REQUEST (R159, R160): for a migration whose background copy has ended, a switch or rebuild that waits, or the
lead chip's announcement. -/
def execIntermissionRequest (c : Ctx) (tick : Nat) (work : Fin 3) (est now : Nat) (s : State) :
    Host.Outcome State Fault Refusal :=
  run (fun d =>
    let due : Bool := match work.val with
      | 0 => d.migrs.any (fun m => m.ctx == c.val && m.step == 2 && m.copied)
      | 1 => d.cmds.any (fun x => x.wait == .flip c) || d.newFlows.any (fun x => x.1 == c.val)
      | _ => true
    if due then d.requestInter c tick work est now else d) s

/-- Commands that wait for a context's flip end with the new version and the tick (R382). -/
def Dev.flipDone (d : Dev) (c : Nat) : Dev :=
  (d.cmds.filter (fun x => x.wait == .flip c)).foldl (fun d x => d.ok x.id (leBytes 1 (d.midVer 0 c) ++ leBytes 6 (d.tickOf c))) d

/-- The work that an Intermission runs once it is open. -/
def Dev.interDo (d : Dev) (c work now : Nat) : Dev :=
  match work with
  | 0 => match d.migrs.find? (fun m => m.ctx == c && m.step == 2 && m.copied && !m.crosses) with
    | some m => d.flipMigr m now
    | none => d
  | 1 => (d.flipTables c).flipDone c
  | 2 => match d.migrs.find? (fun m => m.ctx == c && m.step == 2 && m.copied && m.crosses) with
    | some m => d.flipMigr m now
    | none => d.flipTables c
  | _ => (List.range 32).foldl (fun d t =>
      let x := d.tc t c
      let n := d.tickOf c
      let k := (n - x.base) / x.len
      if d.sweepInterm c n t ∧ !(d.sweepAsked t c k) then d.queueSweep t c k x.since else d) d

/-- INTERMISSION_OPEN: once the last tick is update-complete and drained, for a fabric-wide one with its drain tokens, each
engine flushes the gather state it holds of the context and the work begins (R116, R159, R307). Work 3 is the standing request
of Intermission-mode sweeps (R186). DEDUCED, log entry 24. -/
def execIntermissionOpen (c : Ctx) (now : Nat) (s : State) : Host.Outcome State Fault Refusal :=
  run (fun d =>
    let g := d.gen c
    let n := d.tickOf c
    if g.interOpen ∨ !g.upd ∨ !g.drained then d
    else
      let next := match g.interReq.find? (fun r => r.1 == n) with
        | some r => some (r.2.1, r.2.2)
        | none => if d.sweepInter c n then some (3, g.drainEdge) else none
      match next with
      | none => d
      | some (work, at_) =>
        let quiet := match work with
          | 0 => d.migrs.all (fun m => m.ctx != c.val || (d.tileQuiet c m.src.tile && d.tileQuiet c m.dst.tile))
          | 2 => d.tokensIn c n
          | _ => true
        if !quiet then d
        else
          let d := d.putGen c { g with interOpen := true, interWork := work, interFrom := max g.drainEdge at_
                                       interReq := g.interReq.filter (fun r => !(r.1 == n && r.2.1 == work)), interGo := work != 2 }
          (d.flushContext c).interDo c work now) s

/-- Step 3 of a context's migration ends with its Intermission: the hold-over follows (R224). -/
def Dev.endStep3 (d : Dev) (c : Nat) : Dev :=
  ({ d with migrs := d.migrs.map (fun (x : Migr) => if x.ctx = c ∧ x.step = 3 then { x with step := 4 } else x) }).migrStatus c

/-- INTERMISSION_DONE: the work reports done; the length is counted and compared with CLP_INTERM_MAX_c (R159, R160, R307). -/
def execIntermissionDone (c : Ctx) (now : Nat) (s : State) : Host.Outcome State Fault Refusal :=
  run (fun d =>
    let g := d.gen c
    let sweeping := (List.range 32).any (fun t =>
      (d.tum t).sweepQ.any (fun q => q.1 == c.val) || (d.tum t).sweep.any (fun x => x.ctx == c.val))
    if !g.interOpen ∨ !g.interGo ∨ (g.interWork = 3 ∧ sweeping) then d
    else
      let len := now - g.interFrom
      let d := (d.putGen c { g with interOpen := false }).endStep3 c
      let d := (d.bump CLP_CNT (c * 10 + 5) 1).bump CLP_CNT (c * 10 + 6) len
      if len > d.fld CLP_INTERM_MAX c CLP_INTERM_MAX_INTERM_MAX then (d.bump CLP_CNT (c * 10 + 7) 1).occur 0x3403 1 c srcRm 0
      else d) s

/-! ## Migration's later steps -/

/-- The rows that a background copy has put in the target add what the source's add (R224). -/
def Dev.copyFaithful (d : Dev) (m : Migr) : Bool :=
  let into := fun (b : Block) (key : Nat) => d.rowsInto m.ctx b key (fun x => d.proj b.tile b.eng (rdProj x) NE_PROJ_TPOP == b.desc)
  ((((d.blockRows m.ctx m.src) ++ (d.blockRows m.ctx m.dst)).map rdKey).eraseDups).all (fun k => (into m.src k).isPerm (into m.dst k))

/-- Whether a migration moves the source or a target of a flow of its context (R217). -/
def Dev.movesFlow (d : Dev) (m : Migr) : Bool :=
  (Tab.get [] d.flows m.ctx).any (fun f => f.pop == m.src.pop
    || (d.flowTargets m.ctx f.key f.keys).any (fun x => x.1 == engIx m.src.tile m.src.eng && m.srcChip.isNone))

/-- What step 2 has written when it ends: rows, image, source-index entries and the new table entries, whose rows and coverage are those
of a copy; with the schedule rebuilt if a flow moves (R217, R224). -/
def Dev.backgroundCopied (d : Dev) (m : Migr) : Option Dev :=
  let c := m.ctx
  let rs := d.recs c
  let all := (d.moveBlock m).blocks
  let p := { m.plan with blocks := Tab.get [] all c, away := Tab.get [] (d.moveBlock m).away c }
  let d' : Dev := match m.dstChip, m.srcChip with
    | some k, _ => m.plan.mem.foldl (fun (d : Dev) (x : Nat × List Byte) => d.bulkTo c k x.1 x.2) d
    | none, some _ => d
    | none, none => (d.putPlan rs m.plan).setSpillMax m.dst.tile m.dst.eng
  let d' := d'.putTables c m.plan
  let e := d'.committed
  if !(m.crosses || e.copyFaithful m) ∨ (e.fanCovers c (fun t => 1 - d.midVer t c) rs p).isSome
    ∨ (e.rimCovers c (fun t => 1 - d.midVer t c) (1 - d.rimVer c) rs p).isSome then none
  else
    let d' := { d' with migrs := d'.migrs.map (fun (x : Migr) => if x.ctx = c then { x with copied := true } else x) }
    if !(d.movesFlow m) then some (d'.copySlots c)
    else
      let (fs, d') := (d'.clearFlows c (fun t => 1 - d.midVer t c)).admitAll c rs p.blocks (flowOrder rs) []
      some ((d'.holdFlows c fs).bump USH_CNT (c * 9 + 8) 1)

/-- BACKGROUND_COPY_DONE: step 2 ends; the final copy's Intermission is requested, or for a stopped context step 3 runs at once; a move
between chips waits for the lead chip's Intermission. An uncorrectable error in the target abandons the migration, and Usher starts it
to another target, one of `moves` (R217, R224, R227, R232). -/
def execBackgroundCopyDone (c : Ctx) (ok : Bool) (est now : Nat) (moves : List Move) (s : State) : Host.Outcome State Fault Refusal :=
  run (fun d =>
    match d.migrs.find? (fun m => m.ctx == c.val && m.step == 2) with
    | none => d
    | some m =>
      let go := fun (d : Dev) =>
        if (d.gen c).running then (if m.crosses then d else d.requestInter c (d.tickOf c) 0 est now)
        else if d.tileQuiet c m.src.tile && d.tileQuiet c m.dst.tile then d.flipMigr { m with copied := true } now else d
      if m.copied then go d
      else if !ok then
        (moves.filter (fun x => x.ctx == c.val && x.pop == m.src.pop && x.first == m.src.first)).foldl (fun d x =>
          d.startMigr x m.evac [(m.dst.tile, m.dst.eng)]) (d.abandonMigr m)
      else if !(d.tablesFree c) then d
      else match d.backgroundCopied m with
        | some d' => go d'
        | none => d) s

/-- A block of a unit being evacuated that no engine can take, with its context (R229). -/
def Dev.evacStuck (d : Dev) (v : Evac) : Option (Nat × Block) :=
  (List.range 8).findSome? (fun c => ((Tab.get [] d.blocks c).find? (fun b => blockIn v.type v.index b
    && !(d.migrs.any (fun m => m.ctx == c && m.src == b)) && d.noTarget c b)).map (fun b => (c, b)))

/-- An evacuation ends: once no block of any context is left in the unit it goes Out and its command completes; when no target exists
for some block the command ends INFEASIBLE, what has moved stays moved and the unit returns to In service (R212, R229).
DEDUCED, log entry 21. -/
def Dev.evacEnd (d : Dev) (v : Evac) : Dev :=
  let waiting := d.cmds.filter (fun x => x.wait == .evacuate v.type v.index)
  match d.evacStuck v with
  | some (c, b) =>
    let d := ({ d with evacs := d.evacs.filter (fun x => x != v) }).moveUnit v.type v.index 0 0
    let pinned := (List.range 288).all (fun k => blockIn v.type v.index { b with tile := k / 9, eng := k % 9 }
      || !((d.pinOf c (d.recs c) b.pop).testBit (k / 9)) || !(d.placeable (k / 9) (k % 9)))
    waiting.foldl (fun d x => d.infeasible x.id c (unitReason (if pinned then 0xE else 1) (d.recs c) b.pop b.tile b.eng)) d
  | none =>
    if (List.range 8).any (fun c => (Tab.get [] d.blocks c).any (blockIn v.type v.index))
      ∨ d.migrs.any (fun m => m.evac == some (v.type, v.index)) then d
    else
      let d := { d with evacs := d.evacs.filter (fun x => x != v) }
      let d := d.moveUnit v.type v.index 2 (d.unit v.type v.index).2
      waiting.foldl (fun d x => d.ok x.id (leBytes 4 v.moved)) d

/-- Migrations of blocks that lie in a unit being evacuated start (R229). -/
def Dev.startEvacs (d : Dev) (moves : List Move) : Dev :=
  moves.foldl (fun (d : Dev) x =>
    match (Tab.get [] d.blocks x.ctx).find? (fun b => b.pop == x.pop && b.first == x.first) with
    | some b => match d.evacs.find? (fun v => blockIn v.type v.index b) with
      | some v => d.startMigr x (some (v.type, v.index)) []
      | none => d
    | none => d) d

/-- What a migrated block had in its old engine is freed at the end of the hold-over: rows, projections, bounds; an engine left without
a population becomes its tile's spare if it is In service and the tile has none (R29, R226). -/
def Dev.freeSource (d : Dev) (m : Migr) : Dev :=
  let c := m.ctx
  let t := m.src.tile
  let e := m.src.eng
  let ps := (List.range 32).filter (fun p => d.proj t e p NE_PROJ_TPOP == m.src.desc && Tab.get 0 d.projRec (engIx t e * 32 + p) != 0)
  let d : Dev := ((d.sidxOf t e c).filter (fun i => ps.contains (rdProj (d.sidx t e i)))).foldl (fun (d : Dev) i => d.sidxDrop t e i) d
  let d : Dev := ps.foldl (fun (d : Dev) p => d.projDrop t e p) d
  let d := if d.holds t e c then d else d.boundsDrop t e c
  let d : Dev := { d with migrs := d.migrs.filter (fun (x : Migr) => x.ctx != c) }
  let empty : Bool := (List.range 64).all (fun n => !((d.popCommitted t e n).valid))
  (if empty ∧ (d.unit 1 (engIx t e)).1 = 0 ∧ (d.spares t).isEmpty then d.moveUnit 1 (engIx t e) 4 0 else d).migrStatus c

/-- HOLD_OVER_END: 2 × USH_INFLIGHT_MAX_c after the flip the old engine's memory is freed; an engine left without a population
is the tile's spare if it is healthy and the tile has none, and one that is retired goes Out (R226, R229). `moves` starts what the
evacuation moves next; `own` is Usher's estimate of the longest in-flight time, used when the register is 0 (R234). -/
def execHoldOverEnd (c : Ctx) (now own : Nat) (moves : List Move) (s : State) : Host.Outcome State Fault Refusal :=
  run (fun d =>
    let max_ := d.fld USH_INFLIGHT_MAX c USH_INFLIGHT_MAX_TB
    let hold := 2 * (if max_ = 0 then own else max_)
    match d.migrs.find? (fun m => m.ctx == c.val && m.step == 4) with
    | none => d
    | some m =>
      if now < m.flipAt + hold then d
      else
        let d := if m.srcChip.isSome then { d with migrs := d.migrs.filter (fun (x : Migr) => x.ctx != c.val) }.migrStatus c else d.freeSource m
        let d := d.copySlots c
        let d := d.startEvacs moves
        d.evacs.foldl (fun d v => d.evacEnd v) d) s

/-! ## Tiering -/

/-- A source-index entry is rewritten whole, with its copy in the image (R97, R130). -/
def Dev.setSidx (d : Dev) (t e i : Nat) (x : Nat) : Dev :=
  let a := engBase t e + 0x280000 + i * 16
  (d.st a 16 x).st (d.imageOf t a) 16 x

/-- A row descriptor with SPILL and ADDR replaced. -/
def rdMoved (x : BitVec 128) (spill : Bool) (addr : Nat) : Nat :=
  let m : BitVec 128 := BitVec.ofNat 128 (2 ^ 88 + (2 ^ 30 - 1) * 2 ^ 45)
  ((x &&& ~~~ m) ||| BitVec.ofNat 128 ((if spill then 2 ^ 88 else 0) + addr % 2 ^ 30 * 2 ^ 45)).toNat

/-- Whether on-die words are free for a promotion: in the context's bounds, below the landing buffers, apart from every row and
demoted row there (R219, R221, R222). -/
def Dev.wordsFree (d : Dev) (t e c a n : Nat) : Bool :=
  (match d.bounds t e c with
    | some b => decide (NE_BOUNDS_SMEM_LO.get b ≤ a) && decide (a + n ≤ NE_BOUNDS_SMEM_HI.get b + 1)
    | none => false)
  && decide (a + n ≤ 32768 - 64 * d.spillMax t e)
  && (d.validEntries t e).all (fun i =>
    let x := d.sidx t e i
    rdSpill x || apart a n (rdAddr x) (rowWords (rdFmt x) (rdLen x)))
  && d.demoted.all (fun x => x.tile != t || x.eng != e || apart a n x.word x.words)

/-- A promotion (R221, R223): a spilled row fetched often, into on-die words and the image, then its descriptor with SPILL = 0. -/
def Dev.promote (d : Dev) (r : RowMove) : Dev :=
  let x := d.sidx r.tile r.eng r.index
  let c := rdCtx x
  let n := rowWords (rdFmt x) (rdLen x)
  if r.tile < 32 ∧ r.eng < 9 ∧ r.index < 8192 ∧ rdBits x 95 95 = 1 ∧ rdSpill x ∧ d.flag USH_CTRL c USH_CTRL_PROMOTE_EN
    ∧ d.flag USH_CTRL c USH_CTRL_REBAL_EN ∧ d.fetchedOften r.tile r.eng r.index ∧ d.wordsFree r.tile r.eng c r.addr n then
    let a := engBase r.tile r.eng + r.addr * 64
    let bs := d.ldBytes ((d.spillPart c).1 + rdAddr x * 64) (64 * n)
    let d := (d.stBytes a bs).stBytes (d.imageOf r.tile a) bs
    (d.setSidx r.tile r.eng r.index (rdMoved x false r.addr)).bump USH_CNT (c * 9 + 5) 1
  else d

/-- Start of a context's home part (R541). -/
def Dev.homePart (d : Dev) (c : Nat) : Nat := d.fld MEM_CTX c MEM_CTX_BASE * 2 ^ 26

/-- Whether units `a` to `a` + `n` − 1 of a context's spill part exist and hold no spilled row. -/
def Dev.spillRoom (d : Dev) (c a n : Nat) : Bool :=
  decide ((a + n) * 64 ≤ (d.spillPart c).2)
  && (List.range 288).all (fun k => (d.rowsIn (k / 9) (k % 9) c).all (fun x => !rdSpill x || apart a n (rdAddr x) (rdWords x)))

/-- Whether a row finds on-die words: at the start of the context's bounds or after some row (R221, R222). -/
def Dev.roomOnDie (d : Dev) (t e c n : Nat) : Bool :=
  let starts := (match d.bounds t e c with | some b => [NE_BOUNDS_SMEM_LO.get b] | none => [])
    ++ (List.range 8).flatMap (fun k => ((d.rowsIn t e k).filter (fun x => !rdSpill x)).map (fun x => rdAddr x + rdWords x))
  starts.any (fun a => d.wordsFree t e c a n)

/-- Whether a row may be demoted for the one that `r` names: that one is to be promoted and finds no words, and this one's heat is below
half of its (R222). -/
def Dev.makesRoom (d : Dev) (r : RowMove) : Bool :=
  let x := d.sidx r.tile r.eng r.index
  let y := d.sidx r.tile r.eng r.roomFor
  decide (r.roomFor < 8192) && rdBits y 95 95 == 1 && rdSpill y && rdCtx y == rdCtx x && d.fetchedOften r.tile r.eng r.roomFor
  && d.flag USH_CTRL (rdCtx x) USH_CTRL_REBAL_EN && !(d.roomOnDie r.tile r.eng (rdCtx x) (rdWords y)) && d.hotter (rdCtx x) 2 y x

/-- On-die words of a demoted row are held. -/
def Dev.holdWords (d : Dev) (x : Demoted) : Dev := { d with demoted := d.demoted ++ [x] }

/-- A demotion (R222): the spill copy, with its home copy where the context mirrors, then the descriptor with SPILL = 1; the
on-die words stay held. -/
def Dev.demoteRow (d : Dev) (r : RowMove) : Dev :=
  let x := d.sidx r.tile r.eng r.index
  let c := rdCtx x
  let n := rowWords (rdFmt x) (rdLen x)
  let start := (d.spillPart c).1
  if r.tile < 32 ∧ r.eng < 9 ∧ r.index < 8192 ∧ rdBits x 95 95 = 1 ∧ !(rdSpill x) ∧ d.maySpill r.tile r.eng x ∧ n ≤ 64
    ∧ d.flag USH_CTRL c USH_CTRL_PROMOTE_EN ∧ d.makesRoom r ∧ d.spillRoom c r.addr n then
    let bs := d.ldBytes (engBase r.tile r.eng + rdAddr x * 64) (64 * n)
    let d := d.stBytes (start + r.addr * 64) bs
    let d := if (d.bounds r.tile r.eng c).any (fun b => NE_BOUNDS_SPILL_MIRROR.get b == 1) then
        d.stBytes (d.homePart c + r.addr * 64) bs else d
    let d := d.setSidx r.tile r.eng r.index (rdMoved x true r.addr)
    let d := d.holdWords { ctx := c, tile := r.tile, eng := r.eng, word := rdAddr x, words := n }
    let d := if d.spillMax r.tile r.eng = 0 then d.spillMaxTo r.tile r.eng 4 else d
    (d.setF USH_SPILL c USH_SPILL_USED (max (d.fld USH_SPILL c USH_SPILL_USED) (r.addr + n))).bump USH_CNT (c * 9 + 6) 1
  else d

/-- DEMOTE_FREE: words of rows demoted at least one drained tick of each parity ago are freed (R222). -/
def execDemoteFree (s : State) : Host.Outcome State Fault Refusal :=
  run (fun d => { d with demoted := d.demoted.filter (fun x => x.seen != 3) }) s

/-- Whether Usher moves a block in a rebalance period (R218, R223): with REBAL_EN, first the blocks that break a pin and that some engine
can take, else one out of an overloaded engine; a block that another chip gives up is taken (R232). -/
def Dev.mayRebalance (d : Dev) (m : Move) : Bool :=
  let bs := Tab.get [] d.blocks m.ctx
  let breaks := fun (b : Block) => !((d.pinOf m.ctx (d.recs m.ctx) b.pop).testBit b.tile) && !(d.noTarget m.ctx b)
  d.flag USH_CTRL m.ctx USH_CTRL_REBAL_EN
  && (match bs.find? (fun b => b.pop == m.pop && b.first == m.first) with
    | some b => if bs.any breaks then breaks b else d.overloaded m.ctx b.tile b.eng
    | none => m.chip.isSome)

/-- REBALANCE_PERIOD: evacuations go on; then what Usher decides from the latest dumps every USH_PERIOD: at most one migration per
context, demotions and promotions, and a new period of sampled fetches (R218, R219, R221 to R223, R229); none while the device is
below Doze. -/
def execRebalancePeriod (moves : List Move) (promotions demotions : List RowMove) (s : State) : Host.Outcome State Fault Refusal :=
  run (fun d =>
    let d := d.startEvacs moves
    if d.fld USH_PERIOD 0 USH_PERIOD_MS = 0 ∨ d.fld PWR_STATUS 0 PWR_STATUS_STATE > 1 then d
    else
      let d := moves.foldl (fun d m => if d.mayRebalance m then d.startMigr m none [] else d) d
      let d := promotions.foldl (fun d r => d.promote r) (demotions.foldl (fun d r => d.demoteRow r) d)
      let d := promotions.foldl (fun d r => if r.tile < 32 ∧ r.eng < 9 then d.setSpillMax r.tile r.eng else d) d
      { d with samples := [] }) s

/-! ## The schedule and the fabric -/

/-- The entries of a context in the selected version are copied into the deselected one. -/
def Dev.copyTables (d : Dev) (c : Nat) : Dev :=
  let d := (List.range 32).foldl (fun d t =>
    let v := d.midVer t c
    let b := d.fld MID_FT_REGION (t * 8 + c) MID_FT_REGION_BASE
    let n := d.fld MID_FT_REGION (t * 8 + c) MID_FT_REGION_COUNT
    d.copyBytes (ftAddr t v b) (ftAddr t (1 - v) b) (n * 16)) d
  let v := d.rimVer c
  let b := d.fld RIM_TAB_REGION c RIM_TAB_REGION_BASE
  let n := d.fld RIM_TAB_REGION c RIM_TAB_REGION_COUNT
  { d with rimTab := (List.range n).foldl (fun m i => Tab.set 0 m ((1 - v) * 16384 + b + i) (Tab.get 0 d.rimTab (v * 16384 + b + i))) d.rimTab }

/-- SCHEDULE_REBUILD: the class-0 schedule is rebuilt in the inactive version and takes effect at the flip, which a running
context makes in an Intermission (R217). DEDUCED, log entry 24. -/
def execScheduleRebuild (c : Ctx) (est now : Nat) (s : State) : Host.Outcome State Fault Refusal :=
  run (fun d =>
    let rs := d.recs c
    if (Tab.get [] d.flows c).isEmpty ∨ !(d.tablesFree c) then d
    else
      let d' := (d.copyTables c).clearFlows c (fun t => 1 - d.midVer t c)
      let (fs, d') := d'.admitAll c rs (Tab.get [] d.blocks c) (flowOrder rs) []
      let d' := (d'.holdFlows c fs).bump USH_CNT (c * 9 + 8) 1
      if (d.gen c).running then d'.requestInter c (d.tickOf c) 1 est now else d'.flipTables c) s

/-- LOAD_SUMMARY_EXCHANGE: under L-FAB, a load summary to the chip on each port that is up (R232). -/
def execLoadSummaryExchange (q : Fin 16) (payload : List Byte) (s : State) : Host.Outcome State Fault Refusal :=
  run (fun d =>
    if (d.fld SEC_LIC 0 SEC_LIC_FEATURES).testBit 2 ∧ d.fld USH_PERIOD 0 USH_PERIOD_MS ≠ 0 then
      ((List.range 6).filter (fun p => d.portUp p)).foldl (fun d p => d.rmSend (d.neighbourChip p) q payload) d
    else d) s

/-- FABRIC_INTERMISSION_ANNOUNCE: the lead chip names a tick at least 2 × the largest marker distance ahead, sends it to every
chip of the context and requests its own Intermission (R232, R307). DEDUCED, log entry 24. -/
def execFabricIntermissionAnnounce (c : Ctx) (tick dist est now : Nat) (chips : List (BitVec 15)) (q : Fin 16) (payload : List Byte)
    (s : State) : Host.Outcome State Fault Refusal :=
  run (fun d =>
    if (d.fld SEC_LIC 0 SEC_LIC_FEATURES).testBit 2 ∧ tickGe tick (d.tickOf c + 2 * dist) then
      let d := d.setGen c { d.gen c with reports := (chips.map (·.toNat)).filter (· != d.chipId) }
      (chips.foldl (fun d x => d.rmSend x.toNat q payload) d).requestInter c tick 2 est now
    else d) s

/-- FABRIC_INTERMISSION_DONE: a chip reports to the lead chip that its work is done, or that it missed the tick, and then forgets
the request (R307). -/
def execFabricIntermissionDone (c : Ctx) (late : Bool) (lead : BitVec 15) (q : Fin 16) (payload : List Byte) (s : State) :
    Host.Outcome State Fault Refusal :=
  run (fun d =>
    let g := d.gen c
    let missed := g.interReq.any (fun r => r.2.1 == 2 && !(tickGe r.1 (d.tickOf c)))
    if late then
      if missed then (d.setGen c { g with interReq := g.interReq.filter (fun r => r.2.1 != 2) }).rmSend lead.toNat q payload else d
    else if g.interOpen ∧ g.interWork = 2 then d.rmSend lead.toNat q payload else d) s

/-- FABRIC_INTERMISSION_GO: the lead chip, once every chip it named has reported, sends go to every chip, or a chip has it: tick n + 1 may
start (R307). PRESUMED, log entry 35. -/
def execFabricIntermissionGo (c : Ctx) (chips : List (BitVec 15)) (q : Fin 16) (payload : List Byte) (s : State) :
    Host.Outcome State Fault Refusal :=
  run (fun d =>
    let g := d.gen c
    if g.interOpen ∧ g.interWork = 2 ∧ g.reports.isEmpty then
      chips.foldl (fun d x => d.rmSend x.toNat q payload) (d.setGen c { g with interGo := true })
    else d) s

/-! ## Table commands -/

/-- One entry of TABLE_UPDATE in the context's deselected version: none where the entry is out of its range, else whether it was taken
(R263, R318). -/
def Dev.tableEntry (d : Dev) (c : Nat) (priv : Bool) (table t i : Nat) (bs : List Byte) : Option (Bool × Dev) :=
  let x := leNat bs
  match table with
  | 0 =>
    if i < d.fld MID_FT_REGION (t * 8 + c) MID_FT_REGION_COUNT then
      some (d.ftWrite t (1 - d.midVer t c) (d.fld MID_FT_REGION (t * 8 + c) MID_FT_REGION_BASE + i) x)
    else none
  | 1 =>
    if i < d.fld RIM_TAB_REGION c RIM_TAB_REGION_COUNT then
      some (d.rimWrite (1 - d.rimVer c) (d.fld RIM_TAB_REGION c RIM_TAB_REGION_BASE + i) x)
    else none
  | _ =>
    let v := 1 - d.midVer t c
    let old := d.fld MID_SLOT_APER (slotIx t v (i / 64) (i % 64)) MID_SLOT_APER_FLOW
    let mine := fun f => f == 0xFFFF || f / 8192 == c
    if i < 256 ∧ (priv ∨ (mine old ∧ mine (x % 65536))) then some (d.slotWrite t v (i / 64) (i % 64) (x % 65536)) else none

/-- A write of a context's table that its version does not take: it sets WR_BUSY of the tile or the rim (R263, R318). -/
def Dev.tableBusy (d : Dev) (table t : Nat) : Dev :=
  if table = 1 then d.setF RIM_STATUS 0 RIM_STATUS_WR_BUSY 1 else d.setF MID_STATUS t MID_STATUS_WR_BUSY 1

/-- TABLE_UPDATE: COUNT entries at ADDR into the version not selected for the context (R384, R389). -/
def execTableUpdate (id : Nat) (data : Option (List Byte)) (s : State) : Host.Outcome State Fault Refusal :=
  run (fun d => d.ctxCommand id 0x28 .feeds [] (fun cmd d =>
    let c := cmd.ctx
    let table := cmd.p 8 1
    let t := cmd.p 9 1
    let first := cmd.p 10 2
    let n := cmd.p 12 2
    let size := if table = 2 then 2 else 16
    if table > 2 then d.outOfRange id 8
    else if table ≠ 1 ∧ t > 31 then d.outOfRange id 9
    else if n = 0 then d.ok id [0, 0]
    else d.unlessNap id (table != 1) t 0xFF (fun d =>
      if (if table = 1 then !(d.rimWritable c (1 - d.rimVer c)) else !(d.midWritable t c (1 - d.midVer t c))) then (d.tableBusy table t).busy id
      else d.withData cmd 0 (n * size) data (fun bs =>
      let entries := (List.range n).map (fun k => (first + k, slice bs (k * size) size))
      if entries.any (fun e => (d.tableEntry c cmd.priv table t e.1 e.2).isNone) then d.outOfRange id (if table = 2 then 0 else 12)
      else if entries.any (fun e => (d.tableEntry c cmd.priv table t e.1 e.2).any (fun r => !r.1)) then (d.tableBusy table t).busy id
      else
        let d := entries.foldl (fun (d : Dev) e => ((d.tableEntry c cmd.priv table t e.1 e.2).map (·.2)).getD d) d
        d.ok id (leBytes 2 n))))) s

/-- TABLE_SWITCH: a stopped context flips at once, a running one in an Intermission (R264, R384). -/
def execTableSwitch (id est now : Nat) (s : State) : Host.Outcome State Fault Refusal :=
  run (fun d => d.ctxCommand id 0x29 .feeds [] (fun cmd d =>
    let c := cmd.ctx
    if d.migrs.any (fun m => m.ctx == c) then d.busy id
    else d.unlessNap id true 0 0xFF (fun d =>
      if !((d.gen c).running) then ((d.await id (.flip c)).flipTables c).flipDone c
      else if d.fld CLP_INTERM_MAX c CLP_INTERM_MAX_INTERM_MAX = 0 then d.refuse id 0x0104
      else (d.await id (.flip c)).requestInter c (d.tickOf c) 1 est now))) s

end Sys2Proof.Machine
end

