-- ==== Sys2Proof/Machine/Xmss.lean ====
section
/-! DEFINITION. XMSS verification as RFC 8391 and NIST SP 800-208 define it, parameter set XMSS-SHAKE256_20_256 (R448): hash of 32
bytes, Winternitz parameter 16, 67 chains, height 20, a signature of 2,820 bytes and a public key of 68 bytes. -/

namespace Sys2Proof.Machine

/-- A number as `n` big-endian bytes. -/
def beBytes (n v : Nat) : List Byte := (leBytes n v).reverse

/-- The hash functions F (0), H (1), H_msg (2) and PRF (3): SHAKE256 of the 32-byte function number, key and message. -/
def xmssHash (f : Nat) (key m : List Byte) : List Byte := shake256 (beBytes 32 f ++ key ++ m)

/-- A hash-function address: type and words 4 to 7; layer and tree are 0. -/
def xmssAdrs (type a b c km : Nat) : List Byte :=
  beBytes 12 0 ++ beBytes 4 type ++ beBytes 4 a ++ beBytes 4 b ++ beBytes 4 c ++ beBytes 4 km

/-- Bytewise exclusive or. -/
def xorBytes (a b : List Byte) : List Byte := List.zipWith (fun x y => x ^^^ y) a b

/-- `n` steps of a chain from step `i`. -/
def xmssChain (seed : List Byte) (ots chain : Nat) (x : List Byte) (i : Nat) : Nat → List Byte
  | 0 => x
  | n + 1 =>
    let key := xmssHash 3 seed (xmssAdrs 0 ots chain i 0)
    let mask := xmssHash 3 seed (xmssAdrs 0 ots chain i 1)
    xmssChain seed ots chain (xmssHash 0 key (xorBytes x mask)) (i + 1) n

/-- The hash of two nodes under an address of a type. -/
def xmssNode (seed : List Byte) (type a b c : Nat) (l r : List Byte) : List Byte :=
  let key := xmssHash 3 seed (xmssAdrs type a b c 0)
  let m0 := xmssHash 3 seed (xmssAdrs type a b c 1)
  let m1 := xmssHash 3 seed (xmssAdrs type a b c 2)
  xmssHash 1 key (xorBytes l m0 ++ xorBytes r m1)

/-- One level of an L-tree: neighbours are hashed, an odd last node rises. -/
def xmssPairs (seed : List Byte) (lt h : Nat) (i : Nat) : List (List Byte) → List (List Byte)
  | l :: r :: t => xmssNode seed 1 lt h i l r :: xmssPairs seed lt h (i + 1) t
  | l => l

/-- The root of an L-tree over 67 nodes, seven levels. -/
def xmssLtree (seed : List Byte) (lt : Nat) (nodes : List (List Byte)) : List Byte :=
  ((List.range 7).foldl (fun ns h => xmssPairs seed lt h 0 ns) nodes).headD []

/-- The 67 base-16 digits of a digest and its checksum. -/
def xmssDigits (m : List Byte) : List Nat :=
  let ds := m.flatMap (fun b => [b.toNat / 16, b.toNat % 16])
  let c := ds.foldl (fun a x => a + (15 - x)) 0
  ds ++ [c / 256 % 16, c / 16 % 16, c % 16]

/-- Whether a signature of 2,820 bytes by the public key of 68 bytes verifies over a message. DESIGN CHOICE, log entry 26. -/
def xmssVerify (pk m sig : List Byte) : Bool :=
  let root := slice pk 4 32
  let seed := slice pk 36 32
  let idx := leNat (slice sig 0 4).reverse
  let key := slice sig 4 32 ++ root ++ beBytes 32 idx
  let digest := xmssHash 2 key m
  let nodes := (xmssDigits digest).zipIdx.map (fun x => xmssChain seed idx x.2 (slice sig (36 + 32 * x.2) 32) x.1 (15 - x.1))
  let leaf := xmssLtree seed idx nodes
  let top := (List.range 20).foldl (fun n k =>
    let auth := slice sig (2180 + 32 * k) 32
    let i := idx / 2 ^ (k + 1)
    if idx / 2 ^ k % 2 = 0 then xmssNode seed 2 0 k i n auth else xmssNode seed 2 0 k i auth n) leaf
  decide (pk.length = 68) && decide (sig.length = 2820) && decide (idx < 2 ^ 20) && top == root

end Sys2Proof.Machine
end

