-- ==== Sys2Proof/Machine/Submission.lean ====
section
/-! DEFINITION. Submission and completion queues (R366 to R371), taking and checking of command packets (R372 to R375, R377 to
R379), status records (R376), and commands from other chips (R388). Queue q is 0 to 7 for the physical function and 8 + 2c + k for
queue k of VF c. -/

namespace Sys2Proof.Machine

/-- Entries of an SQ or CQ by its SIZE field (R371). -/
def queueEntries (size : Nat) : Nat := if size = 0 then 1 else 2 ^ max 4 (min 12 size)

/-- Context of a VF queue. -/
def queueCtx (q : Nat) : Nat := (q - 8) / 2

/-- Function that serves a queue: the PF, or VF c while it is enabled (R347). -/
def Dev.queueFn (d : Dev) (q : Nat) : Nat := if q < 8 then 0 else d.fnOf (queueCtx q)

/-- The CQ that an SQ names (R366, R371). -/
def Dev.cqOf (d : Dev) (q : Nat) : Nat :=
  let n := d.fld HST_SQ_CTRL q HST_SQ_CTRL_CQ
  if q < 8 then n else 8 + 2 * queueCtx q + min n 1

/-! ## Doorbells and controls -/

/-- A doorbell write of an SQ (R367). -/
def Dev.sqTail (d : Dev) (q tail : Nat) : Dev :=
  if queueEntries (d.fld HST_SQ_CTRL q HST_SQ_CTRL_SIZE) ≤ tail then d.setF HST_SQ_CTRL q HST_SQ_CTRL_ERR 1
  else d.setF HST_SQ_PTR q HST_SQ_PTR_TAIL tail

/-- SQ_TAIL_WRITE: a write of HST_SQ_PTR (R367). -/
def execSqTailWrite (q : Fin 24) (v : W32) (s : State) : Host.Outcome State Fault Refusal :=
  run (fun d => d.sqTail q (HST_SQ_PTR_TAIL.get (v.setWidth 64))) s

/-- HEAD, TAIL and the alive value of an SQ as EN from 0 to 1 leaves them. -/
def Dev.sqFresh (d : Dev) (q : Nat) : Dev :=
  let d := (d.wr HST_SQ_PTR q 0).setF HST_SQ_STATUS q HST_SQ_STATUS_ALIVE_VALID 0
  { d.setF HST_SQ_STATUS q HST_SQ_STATUS_LAST_ALIVE 0 with sqStopped := d.sqStopped.filter (· != q) }

/-- A write of HST_SQ_CTRL (R371, R374). DEDUCED, log entry 23. -/
def Dev.sqCtrl (d : Dev) (q : Nat) (v : W64) : Dev :=
  let was := d.flag HST_SQ_CTRL q HST_SQ_CTRL_EN
  let d := d.store HST_SQ_CTRL q .whole v
  if !was && d.flag HST_SQ_CTRL q HST_SQ_CTRL_EN then d.sqFresh q else d

/-- SQ_CTRL_WRITE. -/
def execSqCtrlWrite (q : Fin 24) (v : W32) (s : State) : Host.Outcome State Fault Refusal :=
  run (fun d => d.sqCtrl q (v.setWidth 64)) s

/-- A CQ as EN from 0 to 1 leaves it: HEAD and TAIL 0, PHASE 1 (R370, R371). -/
def Dev.cqFresh (d : Dev) (n : Nat) : Dev :=
  { d.wr HST_CQ_PTR n 0 with cqs := Tab.set {} d.cqs n {} }

/-- A write of HST_CQ_CTRL; clearing ERR lets a stopped CQ go on (R369, R371). DEDUCED, log entry 23. -/
def Dev.cqCtrl (d : Dev) (n : Nat) (half : Half) (v : W64) : Dev :=
  let was := d.flag HST_CQ_CTRL n HST_CQ_CTRL_EN
  let d := d.store HST_CQ_CTRL n half v
  let d := if d.flag HST_CQ_CTRL n HST_CQ_CTRL_ERR then d else { d with cqStopped := d.cqStopped.filter (· != n) }
  if !was && d.flag HST_CQ_CTRL n HST_CQ_CTRL_EN then d.cqFresh n else d

/-- CQ_CTRL_WRITE. -/
def execCqCtrlWrite (n : Fin 24) (half : Half) (v : W64) (s : State) : Host.Outcome State Fault Refusal :=
  run (fun d => d.cqCtrl n half v) s

/-- A doorbell write of a CQ: records are freed (R368, R371). -/
def Dev.cqHead (d : Dev) (n head : Nat) : Dev :=
  if queueEntries (d.fld HST_CQ_CTRL n HST_CQ_CTRL_SIZE) ≤ head then d.setF HST_CQ_CTRL n HST_CQ_CTRL_ERR 1
  else d.setF HST_CQ_PTR n HST_CQ_PTR_HEAD head

/-- CQ_HEAD_WRITE. -/
def execCqHeadWrite (n : Fin 24) (v : W32) (s : State) : Host.Outcome State Fault Refusal :=
  run (fun d => d.cqHead n (HST_CQ_PTR_HEAD.get (v.setWidth 64))) s

/-! ## The state of a completion queue -/

/-- Whether a CQ is enabled with a non-zero SIZE (R370). -/
def Dev.cqOpen (d : Dev) (n : Nat) : Bool :=
  d.flag HST_CQ_CTRL n HST_CQ_CTRL_EN && d.fld HST_CQ_CTRL n HST_CQ_CTRL_SIZE != 0

/-- Whether a record finds no room (R368). -/
def Dev.cqFull (d : Dev) (n : Nat) : Bool :=
  (d.fld HST_CQ_PTR n HST_CQ_PTR_TAIL + 1) % queueEntries (d.fld HST_CQ_CTRL n HST_CQ_CTRL_SIZE) == d.fld HST_CQ_PTR n HST_CQ_PTR_HEAD

/-- Commands of a queue whose records are not yet written. -/
def Dev.cmdsOf (d : Dev) (q : Nat) : List Cmd := d.cmds.filter (fun c => c.sq == q)

/-- Whether a CQ holds a record for want of room: the SQs that feed it take nothing (R368). -/
def Dev.cqHolds (d : Dev) (n : Nat) : Bool :=
  d.cqFull n && (List.range 24).any (fun q => (d.cmdsOf q).head?.any (fun c => c.cq == n && c.stage == 2))

/-- OUTSTANDING of a queue is shown. -/
def Dev.outstanding (d : Dev) (q : Nat) : Dev :=
  if q < 24 then d.setF HST_SQ_STATUS q HST_SQ_STATUS_OUTSTANDING (d.cmdsOf q).length else d

/-! ## Checks -/

/-- Parameter lengths of an opcode (R382); none for an opcode that is not listed. INDIRECT and the parameters decide MQ_SEND's
(R386). -/
def plenOk (op flags plen : Nat) (params : List Byte) : Option Bool :=
  match op with
  | 0x00 | 0x01 | 0x13 | 0x29 | 0x51 => some (plen == 0)
  | 0x12 => some (plen == 0 || plen == 8)
  | 0x02 | 0x04 | 0x19 | 0x28 => some (plen == 16)
  | 0x03 => some (plen == 24)
  | 0x10 | 0x14 | 0x18 | 0x20 | 0x21 | 0x31 | 0x48 | 0x4B | 0x50 => some (plen == 12)
  | 0x11 | 0x38 => some (plen == 4)
  | 0x15 => some (plen == 2)
  | 0x16 | 0x17 | 0x30 => some (plen == 32)
  | 0x22 | 0x4A => some (plen == 8)
  | 0x40 => some (plen == 20)
  | 0x41 => some (plen == 1)
  | 0x49 => some (plen == 40)
  | 0x58 =>
    if flags / 2 % 2 = 1 then some (plen == 16)
    else let l := mhLen (at_ params 0 8); some (plen == 8 + l && decide (l ≤ 40))
  | _ => none

/-- Opcodes of view P (R382). -/
def privOp (op : Nat) : Bool := [0x20, 0x21, 0x38, 0x40, 0x41, 0x48, 0x4A, 0x4B, 0x50, 0x51].contains op

/-- Opcodes that recovery accepts: by the boot ROM (step 3), or by the boot stage (R462). -/
def recoveryOp (rom : Bool) (op : Nat) : Bool :=
  [0x00, 0x01, 0x02, 0x03, 0x40, 0x41].contains op || (!rom && [0x4A, 0x4B, 0x50].contains op)

/-- Steps 3 to 5 of R373: the status and detail of the first check that fails. -/
def Dev.packetCheck (d : Dev) (c : Cmd) : Option (Nat × Nat) :=
  match plenOk c.opcode c.flags c.plen c.params with
  | none => some (0x0102, 0)
  | some lenOk =>
    let lic := d.fld SEC_LIC 0 SEC_LIC_FEATURES
    let remoteBad := c.remote.any (fun r => r.2.1 != 0 && r.2.1 != 0x3F && !(decide (0x30 ≤ r.2.1) && decide (r.2.1 ≤ 0x37)))
    if remoteBad ∨ (privOp c.opcode ∧ !c.priv) then some (0x0102, 0)
    else if !lenOk then some (0x0103, 0)
    else if (c.opcode = 0x30 ∨ c.opcode = 0x31) ∧ !(lic.testBit 0) then some (0x0301, 0x0100)
    else if c.opcode = 0x11 ∧ (c.p 0 2).testBit 15 ∧ !(lic.testBit 2) then some (0x0301, 0x0100)
    else if d.phase = .recovery ∧ !(recoveryOp (d.fld GLB_BOOT 0 GLB_BOOT_STEP == 3) c.opcode) then some (0x0500, 0x0201)
    else none

/-- A command packet of 64 bytes as a command; parameters beyond PLEN are ignored (R372, R373). -/
def packetCmd (id q cq : Nat) (ctx : Option Nat) (b : List Byte) : Cmd :=
  { id := id, sq := q, cq := cq, opcode := at_ b 0 1, flags := at_ b 1 1, cid := at_ b 2 2,
    ctx := ctx.getD (at_ b 4 1), plen := at_ b 6 2, params := slice b 8 (min 48 (at_ b 6 2)) }

/-- A command with its checks applied (R373, R374): `last` is the kept alive value. Gives the command and whether ALIVE is recorded. -/
def Dev.checked (d : Dev) (c : Cmd) (b : List Byte) (last : Option Nat) : Cmd × Bool :=
  let alive := at_ b 5 1
  if at_ b 60 4 ≠ crc32c (slice b 0 60) then ({ c with stage := 2, status := 0x0100 }, false)
  else if last = some alive then ({ c with stage := 2, status := 0x0001 }, true)
  else
    let c := { c with gap := last.any (fun l => (l + 1) % 256 != alive) }
    match d.packetCheck c with
    | some (st, det) => ({ c with stage := 2, status := st, detail := det }, true)
    | none => (c, true)

/-- The counters of a taken command (R371). DEDUCED, log entry 23. -/
def Dev.countTaken (d : Dev) (c : Cmd) : Dev :=
  let d := if c.gap then d.bump HST_BOX_CNT 4 1 else d
  if c.stage ≠ 2 then d.bump HST_BOX_CNT (if slowOp c.opcode then 1 else 0) 1
  else if c.status = 0x0100 then d.bump HST_BOX_CNT 2 1
  else if c.status = 0x0001 then d.bump HST_BOX_CNT 3 1
  else d

/-- A command joins those taken; one passed on during a Ringmaster restart is held (R381). -/
def Dev.addCmd (d : Dev) (c : Cmd) : Dev :=
  let held := c.stage != 2 && slowOp c.opcode && d.rmRestart
  let d := if held then d.bump HST_BOX_CNT 5 1 else d
  { d.countTaken c with cmds := d.cmds ++ [{ c with held := held }], nextCmd := d.nextCmd + 1 }

/-! ## Taking a command -/

/-- Whether the Box Office serves a queue: READY, or PF SQ 0 in recovery (R458, R462). -/
def Dev.serves (d : Dev) (q : Nat) : Bool := d.phase == .ready || (d.phase == .recovery && q == 0)

/-- Whether an SQ has an entry that may be fetched now (R367 to R370, R378). -/
def Dev.sqTakes (d : Dev) (q : Nat) : Bool :=
  d.serves q && d.flag HST_SQ_CTRL q HST_SQ_CTRL_EN && d.fld HST_SQ_CTRL q HST_SQ_CTRL_SIZE != 0 && !(d.sqStopped.contains q)
  && d.fld HST_SQ_PTR q HST_SQ_PTR_HEAD != d.fld HST_SQ_PTR q HST_SQ_PTR_TAIL
  && d.dmaOk (d.queueFn q) && d.cqOpen (d.cqOf q) && !(d.cqStopped.contains (d.cqOf q)) && !(d.cqHolds (d.cqOf q))
  && decide ((d.cmdsOf q).length < 64)

/-- Whether FENCE lets a command be taken: no fenced command of its queue is unfinished, and a fenced one waits for all (R379).
DEDUCED, log entry 23. -/
def fenceOk (earlier : List Cmd) (flags : Nat) : Bool :=
  earlier.all (fun c => c.stage == 2 || !(flags.testBit 0 || c.flags.testBit 0))

/-- An SQ stops with ERR and an AER entry (R369). -/
def Dev.sqStop (d : Dev) (q : Nat) : Dev :=
  (({ d with sqStopped := d.sqStopped ++ [q] }).setF HST_SQ_CTRL q HST_SQ_CTRL_ERR 1).emitOut (.aer (d.queueFn q) false)

/-- The SQ after an entry is taken: HEAD, the alive value, OUTSTANDING. -/
def Dev.sqTook (d : Dev) (q : Nat) (alive : Option Nat) : Dev :=
  let n := queueEntries (d.fld HST_SQ_CTRL q HST_SQ_CTRL_SIZE)
  let d := d.setF HST_SQ_PTR q HST_SQ_PTR_HEAD ((d.fld HST_SQ_PTR q HST_SQ_PTR_HEAD + 1) % n)
  let d := match alive with
    | some a => (d.setF HST_SQ_STATUS q HST_SQ_STATUS_ALIVE_VALID 1).setF HST_SQ_STATUS q HST_SQ_STATUS_LAST_ALIVE a
    | none => d
  d.outstanding q

/-- COMMAND_TAKE: one entry of an SQ is fetched, checked and executed or passed on; none when the fetch fails (R367 to R381).
DESIGN CHOICE, log entry 3. -/
def execCommandTake (q : Fin 24) (packet : Option (List Byte)) (s : State) : Host.Outcome State Fault Refusal :=
  run (fun d =>
    if !(d.sqTakes q) then d
    else match packet with
      | none => d.sqStop q
      | some b =>
        let b := (b ++ List.replicate 64 0).take 64
        if !(fenceOk (d.cmdsOf q) (at_ b 1 1)) then d
        else
          let n := queueEntries (d.fld HST_SQ_CTRL q HST_SQ_CTRL_SIZE)
          let c := packetCmd d.nextCmd q (d.cqOf q) (if q.val < 8 then none else some (queueCtx q)) b
          let last := if d.flag HST_SQ_STATUS q HST_SQ_STATUS_ALIVE_VALID then some (d.fld HST_SQ_STATUS q HST_SQ_STATUS_LAST_ALIVE) else none
          let (c, rec_) := d.checked { c with head := (d.fld HST_SQ_PTR q HST_SQ_PTR_HEAD + 1) % n } b last
          (d.addCmd c).sqTook q (if rec_ then some (at_ b 5 1) else none)) s

/-! ## Status records -/

/-- A status record without PHASE set (R376). -/
def Cmd.record (c : Cmd) (phase : Bool) : List Byte :=
  let sq := if c.sq < 8 then c.sq else if c.sq < 24 then (c.sq - 8) % 2 else 0
  let bit := fun (b : Bool) n => if b then n else 0
  let flags := bit c.gap 1 + bit c.remote.isSome 2 + bit c.held 4
  let body := leBytes 2 c.cid ++ leBytes 2 c.status ++ leBytes 1 sq ++ leBytes 1 c.opcode ++ leBytes 2 c.head
    ++ (c.result ++ List.replicate 16 0).take 16 ++ leBytes 2 c.detail ++ leBytes 1 flags ++ leBytes 1 (bit phase 128)
  body ++ leBytes 4 (crc32c body)

/-- A CQ signals its vector (R368). -/
def Dev.cqSignal (d : Dev) (n : Nat) : Dev :=
  let st := Tab.get ({} : CqState) d.cqs n
  let d := { d with cqs := Tab.set {} d.cqs n { st with since := 0 } }
  let iv := d.fld HST_CQ_CTRL n HST_CQ_CTRL_IV
  let c := queueCtx n
  if n < 8 ∨ !(d.vfOn c) then d.msix 0 (if iv = 0 then 1 else iv) else d.msix (1 + c) (if iv > 3 then 0 else iv)

/-- CQ_SIGNAL_TIMER: TIMER_US after the first record not yet signalled (R368). -/
def execCqSignalTimer (n : Fin 24) (s : State) : Host.Outcome State Fault Refusal :=
  run (fun d =>
    if d.fld HST_CQ_CTRL n HST_CQ_CTRL_TIMER_US ≠ 0 ∧ 0 < (Tab.get ({} : CqState) d.cqs n).since then d.cqSignal n else d) s

/-- A record is written at TAIL, and the queue signals by THRESH (R368). -/
def Dev.cqWrite (d : Dev) (n : Nat) (c : Cmd) : Dev :=
  let st := Tab.get ({} : CqState) d.cqs n
  let size := queueEntries (d.fld HST_CQ_CTRL n HST_CQ_CTRL_SIZE)
  let tail := d.fld HST_CQ_PTR n HST_CQ_PTR_TAIL
  let d := d.hostW (d.fld HST_CQ_BASE n HST_CQ_BASE_ADDR * 4096 + 32 * tail) (c.record st.phase)
  let next := (tail + 1) % size
  let d := d.setF HST_CQ_PTR n HST_CQ_PTR_TAIL next
  let d := { d with cqs := Tab.set {} d.cqs n ⟨if next = 0 then !st.phase else st.phase, st.since + 1⟩ }
  if st.since + 1 ≥ max 1 (d.fld HST_CQ_CTRL n HST_CQ_CTRL_THRESH) then d.cqSignal n else d

/-- A command leaves the Box Office. -/
def Dev.dropCmd (d : Dev) (c : Cmd) : Dev :=
  ({ d with cmds := d.cmds.filter (fun x => x.id != c.id) }).outstanding c.sq

/-- The reply to a remote command: a 32-byte message to the sender's queue (R388). -/
def Dev.remoteReply (d : Dev) (c : Cmd) : Dev :=
  match c.remote with
  | some (chip, agent, q) =>
    let hdr := 32 * 2 ^ 40 + agent % 64 * 2 ^ 32 + q % 16 * 2 ^ 28 + chip % 2 ^ 15
    (d.mqSend 0 hdr (c.record false) 0).dropCmd c
  | none => d.dropCmd c

/-- Waits that the drain of a context, or its last stepped tick, ends (R383). -/
def Dev.settle (d : Dev) : Dev :=
  d.cmds.foldl (fun d x =>
    match x.wait with
    | .drained c =>
      let g := d.gen c
      if g.upd && g.drained && !(g.interOpen && g.interWork == 0) then d.finish x.id 0 0 (leBytes 6 (d.tickOf c)) else d
    | .stepped c last =>
      if (d.gen c).upd && tickGe (d.tickOf c) last then d.finish x.id 0 0 (leBytes 6 last) else d
    | _ => d) d

/-- The oldest command of a queue, or of a remote sender whose oldest has ended. -/
def Dev.nextRecord (d : Dev) (q : Nat) : Option Cmd :=
  let l := d.cmdsOf q
  if q < 24 then l.head?
  else l.find? (fun c => c.stage == 2 && !(l.any (fun b => decide (b.id < c.id)
    && b.remote.map (fun r => (r.1, r.2.1)) == c.remote.map (fun r => (r.1, r.2.1)))))

/-- The record of the oldest command of queue q (24: remote commands) is written once it has ended and its CQ has room; `ok` is false
when the write fails, which stops the CQ (R368 to R370, R376, R378, R388). -/
def Dev.recordWrite (d : Dev) (q : Nat) (ok : Bool) : Dev :=
  let d := d.settle
  match d.nextRecord q with
  | none => d
  | some c =>
    if c.stage ≠ 2 then d
    else if c.remote.isSome then d.remoteReply c
    else if !(d.cqOpen c.cq) ∨ d.cqStopped.contains c.cq ∨ d.cqFull c.cq ∨ !(d.dmaOk (d.queueFn c.cq)) then d
    else if ok then (d.cqWrite c.cq c).dropCmd c
    else (({ d with cqStopped := d.cqStopped ++ [c.cq] }).setF HST_CQ_CTRL c.cq HST_CQ_CTRL_ERR 1).emitOut (.aer (d.queueFn c.cq) false)

/-! ## Remote commands -/

/-- ALIVE of a remote sender is recorded, most recent first, for 64 senders (R388). -/
def Dev.heard (d : Dev) (chip agent alive : Nat) : Dev :=
  { d with remoteAlive := ((chip, agent, alive) :: d.remoteAlive.filter (fun x => !(x.1 == chip && x.2.1 == agent))).take 64 }

/-- Words of the oldest message of agent 0's queue 15, and the device without it (R399). -/
def Dev.popMessage (d : Dev) (a q : Nat) : Option (Nat × List Byte × Dev) :=
  let (w, d1) := d.mqPop a q
  let (h, d2) := if mhKind w.toNat = 1 then d1.mqPop a q else (w, d1)
  if (d.mq a q).words = 0 then none
  else
    let n := cdiv (mhLen h.toNat) 8
    let (bs, d3) := (List.range n).foldl (fun (acc : List Byte × Dev) _ =>
      let (w, d) := acc.2.mqPop a q
      (acc.1 ++ leBytes 8 w.toNat, d)) ([], d2)
    some (h.toNat, bs.take (mhLen h.toNat), d3)

/-- REMOTE_COMMAND: a message of 64 bytes from queue 15 of agent 0x00 is taken as a command (R388). DEDUCED, log entry 23. -/
def execRemoteCommand (s : State) : Host.Outcome State Fault Refusal :=
  run (fun d =>
    if d.phase ≠ .ready then d
    else match d.popMessage 0 15 with
      | none => d
      | some (h, b, popped) =>
        let chip := mhChip h
        let agent := mhSrc h
        let mine := d.cmds.filter (fun c => c.remote.any (fun r => r.1 == chip && r.2.1 == agent))
        let last := (d.remoteAlive.find? (fun x => x.1 == chip && x.2.1 == agent)).map (fun x => x.2.2)
        let ctx := if 0x30 ≤ agent ∧ agent ≤ 0x37 then some (agent - 0x30) else none
        let c := { packetCmd d.nextCmd 24 0 ctx b with remote := some (chip, agent, at_ b 56 1) }
        if b.length ≠ 64 ∨ !(fenceOk mine c.flags) then d
        else
          let (c, rec_) := popped.checked c b last
          let d := popped.addCmd c
          if rec_ then d.heard chip agent (at_ b 5 1) else d) s

end Sys2Proof.Machine
end

