-- ==== Sys2Proof/Machine/Domains.lean ====
section
/-! DEFINITION. Which unit a register belongs to (R521, R546, R547), and the return of register fields to their reset values by Keep
letter (R17, R495) with what Headcount remembers of a counter that returned (R520). -/

namespace Sys2Proof.Machine

/-- The tile of a register instance and its offset in the tile's window (R547); the selected counters of a tile lie with their
selectors. -/
def Reg.tileAt (r : Reg) (i : Nat) : Option (Nat × Nat) :=
  if r.id = NE_SDP.id ∨ r.id = NE_LATE.id then some (i / 128 / 9, 0x20000 + i / 128 % 9 * 0x2000)
  else if r.id = TUM_DP.id then some (i / 128, 0x10000)
  else if r.id = MID_DP.id then some (i / 256, 0x8000)
  else if r.id = MID_PC.id then some (i / 64, 0x8000)
  else
    let a := r.addr i
    if 0x200000 ≤ a ∧ a < 0xA00000 then some ((a - 0x200000) / 0x40000, (a - 0x200000) % 0x40000) else none

/-- Whether an offset of a tile window lies in engine `e`'s block. -/
def offInEng (e o : Nat) : Bool := decide (0x20000 + e * 0x2000 ≤ o) && decide (o < 0x20000 + (e + 1) * 0x2000)

/-- Registers of one engine. -/
def inEngine (t e : Nat) (r : Reg) (i : Nat) : Bool := (r.tileAt i).any (fun x => x.1 == t && offInEng e x.2)

/-- Registers of a tile's engines and Tumbler. -/
def inTile (t : Nat) (r : Reg) (i : Nat) : Bool :=
  (r.tileAt i).any (fun x => x.1 == t && decide (0x10000 ≤ x.2) && decide (x.2 < 0x32000))

/-- Registers of any tile, its router among them. -/
def inTiles (r : Reg) (i : Nat) : Bool := (r.tileAt i).isSome

/-- The selected counters and the counters that Headcount dumps, with their unit: KIND × 2^16 + TILE × 2^8 + SUB (R521). -/
def Reg.unitCode (r : Reg) (i : Nat) : Option Nat :=
  if [FLT_CNT.id, FLT_OFF.id, FLT_DP.id, RST_CNT.id, PWR_REFCNT.id, BRK_CNT.id, HC_CNT.id].contains r.id then some 0x10000
  else if r.id = CLP_CNT.id then some 0x20000
  else if r.id = USH_CNT.id then some 0x30000
  else if r.id = HST_BOX_CNT.id ∨ r.id = HST_DP.id then some 0x40000
  else if r.id = MQ_CNT.id then some (0x50000 + i / 1024)
  else if r.id = MQ_DP.id then some (0x50000 + i / 64)
  else if r.id = SNS_DP.id ∨ r.id = SNS_PC.id then some 0x60000
  else if r.id = ELK_CNT.id then some (0x70000 + i / 11)
  else if r.id = ELK_DP.id then some (0x70000 + i / 128)
  else if r.id = RIM_CNT.id ∨ r.id = RIM_DP.id then some 0x80000
  else if r.id = MID_CNT.id then some (0x90000 + i / 9 * 256)
  else if r.id = MID_PC.id then some (0x90000 + i / 64 * 256)
  else if r.id = MID_DP.id then some (0x90000 + i / 256 * 256)
  else if r.id = TUM_CNT.id then some (0xA0000 + i / 12 * 256)
  else if r.id = TUM_DP.id then some (0xA0000 + i / 128 * 256)
  else if r.id = RAB_CNT.id then some (0xB0000 + i / 6 * 256)
  else
    let eng := fun (k : Nat) => some (0xC0000 + i / k / 9 * 256 + i / k % 9)
    if r.id = NE_NPCNT.id then eng 12 else if r.id = NE_SPCNT.id then eng 20 else if r.id = NE_TCNT.id then eng 2
    else if r.id = NE_DP_EMITDUP.id then eng 16 else if r.id = NE_SDP.id ∨ r.id = NE_LATE.id then eng 128
    else none

/-- Fields of the selected registers with one of the Keep letters return to reset; Headcount restarts the counters among them at
their raw counts, and marks their units (R495, R520). -/
def Dev.resetDomain (d : Dev) (sel : Reg → Nat → Bool) (ks : List Keep) : Dev :=
  let hit := fun (k : Nat) =>
    match regOf (k / 2 ^ 20) with
    | some r => sel r (k % 2 ^ 20) && (r.unitCode (k % 2 ^ 20)).isSome && r.fields.any (fun f => ks.contains f.keep)
    | none => false
  let units := (d.regs.map (·.1) ++ d.hcExt.map (·.1)).filterMap (fun k =>
    if hit k then (regOf (k / 2 ^ 20)).bind (fun r => r.unitCode (k % 2 ^ 20)) else none)
  let d := d.resetRegs sel ks
  { d with hcExt := d.hcExt.filter (fun p => !(hit p.1)), hcRst := (d.hcRst ++ units).eraseDups }

end Sys2Proof.Machine
end

