-- ==== Sys2Proof/Machine/Faults.lean ====
section
/-! DEFINITION. Resets of engines, tiles, contexts, the rim and the Ringmaster under traffic, watchdogs, and units leaving and
returning to service (R410 to R432, R478, R482, R483). -/

namespace Sys2Proof.Machine

/-! ## Engine reset -/

/-- The events whose copies an engine still owes, one each, with whether each came from the express queue (R132, R269). -/
def Engine.owes (g : Engine) : List (Delivered × Bool) :=
  g.qX.map (·, true) ++ g.qO.map (·, false) ++ (g.parked.map (fun k => (k.ev, k.express)) ++ ((g.refetch.filter (fun r => !r.alone)).map (fun r => (r.ev, r.express))).toList)

/-- One event that a reset clears is dropped and completes its share of the copy (R269). -/
def Dev.dropEvent (d : Dev) (t : Nat) (x : Delivered × Bool) : Dev :=
  (d.drop .tileReset t x.1.ctx (if x.2 then 0 else 1) (evKey x.1.word) 1).copyDone t x.1.copy

/-- Distinct copies only. -/
def distinctCopies (l : List (Delivered × Bool)) : List (Delivered × Bool) :=
  l.foldl (fun acc x => if acc.any (fun y => y.1.copy == x.1.copy) then acc else acc ++ [x]) []

/-- The events that the engine holds of the contexts that `sel` names are dropped: delivery queues, the event being processed,
parked spill events, the held gather state's, and the emit queue, whose words are not copies yet (R269, R424, R425). -/
def Dev.dropHeld (d : Dev) (t e : Nat) (sel : Nat → Bool) : Dev :=
  let g := d.eng t e
  let evs := distinctCopies (g.owes.filter (fun x => sel x.1.ctx))
  let d := evs.foldl (fun d x => d.dropEvent t x) d
  let gs : List (Nat × Bool × Nat) := match g.gather with
    | some h => if sel h.ctx then (h.copies.eraseDups.filter (fun k => !(evs.any (fun x => x.1.copy == k)))).map (fun k => (h.ctx, h.express, k)) else []
    | none => []
  let d := gs.foldl (fun d x => (d.drop .tileReset t x.1 (if x.2.1 then 0 else 1) 0 1).copyDone t x.2.2) d
  let d := (g.emitX.filter (fun x => sel x.ctx)).foldl (fun d x => d.drop .tileReset t x.ctx 0 (evKey x.word) 1) d
  let d := (g.emitO.filter (fun x => sel x.ctx)).foldl (fun d x => d.drop .tileReset t x.ctx 1 (evKey x.word) 1) d
  let g := d.eng t e
  let keep := fun (x : Delivered) => !(sel x.ctx)
  d.setEng t e { g with
    qX := g.qX.filter keep, qO := g.qO.filter keep, parked := g.parked.filter (fun k => keep k.ev),
    refetch := g.refetch.filter (fun r => keep r.ev), gather := g.gather.filter (fun h => !(sel h.ctx)),
    emitX := g.emitX.filter (fun x => !(sel x.ctx)), emitO := g.emitO.filter (fun x => !(sel x.ctx)),
    pieces := g.pieces.filter (fun x => !(evs.any (fun y => y.1.copy == x.1) || gs.any (fun y => y.2.2 == x.1))) } |>.projSettle t e

/-- Carousel slots, touch planes, trace memory and pre counts of an engine cleared (R425). -/
def Dev.clearEngineMem (d : Dev) (t e : Nat) : Dev :=
  (((d.clear (engBase t e + 0x200000) 0x80000).clear (engBase t e + 0x2E0000) 0x10000).clear (engBase t e + 0x2C0000) 0x20000).clear (preAddr t e 0) 8192

/-- What is left of an engine under reset: what it knows of its contexts' ticks, its committed descriptors, its generators as their
seed registers set them (R72, R111, R425). -/
def Dev.bareEngine (d : Dev) (t e : Nat) : Engine :=
  let g := d.eng t e
  { Engine.init with
    noise := noiseSeeds (BitVec.ofNat 32 (d.fld NE_NOISE_SEED (engIx t e) NE_NOISE_SEED_SEED))
    sr := srSeeds (BitVec.ofNat 32 (d.fld NE_SR_SEED (engIx t e) NE_SR_SEED_SEED))
    u := g.u, updDone := g.updDone, startQ := g.phase.toList ++ g.startQ
    popHeld := g.popHeld, popLow := g.popLow, dbgHeld := g.dbgHeld, roBad := g.roBad, resetting := true }

/-- An engine reset begins; the modulator accumulators of the contexts it holds start at 0 (R193, R269, R425, R478). -/
def Dev.clearEngine (d : Dev) (t e : Nat) : Dev :=
  let d := (d.betweenLines t e).dropHeld t e (fun _ => true)
  let g := d.tum t
  let d := d.setTum t { g with acc := g.acc.filter (fun x => !(d.holds t e (x.1 / 8))) }
  let d := (d.clearEngineMem t e).resetDomain (inEngine t e) [.d]
  d.setEng t e (d.bareEngine t e)

/-- A unit of TYPE 1 or 2 holds a block of a running context (R426). -/
def Dev.holdsRunning (d : Dev) (type index : Nat) : Option Nat :=
  (List.range 8).find? (fun c => (d.gen c).running && (Tab.get [] d.blocks c).any (blockIn type index))

/-- A refused reset (R483, R493). -/
def Dev.resetRefused (d : Dev) (action : Nat) (o : Objection) : Dev :=
  (d.refused action [o]).setF RST_STATUS 0 RST_STATUS_REFUSED 1

/-- A reset of one engine through the RST block. -/
def Dev.engineReset (d : Dev) (t e : Nat) : Dev :=
  match d.holdsRunning 1 (engIx t e) with
  | some c => d.resetRefused 0x23 { type := 8, tile := t, unit := e, ctx := c, reason := 1 }
  | none => (d.clearEngine t e).bump RST_CNT 4 1

/-- ENGINE_RESET (R425 to R427, R483). -/
def execEngineReset (t : Tile) (e : Eng) (s : State) : Host.Outcome State Fault Refusal :=
  run (fun d => d.engineReset t e) s

/-- Touch bits for the next tick of every neuron of a context in an engine whose FLAGS has ALWAYS_ACTIVE or IN_REFR (R425). -/
def Dev.retouch (d : Dev) (t e c n : Nat) : Dev :=
  (d.popsOf t e c).foldl (fun d k =>
    let p := d.pop t e k
    (List.range p.size).foldl (fun d j =>
      let f := d.ldB (recAddr t e (p.base + j) + 13)
      if flagAA f || flagInRefr f then d.touch t e ((n + 1) % p.depth) (p.base + j) else d) d) d

/-- One context as an engine's reset ends: U is the latest tick whose start the engine had received, reported update-complete
(R425). -/
def Dev.resume (d : Dev) (t e c : Nat) : Dev :=
  if !(d.holds t e c) then d
  else
    let g := d.eng t e
    let n := match (g.startQ.filter (fun x => x.1 == c)).getLast? with
      | some x => x.2
      | none => Tab.get 0 g.u c
    (d.setEng t e { g with u := Tab.set 0 g.u c n, updDone := Tab.set 0 g.updDone c n }).retouch t e c n

/-- ENGINE_RESET_END: within 20 µs of its start; a tile reset lasts until those of its engines have ended (R269, R425, R426). -/
def execEngineResetEnd (t : Tile) (e : Eng) (s : State) : Host.Outcome State Fault Refusal :=
  run (fun d =>
    if !((d.eng t e).resetting) then d
    else
      let d := (List.range 8).foldl (fun (d : Dev) c => d.resume t e c) d
      let d := d.setEng t e { d.eng t e with startQ := [], resetting := false }
      if (List.range 9).any (fun k => (d.eng t k).resetting) then d else { d with tileRst := d.tileRst.filter (· != t.val) }) s

/-! ## Units -/

/-- Moves of a Draining unit start, and an evacuation that has nothing left to move, or a block that no engine can take, ends (R229, R418,
R419). -/
def Dev.drain (d : Dev) (moves : List Move) : Dev :=
  let d := d.startEvacs moves
  d.evacs.foldl (fun d v => d.evacEnd v) d

/-- Automatic retirement of an engine or a tile (R420). -/
def Dev.autoDrain (d : Dev) (type index reason : Nat) (moves : List Move) : Dev :=
  let was := (d.unit type index).1
  let d := d.autoRetire type index reason
  if was = 0 ∧ (d.unit type index).1 = 1 then
    Dev.drain { d with evacs := d.evacs ++ [(⟨type, index, 0, 0⟩ : Evac)] } moves
  else d

/-- Whether an engine has work that its watchdog watches, and is not stalled by the emit queue or a spill fetch (R411). -/
def Engine.watched (g : Engine) : Bool :=
  !g.resetting && (!g.qX.isEmpty || !g.qO.isEmpty || g.phase.isSome || g.gather.isSome)
  && !(g.line.any (fun l => l.held != 0)) && !(g.parked.any (fun k => k.issued && k.landed.isNone))

/-- ENGINE_WATCHDOG: the engine has retired no lane-slot for ENG_US; it is reset and retired (R411, R420). -/
def execEngineWatchdog (t : Tile) (e : Eng) (moves : List Move) (s : State) : Host.Outcome State Fault Refusal :=
  run (fun d =>
    if !((d.eng t e).watched) then d
    else
      let d := (d.bump FLT_CNT 2 1).occur 0x3B12 3 0xFF (srcEng t e) 0
      ((d.clearEngine t e).bump RST_CNT 4 1).autoDrain 1 (engIx t e) 2 moves) s

/-! ## Tile-controller restart and tile reset -/

/-- A tile-controller restart begins: its queues close (R428). -/
def Dev.controllerRestart (d : Dev) (t : Nat) : Dev :=
  let d := ({ d with tcRestart := if d.tcRestart.contains t then d.tcRestart else d.tcRestart ++ [t] }).mqCloseAgent (t + 1)
  (d.bump FLT_CNT 1 1).occur 0x3B11 3 0xFF (srcTile t) 0

/-- TC_WATCHDOG (R411, R428). -/
def execTcWatchdog (t : Tile) (s : State) : Host.Outcome State Fault Refusal := run (fun d => d.controllerRestart t) s

/-- The first tile still to switch to a new image restarts for it (R467). -/
def Dev.switchTile (d : Dev) : Dev := match d.fwTiles with | [] => d | t :: _ => d.controllerRestart t

/-- TILE_CONTROLLER_RESTART_END: the tile firmware runs again, within 5 ms; the next tile that is to switch to a new image starts its
restart (R428, R467). -/
def execTileControllerRestartEnd (t : Tile) (s : State) : Host.Outcome State Fault Refusal :=
  run (fun d =>
    let d : Dev := { d with tcRestart := d.tcRestart.filter (· != t.val) }
    if d.fwTiles.head? = some t.val then Dev.switchTile { d with fwTiles := d.fwTiles.drop 1 } else d) s

/-- Modulators that Tumbler's intake holds are dropped (R269, R424). -/
def Dev.dropMods (d : Dev) (t : Nat) (sel : Nat → Bool) : Dev :=
  let g := d.tum t
  let d := (g.modQ.filter (fun x => sel x.ctx)).foldl (fun d x => (d.drop .tileReset t x.ctx x.cls (evKey x.word) 1).copyDone t x.copy) d
  d.setTum t { d.tum t with modQ := (d.tum t).modQ.filter (fun x => !(sel x.ctx)) }

/-- Tumbler of a tile reset: intake dropped, records and sweeps abandoned, its generators as TUM_SEED sets them (R426). -/
def Dev.clearTumbler (d : Dev) (t : Nat) : Dev :=
  let d := d.dropMods t (fun _ => true)
  let d := d.setTum t { lfsr := (srSeeds (BitVec.ofNat 32 (d.fld TUM_SEED t TUM_SEED_SEED))).take 16 }
  let d := { d with preQ := Tab.set [] d.preQ t [] }
  (List.range 8).foldl (fun (d : Dev) c => d.setTc t c { d.tc t c with begun := none }) d

/-- A reset of a tile: its nine engines, Tumbler and its controller; never its router (R268, R426). -/
def Dev.tileReset (d : Dev) (t : Nat) : Dev :=
  match d.holdsRunning 2 t with
  | some c => d.resetRefused 0x22 { type := 8, tile := t, ctx := c, reason := 1 }
  | none =>
    let d := (List.range 9).foldl (fun (d : Dev) e => d.clearEngine t e) d
    let d := { d with tileRst := if d.tileRst.contains t then d.tileRst else d.tileRst ++ [t] }
    (((d.clearTumbler t).resetDomain (inTile t) [.d]).controllerRestart t).bump RST_CNT 3 1

/-- TILE_RESET (R426, R483). -/
def execTileReset (t : Tile) (s : State) : Host.Outcome State Fault Refusal := run (fun d => d.tileReset t) s

/-! ## Ringmaster restart -/

/-- What an uncommitted command has set up goes, so that it runs again from its start; a command that has its effect keeps waiting
(R430). -/
def Dev.rerun (d : Dev) (x : Cmd) : Dev :=
  let again := fun (d : Dev) => { d with cmds := d.cmds.map (fun y => if y.id = x.id then { y with stage := 0, wait := .none } else y) }
  match x.wait with
  | .flip c => again (d.setGen c { d.gen c with interReq := (d.gen c).interReq.filter (fun r => r.2.1 != 1) })
  | .evacuate ty ix => again { d with evacs := d.evacs.filter (fun v => !(v.type == ty && v.index == ix)) }
  | _ => d

/-- A Ringmaster restart begins: the slow path is held, commands are journalled, open migrations are abandoned, agent 0x00's queues
0 to 14 close, and the identity key's indices up to R_END are skipped (R227, R429, R430, R454). -/
def Dev.ringmasterRestart (d : Dev) (sev : Nat) : Dev :=
  if d.rmRestart then d
  else
    let d : Dev := (({ d with rmRestart := true }).bump FLT_CNT 0 1).occur 0x3B10 sev 0xFF srcRm 0
    let d : Dev := ((d.moveUnit 6 0 1 2).moveUnit 6 0 2 2).moveUnit 6 0 3 2
    let d := if d.identity then d.setF SEC_ATTEST 0 SEC_ATTEST_NEXT (d.fld SEC_ATTEST 0 SEC_ATTEST_R_END) else d
    let slow := d.cmds.filter (fun x => slowOp x.opcode && x.stage != 2)
    let d : Dev := { d with cmds := d.cmds.map (fun (x : Cmd) => if slowOp x.opcode && x.stage != 2 then { x with held := true } else x) }
    let d := d.bump HST_BOX_CNT 5 (slow.filter (fun x => !x.held)).length
    let d := slow.foldl (fun d x => d.rerun x) d
    let d := (List.range 8).foldl (fun (d : Dev) c => d.abandonOpen c) d
    (List.range 15).foldl (fun (d : Dev) q => d.mqClose 0 q) d

/-- RM_WATCHDOG (R411). -/
def execRmWatchdog (s : State) : Host.Outcome State Fault Refusal := run (fun d => if d.phase = .ready ∨ d.phase = .recovery then d.ringmasterRestart 3 else d) s

/-- The slot of firmware that an index names: 0 A, 1 B. -/
def Dev.slotOf (d : Dev) (k : Nat) : FwSlot := if k = 0 then d.slotA else d.slotB

/-- A firmware slot changes. -/
def Dev.setSlot (d : Dev) (k : Nat) (x : FwSlot) : Dev := if k = 0 then { d with slotA := x } else { d with slotB := x }

/-- SEQ one above the other slot's, as an image becomes ACTIVE (R467). -/
def Dev.activate (d : Dev) (k : Nat) : Dev :=
  let x := d.slotOf k
  d.setSlot k { x with state := 2, seq := (d.slotOf (1 - k)).seq + 1 }

/-- RATCHET raises the fused minimum SVN (R449). -/
def Dev.ratchet (d : Dev) (f : FwImage) : Dev := if f.ratchet then { d with svnMin := max d.svnMin f.svn } else d

/-- An image that runs: FW_SLOT names its slot, M1 its digest (R452, R467). -/
def Dev.runImage (d : Dev) (k : Nat) (f : FwImage) : Dev :=
  (({ d with fw := f }).setF GLB_BOOT 0 GLB_BOOT_FW_SLOT k).setMeas 1 (leBytes 32 f.digest.toNat)

/-- A restart on a newly staged image has failed: the slot is FAILED, and the Ringmaster restarts again on the other one (R467).
DEDUCED, log entry 27. -/
def Dev.fallBack (d : Dev) (k id status detail : Nat) : Dev :=
  let d := d.setSlot k { d.slotOf k with state := 4 }
  Dev.ringmasterRestart { d with rmRestart := false, fwTry := none, fwBack := some (id, status, detail) } 1

/-- A restart on a newly staged image has succeeded: the image is ACTIVE and runs, and the tile controllers switch to its tile firmware
and library one at a time (R449, R452, R466, R467). -/
def Dev.switchFirmware (d : Dev) (k id : Nat) (f : FwImage) : Dev :=
  let d := ((((d.activate k).ratchet f).runImage k f).setMeas 2 (leBytes 32 f.sections.toNat)).ok id (leBytes 4 f.version)
  Dev.switchTile { d with fwTiles := (List.range 32).filter (fun t => (d.unit 2 t).1 != 2) }

/-- RINGMASTER_RESTART_END: the first held command is released, within 400 ms. `outcome` 0: the image verified; 1: its signature
did not verify; 2: it did not answer (R422, R429, R430, R467). -/
def execRingmasterRestartEnd (outcome : Fin 3) (s : State) : Host.Outcome State Fault Refusal :=
  run (fun d =>
    let released := fun (d : Dev) => { ((d.moveUnit 6 0 4 0).moveUnit 6 0 0 0) with rmRestart := false }
    if !d.rmRestart then d
    else
      match d.fwBack, d.fwTry with
      | some (id, status, detail), _ => (released { d with fwBack := none }).finish id status detail []
      | none, none => released d
      | none, some (k, id) =>
        match outcome, (d.slotOf k).image with
        | 0, some f => (released { d with fwTry := none }).switchFirmware k id f
        | 1, _ => d.fallBack k id 0x0301 0x0108
        | _, _ => d.fallBack k id 0x0500 0x0201) s

/-! ## Context reset -/

/-- Words of a context leave one engine: what it holds of the context is dropped there (R424). -/
def Dev.dropCtxEng (d : Dev) (c t e : Nat) : Dev :=
  let d := d.dropHeld t e (fun x => x == c)
  let g := d.eng t e
  let mine : Bool := g.phase.any (fun x => x.1 == c)
  d.setEng t e { g with
    startQ := g.startQ.filter (fun x => x.1 != c), postQ := g.postQ.filter (fun x => x.ctx != c)
    phase := if mine then none else g.phase, line := if mine then none else g.line, jobs := if mine then [] else g.jobs
    popEff := if mine then [] else g.popEff, u := Tab.set 0 g.u c 0, updDone := Tab.set 0 g.updDone c 0 }

/-- Tumbler drops a context's pre records and modulators and abandons its sweep (R424). -/
def Dev.dropCtxTum (d : Dev) (c t : Nat) : Dev :=
  let q := Tab.get [] d.preQ t
  let d := (q.filter (fun x => x.ctx == c)).foldl (fun (d : Dev) x => d.drop .tileReset t c x.cls 0 1) d
  let d := { d with preQ := Tab.set [] d.preQ t (q.filter (fun x => x.ctx != c)) }
  let d := d.dropMods t (fun x => x == c)
  let g := d.tum t
  let g := { g with sweepQ := g.sweepQ.filter (fun x => x.1 != c), ended := g.ended.filter (fun x => x.1 != c), sweep := g.sweep.filter (fun x => x.ctx != c) }
  (d.setTum t g).setTc t c {}

/-- Engines of a tile that hold populations of context c and of no other. -/
def Dev.whollyOf (d : Dev) (c t e : Nat) : Bool :=
  d.holds t e c && (List.range 8).all (fun x => x == c || !(d.holds t e x))

/-- Neuron records, slot regions and trace bytes of a context's populations in an engine, its source-index entries, and the words
inside its bounds are zeroed (R441). -/
def Dev.zeroEng (d : Dev) (c t e : Nat) : Dev :=
  let d := (d.popsOf t e c).foldl (fun (d : Dev) k =>
    let p := d.pop t e k
    let span := cdiv p.size 32 * 32
    let d := (d.clear (recAddr t e p.base) (16 * p.size)).clear (engBase t e + 0x200000 + 2 * p.l NE_POP_LO_SLOT_BASE) (2 * span * p.depth)
    (d.clear (traceAddr t e p.base) p.size).clear (traceAddr t e (8192 + p.base)) p.size) d
  let d := (d.sidxOf t e c).foldl (fun (d : Dev) i => d.clear (engBase t e + 0x280000 + 16 * i) 16) d
  match d.bounds t e c with
  | none => d
  | some b =>
    let lo := NE_BOUNDS_SMEM_LO.get b
    let hi := NE_BOUNDS_SMEM_HI.get b
    let sl := NE_BOUNDS_SCALE_LO.get b
    let sh := NE_BOUNDS_SCALE_HI.get b
    (d.clear (engBase t e + 64 * lo) (64 * (hi + 1 - lo))).clear (engBase t e + 0x2F0000 + 2 * sl) (2 * (sh + 1 - sl))

/-- Registers of a context in its VF's window. -/
def vfWindow (c : Nat) (r : Reg) (i : Nat) : Bool :=
  r.vf.any (fun w => decide (w.off + c * w.mul ≤ i) && decide (i < w.off + c * w.mul + max 1 (dimCount w.dims)))

/-- Registers of the host block among them. -/
def hostReg (r : Reg) : Bool := decide (HST_APER.id ≤ r.id) && decide (r.id ≤ HST_CQ_PTR.id)

/-- Both versions of a context's fan-out and rim ranges cleared (R424). -/
def Dev.clearRanges (d : Dev) (c : Nat) : Dev :=
  let d := (List.range 32).foldl (fun (d : Dev) t =>
    let b := d.fld MID_FT_REGION (t * 8 + c) MID_FT_REGION_BASE
    let n := d.fld MID_FT_REGION (t * 8 + c) MID_FT_REGION_COUNT
    [0, 1].foldl (fun (d : Dev) v => d.clear (ftAddr t v b) (n * 16)) d) d
  let b := d.fld RIM_TAB_REGION c RIM_TAB_REGION_BASE
  let n := d.fld RIM_TAB_REGION c RIM_TAB_REGION_COUNT
  { d with rimTab := d.rimTab.filter (fun x => !(decide (b ≤ x.1 % 16384) && decide (x.1 % 16384 < b + n))) }

/-- A context's in-flight parts, on the die and in the rim, are zero, and what would have changed them goes (R424). -/
def Dev.zeroFlight (d : Dev) (c : Nat) : Dev :=
  { d with inflight := d.inflight.filter (fun x => x.1 / 4 % 8 != c), copies := d.copies.filter (fun x => x.2.ctx != c),
           owners := d.owners.filter (fun (x : Nat × RimOwner) => x.2.ctx != c), waves := d.waves.filter (fun (x : Nat × (Int × Nat × Nat)) => x.1 / 2 != c) }

/-- Rings and queues of a context's VF as a reset leaves them. -/
def Dev.clearRings (d : Dev) (c : Nat) : Dev :=
  { d with outRings := d.outRings.filter (fun x => x.1 / 4 != c), injOut := Tab.set 0 d.injOut c 0, injStopped := d.injStopped.filter (· != c),
           cqs := d.cqs.filter (fun x => !(decide (8 ≤ x.1) && (x.1 - 8) / 2 == c)),
           sqStopped := d.sqStopped.filter (fun q => !(decide (8 ≤ q) && (q - 8) / 2 == c)),
           cqStopped := d.cqStopped.filter (fun q => !(decide (8 ≤ q) && (q - 8) / 2 == c)) }

/-- A context reset (R350, R424, R441). -/
def Dev.contextReset (d : Dev) (c : Nat) : Dev :=
  let cnf := d.confidential c
  let g := d.gen c
  let d := d.putGen c { g with running := false, due := none, stepRemain := 0, interReq := [], interOpen := false, upd := true, drained := true }
  let d := (d.migrs.filter (fun m => m.ctx == c)).foldl (fun d m => d.abandonMigr m) d
  let whole := (List.range 288).filter (fun k => d.whollyOf c (k / 9) (k % 9))
  let held := (List.range 288).filter (fun k => d.holds (k / 9) (k % 9) c)
  let d := held.foldl (fun (d : Dev) k => d.dropCtxEng c (k / 9) (k % 9)) d
  let d := (List.range 32).foldl (fun (d : Dev) t => d.dropCtxTum c t) d
  let d := { d with ctxReset := if d.ctxReset.contains c then d.ctxReset else d.ctxReset ++ [c] }
  let d := whole.foldl (fun (d : Dev) k => d.clearEngine (k / 9) (k % 9)) d
  let d := if cnf then held.foldl (fun (d : Dev) k => d.zeroEng c (k / 9) (k % 9)) d else d
  let d := ((d.clearRanges c).freePlacement c).zeroFlight c
  let d := (List.range 8).foldl (fun (d : Dev) h => if d.fld HOM_SESS h HOM_SESS_CTX = c then d.setF HOM_SESS h HOM_SESS_EN 0 else d) d
  let d := d.mqCloseAgent (0x30 + c)
  let d := if cnf then (let r := agentRegion (0x30 + c); d.clear r.1 r.2) else d
  let d := (d.resetDomain (vfWindow c) [.d]).resetDomain (fun r i => hostReg r && vfWindow c r i) [.a, .b, .c, .d, .f]
  let d := { (d.clearRings c) with descs := Tab.set [] d.descs c [], pins := Tab.set [] d.pins c [],
                                    ctxZero := if d.ctxZero.contains c then d.ctxZero else d.ctxZero ++ [c] }
  let d := (d.setMeas (6 + c) (List.replicate 32 0)).bump RST_CNT 5 1
  if cnf then d.setF SEC_CTX_STATUS c SEC_CTX_STATUS_SCRUBBING 1 else d

/-- VF_FLR: a function-level reset of VF c resets context c (R350, R424). DEDUCED, log entry 23. -/
def execVfFlr (c : Ctx) (s : State) : Host.Outcome State Fault Refusal := run (fun d => if d.vfOn c then d.contextReset c else d) s

/-- CONTEXT_RESET_WINDOW_END: 2 × USH_INFLIGHT_MAX_c after step 2, local ports no longer drop the context's words (R424). -/
def execContextResetWindowEnd (c : Ctx) (s : State) : Host.Outcome State Fault Refusal :=
  run (fun d => if d.ctxReset.contains c.val then ({ d with ctxReset := d.ctxReset.filter (· != c.val) }).zeroFlight c else d) s

/-- SCRUB_COMPLETE: the last zero of a confidential context's scrub is written, and the context leaves confidential mode (R441).
DEDUCED, log entry 25. -/
def execScrubComplete (c : Ctx) (s : State) : Host.Outcome State Fault Refusal :=
  run (fun d =>
    if !(d.flag SEC_CTX_STATUS c SEC_CTX_STATUS_SCRUBBING) then d
    else
      let r := d.ctxRegion c
      let d := (d.clear r.1 r.2).clearPoison r.1 r.2
      let d := (d.setF SEC_CTX_STATUS c SEC_CTX_STATUS_SCRUBBING 0).setF SEC_CTX_STATUS c SEC_CTX_STATUS_CONFIDENTIAL 0
      d.setF SEC_CTX_CNF c SEC_CTX_CNF_ENABLE 0) s

/-! ## Rim reset -/

/-- Registers of the rim switch and of the ports, but for their counters (R314, R495). -/
def inRim (r : Reg) (_ : Nat) : Bool :=
  ((decide (ELK_CTRL.id ≤ r.id) && decide (r.id < SNS_IN_CFG.id)) || r.id == RIM_DT.id)
  && !([ELK_CNT.id, RIM_CNT.id, ELK_DP.id, RIM_DP.id].contains r.id)

/-- The rim is reset: what it holds is dropped, its table is empty until the Ringmaster has written it again (R314, R478, R483). -/
def Dev.rimReset (d : Dev) : Dev :=
  match (List.range 8).find? (fun c => (d.gen c).running && d.flag USH_STATUS c USH_STATUS_PLACED) with
  | some c => d.resetRefused 0x21 { type := 5, ctx := c, reason := 3 }
  | none =>
    let d : Dev := (d.rimFlush).resetDomain inRim [.d]
    let d := { d with rimLost := d.rimTab.foldl (fun m (x : Nat × Nat) => Tab.set 0 m x.1 x.2) d.rimLost, rimTab := [], rimBad := [], owners := [], rimHeld := 0 }
    (List.range 6).foldl (fun (d : Dev) p => d.elkStart p) (d.bump RST_CNT 2 1)

/-- RIM_RESET (R314, R483). DEDUCED, log entry 25, DEDUCED, log entry 27. -/
def execRimReset (s : State) : Host.Outcome State Fault Refusal := run (fun d => d.rimReset) s

/-! ## Retirement and reinstatement -/

/-- TYPE and index that a command's TYPE, TILE, ENGINE, PORT and ADDR parameters name (R382, R417); the first byte out of range.
DEDUCED, log entry 27. -/
def Cmd.unitOf (x : Cmd) : Nat × Nat × Option Nat :=
  let ty := x.p 0 1
  let t := x.p 1 1
  let e := x.p 2 1
  let pl := x.p 3 1
  let a := x.p 4 8
  match ty with
  | 1 => (1, t * 9 + e, if t > 31 then some 1 else if e > 8 then some 2 else none)
  | 2 => (2, t, if t > 31 then some 1 else none)
  | 3 => (3, a / 1024 * 1024, if bulkMaps a && decide (usableBytes ≤ a) then none else some 4)
  | 4 => (4, a / 4096 * 4096, if a < usableBytes then none else some 4)
  | 5 => (5, pl % 8 * 2 + pl / 16 % 2, if pl % 8 > 5 then some 3 else none)
  | _ => (ty, 0, some 0)

/-- Whether a unit that a command names is power-gated in Nap, with its tile and engine (R487). -/
def napUnit (type index : Nat) : Bool × Nat × Nat :=
  match type with
  | 1 => (true, index / 9, index % 9)
  | 2 => (true, index, 0xFF)
  | 3 => if index < rmSram then (true, (index - 0x1000000000) / 0x2000000, 0xFF) else (false, 0xFF, 0xFF)
  | _ => (false, 0xFF, 0xFF)

/-- RETIRE_UNIT: the unit leaves service (R229, R384, R417 to R419). `spare` says whether the row's bank has a spare row, `moves` the
migrations that the evacuation starts with. -/
def execRetireUnit (id : Nat) (spare : Bool) (moves : List Move) (s : State) : Host.Outcome State Fault Refusal :=
  run (fun d => d.command id 0x20 (fun x d =>
    let (ty, ix, bad) := x.unitOf
    let nap := napUnit ty ix
    match bad with
    | some off => d.outOfRange id off
    | none => d.unlessNap id nap.1 nap.2.1 nap.2.2 (fun d =>
      let st := (d.unit ty ix).1
      if st = 2 then d.ok id (leBytes 4 0)
      else if st = 3 then
        let d := (d.cmds.filter (fun y => y.wait == .test ty ix)).foldl (fun d y => d.refuse y.id 0x010B) d
        (d.moveUnit ty ix 2 0).ok id (leBytes 4 0)
      else if st = 1 then d.await id (.evacuate ty ix)
      else
        match ty with
        | 3 => if spare then (((d.moveUnit 3 ix 1 0).moveUnit 3 ix 2 0)).ok id (leBytes 4 0) else d.refuse id 0x0106
        | 4 => if d.fld MEM_STATUS 0 MEM_STATUS_SPARES = 0 then d.refuse id 0x0106 else (d.moveUnit 4 ix 1 0).await id (.evacuate 4 ix)
        | 5 => ((d.moveUnit 5 ix 1 0).laneFail (ix / 2) (ix % 2)).moveUnit 5 ix 2 0 |>.ok id (leBytes 4 0)
        | _ =>
          let d : Dev := { (d.moveUnit ty ix 1 0).await id (.evacuate ty ix) with evacs := d.evacs ++ [(⟨ty, ix, id, 0⟩ : Evac)] }
          d.drain moves))) s

/-- Whether a tile, or the tile of an engine, lies beyond the licensed count (R3, R423). -/
def Dev.beyond (d : Dev) (type index : Nat) : Bool :=
  (type == 1 && !(d.licensed (index / 9))) || (type == 2 && !(d.licensed index))

/-- REINSTATE_UNIT: a unit that is Out is tested (R230, R384, R418, R423). -/
def execReinstateUnit (id : Nat) (s : State) : Host.Outcome State Fault Refusal :=
  run (fun d => d.command id 0x21 (fun x d =>
    let (ty, ix, bad) := x.unitOf
    let nap := napUnit ty ix
    match bad with
    | some off => d.outOfRange id off
    | none => d.unlessNap id nap.1 nap.2.1 nap.2.2 (fun d =>
      let st := (d.unit ty ix).1
      if st = 0 ∨ st = 4 then d.ok id []
      else if st = 1 ∨ d.beyond ty ix then d.refuse id 0x0106
      else
        let d := if st = 2 then d.moveUnit ty ix 3 0 else d
        let d := if ty = 5 then d.elkRetrain (ix / 2) else d
        d.await id (.test ty ix)))) s

/-- UNIT_TEST_COMPLETE: the test of a unit in Testing ends (R418, R421, R422, R544). -/
def execUnitTestComplete (type : Fin 8) (index : BitVec 48) (pass : Bool) (s : State) : Host.Outcome State Fault Refusal :=
  run (fun d =>
    let ty := type.val
    let ix := index.toNat
    let waiting := d.cmds.filter (fun y => y.wait == .test ty ix)
    if (d.unit ty ix).1 ≠ 3 ∨ ty = 6 then d
    else
      let rab := if ty = 1 then ix / 9 else if ty = 2 then ix else if ty = 3 ∧ ix < rmSram then (ix - 0x1000000000) / 0x2000000 else 32
      let d := if ty ≤ 3 then d.bump RAB_CNT (rab * 6 + 5) 1 else d
      if pass then
        let d := waiting.foldl (fun (d : Dev) y => d.ok y.id []) (d.moveUnit ty ix 4 0)
        let d := if ty = 4 then d.setF MEM_STATUS 0 MEM_STATUS_SPARES (d.fld MEM_STATUS 0 MEM_STATUS_SPARES + 1) else d
        let d := if ty = 3 ∨ ty = 4 then { d with rowRepairs := d.rowRepairs.filter (· != ix) } else d
        if ty = 3 ∨ ty = 4 ∨ (ty = 5 ∧ d.portUp (ix / 2)) then d.moveUnit ty ix 0 0 else d
      else waiting.foldl (fun (d : Dev) y => d.refuse y.id 0x010B) (d.moveUnit ty ix 2 4)) s

/-- A repair is appended to the soft-repair list, which holds 8,192; one that the list or a Ringmaster restart turns away is counted
(R432). -/
def Dev.listRepair (d : Dev) (row : Nat) : Dev :=
  let d := { d with rowRepairs := if d.rowRepairs.contains row then d.rowRepairs else d.rowRepairs ++ [row] }
  if d.softRows.length ≥ 8192 ∨ d.rmRestart then d.setF FLT_SOFTREP 0 FLT_SOFTREP_UNSAVED (min 65535 (d.fld FLT_SOFTREP 0 FLT_SOFTREP_UNSAVED + 1))
  else { d with softRows := d.softRows ++ [row] }.setF FLT_SOFTREP 0 FLT_SOFTREP_LISTED (d.softRows.length + 1)

/-- The first region that Roustabout `r` is to test out of turn: its index (R413, R431). -/
def Dev.soonest (d : Dev) (r : Nat) : Option Nat :=
  (d.testDue.find? (fun a => roustaboutOf a == r)).map (fun a => (a - (if r < 32 then tileBase r else rmSram)) / 4096)

/-- Roustabout `r` tests region `k`; `rows` are its rows that failed March C−, `spare` whether their banks had spare rows (R420, R432). -/
def Dev.regionTest (d : Dev) (r k : Nat) (rows : List Nat) (spare : Bool) : Dev :=
  let d := (d.bump RAB_CNT (r * 6) 1).setF RAB_STATUS r RAB_STATUS_REGION k
  if rows.isEmpty then d
  else
    let d := d.bump RAB_CNT (r * 6 + 1) 1
    if spare then rows.foldl (fun (d : Dev) x => (d.listRepair x).bump RAB_CNT (r * 6 + 2) 1) d
    else
      let d := d.setF RAB_STATUS r RAB_STATUS_SPARE_LOW 1
      if r < 32 then
        let o := rows.headD 0 - tileBase r
        if o < 0x1B00000 then d.autoDrain 1 (engIx r (o / 0x300000)) 3 [] else d.autoDrain 2 r 3 []
      else d

/-- ROUSTABOUT_REGION_TEST: Roustabout `r` (0 to 31 the tiles', 32 the rim's) tests a region: one that is due out of turn, else, while
paced testing is on, the next of its pass; without its clock it tests nothing. `rows` are the rows of that region that failed March C−, by their number in it; `spare` says
whether their banks had spare rows (R413, R431, R432). DEDUCED, log entry 25. -/
def execRoustaboutRegionTest (r : Fin 33) (rows : List (Fin 4)) (spare : Bool) (s : State) : Host.Outcome State Fault Refusal :=
  run (fun d =>
    let n := if r.val < 32 then 7168 else 3072
    let base := if r.val < 32 then tileBase r else rmSram
    let at_ := fun (k : Nat) => rows.map (fun x => base + 4096 * k + 1024 * x.val)
    if r.val < 32 ∧ d.halfStopped (halfOf r) then d
    else match d.soonest r with
    | some k =>
      let d := { d with testDue := d.testDue.filter (· != base + 4096 * k) }
      (d.bump RAB_CNT (r * 6 + 4) 1).regionTest r k (at_ k) spare
    | none =>
      if !(d.flag RAB_CTRL r RAB_CTRL_EN) ∨ d.fld PWR_STATUS 0 PWR_STATUS_STATE = 2 then d
      else
        let k := Tab.get 0 d.rabNext r
        let d := { d with rabNext := Tab.set 0 d.rabNext r ((k + 1) % n) }
        (if k + 1 = n then d.bump RAB_CNT (r * 6 + 3) 1 else d).regionTest r k (at_ k) spare) s

/-- PAGE_COPY_DONE: an LPDDR5X page has been copied to a spare and is remapped (R419, R544). -/
def execPageCopyDone (page : BitVec 48) (s : State) : Host.Outcome State Fault Refusal :=
  run (fun d =>
    let ix := page.toNat
    if (d.unit 4 ix).1 ≠ 1 ∨ d.fld MEM_STATUS 0 MEM_STATUS_SPARES = 0 then d
    else
      let d := d.setF MEM_STATUS 0 MEM_STATUS_SPARES (d.fld MEM_STATUS 0 MEM_STATUS_SPARES - 1)
      let d := ((d.bump MEM_CNT 3 1).listRepair ix).moveUnit 4 ix 2 (d.unit 4 ix).2
      (d.cmds.filter (fun y => y.wait == .evacuate 4 ix)).foldl (fun (d : Dev) y => d.ok y.id (leBytes 4 0)) d) s

/-! ## Reads that do not return, and rewrites -/

/-- An uncorrectable LPDDR5X unit at address `a`, outside a row fetch; SOURCE names its controller (R412, R523, R538). -/
def Dev.lpddrUe (d : Dev) (a : Nat) : Dev := ((d.bump FLT_CNT 7 1).occur 0x3B17 3 0xFF (srcMem (lpddrController a)) 0).damaged a

/-- LPDDR_READ_TIMEOUT: a read has not returned after 100 µs and completes in error; `addr` is its address, `row` names the parked spilled row it was for,
whose first unit is then refetched as an uncorrectable one (R130, R411, R412). -/
def execLpddrReadTimeout (addr : BitVec 36) (row : Option (Tile × Eng × Fin 8)) (s : State) : Host.Outcome State Fault Refusal :=
  run (fun d =>
    match row with
    | none => d.lpddrUe addr.toNat
    | some (t, e, k) =>
      let g := d.eng t e
      match g.parked[k.val]? with
      | none => d
      | some r =>
        if !r.issued || r.landed.isSome || g.refetch.isSome then d
        else
          let x := r.job.desc
          let a := (d.spillPart (rdCtx x)).1 + rdAddr x * 64
          (d.unpark t e k).issueRefetch t e ⟨a, r.ev, r.express, some [r.job], some (d.ldBytes a (64 * rowWords (rdFmt x) (rdLen x))), false, false⟩) s

/-- RUNNING_ORDER_REWRITE: the tile controller rewrites an uncorrectable running-order word from the Ringmaster's copy (R412). -/
def execRunningOrderRewrite (t : Tile) (e : Eng) (w : Fin 4096) (s : State) : Host.Outcome State Fault Refusal :=
  run (fun d =>
    let g := d.eng t e
    (d.setEng t e { g with roBad := g.roBad.filter (· != w.val) }).st (engBase t e + 0x2F8000 + w * 8) 8 (d.roWord t e w)) s

end Sys2Proof.Machine
end

