-- ==== Sys2Proof/Machine/Trust.lean ====
section
/-! DEFINITION. Confidential mode, debug access, licence records, attestation and the calibration set (R438 to R455, R469 to
R471). -/

namespace Sys2Proof.Machine

/-! ## Confidential mode -/

/-- SEC_CTX_CNF_WRITE: a written 1 is accepted with L-CNF, outside RMA, while the context is stopped (R438). -/
def execSecCtxCnfWrite (c : Ctx) (v : W32) (s : State) : Host.Outcome State Fault Refusal :=
  run (fun d =>
    if !(v.getLsbD 0) then d
    else if (d.fld SEC_LIC 0 SEC_LIC_FEATURES).testBit 1 ∧ d.lifecycle ≠ 2 ∧ !((d.gen c).running) then
      (d.setF SEC_CTX_STATUS c SEC_CTX_STATUS_CONFIDENTIAL 1).setF SEC_CTX_CNF c SEC_CTX_CNF_ENABLE 1
    else d.setF SEC_CTX_STATUS c SEC_CTX_STATUS_CNF_ERR 1) s

/-! ## Debug access -/

/-- The SCOPE bits in effect: all outside DEPLOYED, the token's within it; bits 0 and 1 never while a context is confidential (R443,
R445, R447). -/
def Dev.dbgActive (d : Dev) : Nat :=
  let scope := if d.lifecycle = 1 then d.fld SEC_DBG_STATUS 0 SEC_DBG_STATUS_SCOPE else 15
  if (List.range 8).any (fun c => d.confidential c) then scope / 4 * 4 else scope

/-- A halt that the debug scope no longer backs is released. -/
def Dev.dbgSettle (d : Dev) : Dev :=
  { d with dbgHalt := d.dbgHalt && d.dbgActive.testBit 0, dbgTiles := if d.dbgActive.testBit 1 then d.dbgTiles else [] }

/-- An unlock ends (R446). DEDUCED, log entry 25. -/
def Dev.dbgEnd (d : Dev) : Dev :=
  ((d.setF SEC_DBG_STATUS 0 SEC_DBG_STATUS_SCOPE 0).setF SEC_DBG_STATUS 0 SEC_DBG_STATUS_EXPIRES 0).dbgSettle

/-- SEC_DBG_LOCK: a write of LOCK = 1 ends the unlock at once (R446). -/
def execSecDbgLock (v : W32) (s : State) : Host.Outcome State Fault Refusal := run (fun d => if v.getLsbD 0 then d.dbgEnd else d) s

/-- DEBUG_HALT of the Ringmaster, or of a tile controller (R445, R447). -/
def execDebugHalt (tile : Option Tile) (s : State) : Host.Outcome State Fault Refusal :=
  run (fun d =>
    match tile with
    | none => if d.dbgActive.testBit 0 then { d with dbgHalt := true } else d
    | some t => if d.dbgActive.testBit 1 ∧ !(d.dbgTiles.contains t.val) then { d with dbgTiles := d.dbgTiles ++ [t.val] } else d) s

/-- DEBUG_HALT_RELEASE (R445). -/
def execDebugHaltRelease (tile : Option Tile) (s : State) : Host.Outcome State Fault Refusal :=
  run (fun d =>
    match tile with
    | none => if d.dbgActive.testBit 0 then { d with dbgHalt := false } else d
    | some t => if d.dbgActive.testBit 1 then { d with dbgTiles := d.dbgTiles.filter (· != t.val) } else d) s

/-! ## Licence records -/

/-- Whether the key of a signed record or image matches a fuse slot of a purpose, not revoked (R449, R451). -/
def keyOk (f : Fuses) (slot : Nat) (licence : Bool) (key : List Byte) : Bool :=
  match f.keys[slot]? with
  | some k => k.licence == licence && !k.revoked && shake256 key == leBytes 32 k.digest.toNat
  | none => false

/-- Whether a record's form, key and signature hold (R450, R451). DESIGN CHOICE, log entry 26. -/
def licenceGood (f : Fuses) (b : List Byte) : Bool :=
  let ty := at_ b 6 1
  let zero := fun (i n : Nat) => at_ b i n == 0
  b.length == 2952 && at_ b 0 4 == 0x524C5A4D && at_ b 4 2 == 1 && decide (1 ≤ ty) && decide (ty ≤ 3)
  && decide (at_ b 20 1 < 8) && [0, 16, 24, 32].contains (at_ b 21 1) && [0, 2, 6].contains (at_ b 22 1)
  && (if ty = 2 then decide (at_ b 23 1 < 16) else zero 23 1 && zero 24 8) && (ty != 1 || zero 32 8) && zero 40 24
  && keyOk f (at_ b 7 1) true (slice b 64 68) && xmssVerify (slice b 64 68) (slice b 0 132) (slice b 132 2820)

/-- M3 as the stored records give it (R452). -/
def Dev.takeM3 (d : Dev) : Dev := d.setMeas 3 (shake256 (d.lics.flatMap (·.bytes)))

/-- The features and counts in effect, as LICENCE_INSTALL reports them (R382). -/
def Dev.licResult (d : Dev) : List Byte :=
  leBytes 1 (d.fld SEC_LIC 0 SEC_LIC_FEATURES) ++ leBytes 1 (d.fld SEC_LIC 0 SEC_LIC_TILES) ++ leBytes 1 (d.fld SEC_LIC 0 SEC_LIC_PORTS)

/-- A TYPE 1 record takes effect; it is stored only when it adds a feature or raises a count (R451). -/
def Dev.licAdd (d : Dev) (b : List Byte) : Dev :=
  let ft := d.fld SEC_LIC 0 SEC_LIC_FEATURES
  let tn := d.fld SEC_LIC 0 SEC_LIC_TILES_NEXT
  let pn := d.fld SEC_LIC 0 SEC_LIC_PORTS_NEXT
  let ft' := ft ||| at_ b 20 1
  if ft' = ft ∧ at_ b 21 1 ≤ tn ∧ at_ b 22 1 ≤ pn then d
  else
    let d := (d.setF SEC_LIC 0 SEC_LIC_FEATURES ft').setF SEC_LIC 0 SEC_LIC_TILES_NEXT (max tn (at_ b 21 1))
    let d := d.setF SEC_LIC 0 SEC_LIC_PORTS_NEXT (max pn (at_ b 22 1))
    Dev.takeM3 { d with lics := d.lics ++ [⟨at_ b 20 1, at_ b 21 1, at_ b 22 1, b⟩] }

/-- A new SEC_DBG_CHALLENGE is drawn from the device's random source (R446). DESIGN CHOICE, log entry 4. -/
def Dev.drawChallenge (d : Dev) : Dev :=
  let (x, d) := d.takeFree 64
  d.setF SEC_DBG_CHALLENGE 0 SEC_DBG_CHALLENGE_VALUE x.toNat

/-- An unlock token is accepted (R446). -/
def Dev.unlock (d : Dev) (b : List Byte) : Dev :=
  let d := (d.setF SEC_DBG_STATUS 0 SEC_DBG_STATUS_SCOPE (at_ b 23 1)).setF SEC_DBG_STATUS 0 SEC_DBG_STATUS_EXPIRES (at_ b 24 8)
  (d.extendMeas 5 (shake256 b)).drawChallenge

/-- RMA entry: every context is scrubbed, LPDDR5X and the user area of flash are zeroed and erased, then the fuse is blown (R441,
R444). -/
def Dev.enterRma (d : Dev) : Dev :=
  let d := (List.range 8).foldl (fun (d : Dev) c =>
    let d := (List.range 288).foldl (fun (d : Dev) k => if d.holds (k / 9) (k % 9) c then d.zeroEng c (k / 9) (k % 9) else d) d
    let r := agentRegion (0x30 + c)
    let d := (d.freePlacement c).clear r.1 r.2
    (d.setF SEC_CTX_STATUS c SEC_CTX_STATUS_CONFIDENTIAL 0).setF SEC_CTX_CNF c SEC_CTX_CNF_ENABLE 0) d
  let d : Dev := { ((d.clear 0 usableBytes).clear flashBase flashBytes) with poison := [], lifecycle := 2, cfgGone := true }
  d.setF SEC_LIFECYCLE 0 SEC_LIFECYCLE_STATE 2

/-- A licence record is handled (R451). -/
def Dev.licence (d : Dev) (f : Fuses) (id : Nat) (b : List Byte) : Dev :=
  let ty := at_ b 6 1
  if !(licenceGood f b) then d.refuse id 0x0108
  else if at_ b 8 8 ≠ f.serial.toNat then d.refuse id 0x0109
  else if ty = 1 then (let d := d.licAdd b; d.ok id d.licResult)
  else if at_ b 32 8 ≠ d.fld SEC_DBG_CHALLENGE 0 SEC_DBG_CHALLENGE_VALUE then d.refuse id 0x0108
  else if ty = 3 ∧ (List.range 8).any (fun c => (d.gen c).running) then d.refuse id 0x0101
  else if d.lifecycle ≠ 1 then d.refuse id 0x0105
  else if ty = 2 ∧ at_ b 24 8 ≤ d.fld BRK_OPTIME 0 BRK_OPTIME_SECONDS then d.refuse id 0x0108
  else
    let d := if ty = 2 then d.unlock b else d.enterRma
    d.ok id d.licResult

/-- A command that takes a whole record of LENGTH bytes, 1 to 4,096, at ADDR (R382). -/
def Dev.withRecord (d : Dev) (x : Cmd) (data : Option (List Byte)) (f : List Byte → Dev) : Dev :=
  let n := x.p 8 4
  if n = 0 then d.finish x.id 0x0104 8 []
  else if n > 4096 then d.outOfRange x.id 8
  else d.withData x 0 n data f

/-- LICENCE_INSTALL (R386, R450, R451). -/
def execLicenceInstall (id : Nat) (data : Option (List Byte)) (s : State) : Host.Outcome State Fault Refusal :=
  runF (fun f d => d.command id 0x48 (fun x d => d.withRecord x data (fun b => d.licence f id b))) s

/-! ## Attestation -/

/-- Bytes 0 to 579 of a report (R453): from a VF queue of context `vf`, or from the physical function.
DESIGN CHOICE, log entry 26. -/
def Dev.report (d : Dev) (f : Fuses) (vf : Option Nat) (index : Nat) (nonce : List Byte) : List Byte :=
  let lic := d.fld SEC_LIC 0
  let cnf := (List.range 8).foldl (fun a c => if d.confidential c then a + 2 ^ c else a) 0
  let shown := fun (c : Nat) => match vf with | some v => v == c | none => !(d.confidential c)
  leBytes 4 0x52545441 ++ leBytes 2 1 ++ leBytes 1 d.lifecycle ++ leBytes 1 (match vf with | some v => 128 + v | none => 0)
  ++ leBytes 8 f.serial.toNat ++ leBytes 4 index ++ leBytes 4 d.fw.version
  ++ leBytes 1 (lic SEC_LIC_FEATURES) ++ leBytes 1 (lic SEC_LIC_TILES) ++ leBytes 1 (lic SEC_LIC_PORTS)
  ++ leBytes 1 d.dbgActive ++ leBytes 1 cnf ++ leBytes 3 0 ++ nonce
  ++ (List.range 6).flatMap (fun m => d.meas m)
  ++ (List.range 8).flatMap (fun c => if shown c then d.meas (6 + c) else List.replicate 32 0)
  ++ (List.range 68).map Config.identityKey

/-- ATTEST: a report signed with the next index of the identity key, reserved in flash before its release (R453 to R455). -/
def execAttest (id : Nat) (ok : Bool) (s : State) : Host.Outcome State Fault Refusal :=
  runF (fun f d => d.command id 0x49 (fun x d =>
    let i := d.fld SEC_ATTEST 0 SEC_ATTEST_NEXT
    if x.p 32 8 % 8 ≠ 0 then d.outOfRange id 32
    else if !d.identity ∨ i ≥ 1048576 then d.finish id 0x0401 0 []
    else
      let d := if i ≥ d.fld SEC_ATTEST 0 SEC_ATTEST_R_END then d.setF SEC_ATTEST 0 SEC_ATTEST_R_END (i - i % 64 + 64) else d
      let d := d.setF SEC_ATTEST 0 SEC_ATTEST_NEXT (i + 1)
      let m := d.report f (if x.priv then none else some x.ctx) i (slice x.params 0 32)
      let bytes := m ++ leBytes 4 2820 ++ (List.range 2820).map (Config.identitySignature i m)
      d.writeData x 32 bytes ok (fun d => d.ok id (leBytes 4 i ++ leBytes 4 bytes.length)))) s

/-! ## Calibration -/

/-- The calibration set as CAL_READ writes it: the set in flash with its CRC, or the defaults (R470, R471). -/
def Dev.calBytes (d : Dev) : List Byte :=
  match d.cal with
  | some b => b ++ leBytes 4 (crc32c b)
  | none => List.replicate 8 0 ++ [0x7A, 0x1F] ++ List.replicate 1154 0

/-- CAL_READ (R471). DESIGN CHOICE, log entry 26. -/
def execCalRead (id : Nat) (ok : Bool) (s : State) : Host.Outcome State Fault Refusal :=
  run (fun d => d.command id 0x4A (fun x d => d.writeData x 0 d.calBytes ok (fun d => d.ok id (leBytes 4 1164)))) s

/-- Whether a record is a calibration set (R469, R471). -/
def calGood (b : List Byte) : Bool :=
  b.length == 1164 && at_ b 0 4 == 0x4C41435A && at_ b 4 2 == 1 && at_ b 6 2 == 1164 && at_ b 1160 4 == crc32c (b.take 1160)

/-- The set in flash is replaced, no copy of the old values remains, and the values of step 3 take effect at once (R386, R470,
R471). -/
def Dev.calPut (d : Dev) (b : List Byte) : Dev :=
  let d : Dev := { d with cal := some (b.take 1160), trims := b }
  let d := (d.setF CAL_STATUS 0 CAL_STATUS_VALID 1).setF CAL_STATUS 0 CAL_STATUS_WRITTEN 1
  ((d.setF CAL_STATUS 0 CAL_STATUS_LENGTH 1164).setMeas 4 (shake256 b)).occur 0x3C09 0 0xFF srcDevice 0

/-- CAL_WRITE (R471). -/
def execCalWrite (id : Nat) (data : Option (List Byte)) (s : State) : Host.Outcome State Fault Refusal :=
  run (fun d => d.command id 0x4B (fun x d => d.withRecord x data (fun b =>
    if calGood b then (d.calPut b).ok id [] else d.refuse id 0x010A))) s

end Sys2Proof.Machine
end

