-- ==== Sys2Proof/Machine/Recorder.lean ====
section
/-! DEFINITION. The Barker recorder's flash log, Headcount's freezes and dumps, and Hall of Mirrors (R512 to R534). -/

namespace Sys2Proof.Machine

/-! ## The Barker's log -/

/-- A record as 32 bytes (R523). -/
def BrkRec.bytes (r : BrkRec) : List Byte :=
  let b := leBytes 2 r.code ++ leBytes 1 (r.sev % 8) ++ leBytes 1 r.ctx ++ leBytes 2 r.source ++ leBytes 2 r.rep ++ leBytes 5 r.optime
    ++ leBytes 3 r.pwrcyc ++ leBytes 12 r.detail.toNat
  b ++ leBytes 4 (crc32c b)

/-- A record reaches flash; HELD follows (R527). -/
def Dev.brkAppend (d : Dev) (r : BrkRec) : Dev :=
  let l := d.barker.log ++ [r]
  ({ d with barker := { d.barker with log := l } }).setF BRK_STATUS 0 BRK_STATUS_HELD l.length

/-- A record that the recorder makes of itself, straight into flash. -/
def Dev.brkOwn (d : Dev) (code sev : Nat) (detail : BitVec 96) : Dev :=
  let r : BrkRec := ⟨code, sev, 0xFF, srcDevice, 1, d.fld BRK_OPTIME 0 BRK_OPTIME_SECONDS, d.fld BRK_PWRCYC 0 BRK_PWRCYC_COUNT, detail⟩
  ((d.brkAppend r).bump BRK_CNT 3 1).brkSignal sev

/-- The oldest staged record is programmed; with 8,191 held, the log closes with 0x3E01 and stops (R527, R528). -/
def Dev.brkProgram (d : Dev) : Dev :=
  match d.barker.staged with
  | [] => d
  | r :: rest =>
    if d.flag BRK_STATUS 0 BRK_STATUS_FULL then d
    else
      let d := Dev.brkAppend { d with barker := { d.barker with staged := rest } } r
      if d.barker.log.length = 8191 then (d.brkOwn 0x3E01 3 0).setF BRK_STATUS 0 BRK_STATUS_FULL 1 else d

/-- Every staged record is programmed, as at the start of a warm reset or of Hibernate (R527). -/
def Dev.brkFlush (d : Dev) : Dev := (List.range 256).foldl (fun (d : Dev) _ => d.brkProgram) d

/-- BARKER_PROGRAM: the oldest staged record is programmed, except during a Ringmaster restart (R527). -/
def execBarkerProgram (s : State) : Host.Outcome State Fault Refusal := run (fun d => if d.rmRestart then d else d.brkProgram) s

/-- RECORDER_READ: the held records, oldest first, then the staged ones (R386, R389, R528). -/
def execRecorderRead (id : Nat) (ok : Bool) (s : State) : Host.Outcome State Fault Refusal :=
  run (fun d => d.command id 0x50 (fun x d =>
    let n := x.p 10 2
    let held := d.barker.log.length
    if n > 8192 then d.outOfRange id 10
    else
      let rs := slice (d.barker.log ++ d.barker.staged) (x.p 8 2) n
      if n = 0 then d.ok id (leBytes 2 held ++ leBytes 2 0)
      else d.writeData x 0 (rs.flatMap BrkRec.bytes) ok (fun d => d.ok id (leBytes 2 held ++ leBytes 2 rs.length)))) s

/-- RECORDER_CLEAR: the log is erased; its first record is 0x3E02, and the staged records follow it (R528).
DESIGN CHOICE, log entry 15. -/
def execRecorderClear (id : Nat) (s : State) : Host.Outcome State Fault Refusal :=
  run (fun d => d.command id 0x51 (fun _ d =>
    let n := d.barker.log.length
    let d := Dev.setF { d with barker := { d.barker with log := [] } } BRK_STATUS 0 BRK_STATUS_FULL 0
    (d.brkOwn 0x3E02 1 (BitVec.ofNat 96 n)).ok id (leBytes 2 n))) s

/-- OPTIME_ADVANCE: one second of the always-on clock; an unlock ends when the count reaches its EXPIRES (R446, R525). -/
def execOptimeAdvance (s : State) : Host.Outcome State Fault Refusal :=
  run (fun d =>
    if d.phase = .off then d
    else
      let t := min (2 ^ 40 - 1) (d.fld BRK_OPTIME 0 BRK_OPTIME_SECONDS + 1)
      let d := d.setF BRK_OPTIME 0 BRK_OPTIME_SECONDS t
      if d.fld SEC_DBG_STATUS 0 SEC_DBG_STATUS_SCOPE ≠ 0 ∧ d.fld SEC_DBG_STATUS 0 SEC_DBG_STATUS_EXPIRES ≤ t then d.dbgEnd else d) s

/-- OPTIME_SAVE: every 600 s, the operating-time count is saved to the recorder partition (R525). -/
def execOptimeSave (s : State) : Host.Outcome State Fault Refusal :=
  run (fun d => if d.phase = .off then d else { d with savedTime := d.fld BRK_OPTIME 0 BRK_OPTIME_SECONDS }) s

/-! ## Headcount -/

/-- A freeze: the latest raw and extended value of every counter, and the units whose counters a reset returned since the freeze
before (R515, R520). DESIGN CHOICE, log entry 15. -/
def Dev.hcFreeze (d : Dev) : Dev :=
  let d := d.bump HC_CNT 0 1
  let keys := ((d.regs ++ d.hcExt.map (fun x => (x.1, (0 : W64)))).map (fun (x : Nat × W64) => x.1)).filter (fun k =>
    (regOf (k / 2 ^ 20)).any (fun r => (r.unitCode (k % 2 ^ 20)).isSome))
  let ext := keys.foldl (fun (t : Tab (Nat × Nat)) k =>
    let old := Tab.get (0, 0) d.hcExt k
    let raw := match regOf (k / 2 ^ 20) with | some r => (d.rd r (k % 2 ^ 20)).toNat % 2 ^ 48 | none => 0
    Tab.set (0, 0) t k (raw, (old.2 + (raw + 2 ^ 48 - old.1) % 2 ^ 48) % 2 ^ 64)) []
  { d with hcExt := ext, hcMark := d.hcRst, hcRst := [], snsLossAt := d.snsLoss, ctxZero := [] }

/-- A periodic freeze, or one that a write of NOW asks for: skipped while a dump is in progress (R515 to R517). -/
def Dev.hcPeriodic (d : Dev) (now : Nat) : Dev :=
  if d.hcDump.isSome then d.bump HC_CNT 1 1
  else ({ d.hcFreeze with hcDump := some (now, d.fld BRK_OPTIME 0 BRK_OPTIME_SECONDS) }).setF HC_STATUS 0 HC_STATUS_BUSY 1

/-- HEADCOUNT_FREEZE: the period of HC_CTRL has passed at timebase cycle `now` (R515). -/
def execHeadcountFreeze (now : Nat) (s : State) : Host.Outcome State Fault Refusal :=
  run (fun d => if d.flag HC_CTRL 0 HC_CTRL_EN then d.hcPeriodic now else d) s

/-- A write of HC_CTRL. -/
def Dev.hcCtrl (d : Dev) (v : W64) (now : Nat) : Dev :=
  let d := d.store HC_CTRL 0 .whole v
  if v.getLsbD 30 then d.hcPeriodic now else d

/-- HC_NOW_WRITE (R515, R517). -/
def execHcNowWrite (v : W32) (now : Nat) (s : State) : Host.Outcome State Fault Refusal := run (fun d => d.hcCtrl (v.setWidth 64) now) s

/-- A value of a dump: the counters whose sum it is, and the context that indexes it. -/
structure HcVal where
  reg : Reg
  ixs : List Nat
  ctx : Option Nat := none
  deriving DecidableEq, Repr

/-- Values of a plain array. -/
def hcPlain (r : Reg) (first n : Nat) : List HcVal := (List.range n).map (fun k => ⟨r, [first + k], none⟩)

/-- Values of a selected register expanded by point, context and class (R521). -/
def hcSel (r : Reg) (pts classes : Nat) (ix : Nat → Nat → Nat → Nat) : List HcVal :=
  (List.range pts).flatMap (fun p => (List.range 8).flatMap (fun c => (List.range classes).map (fun k => ⟨r, [ix p c k], some c⟩)))

/-- Agents with receive queues, in order (R390). -/
def agents : List Nat := List.range 33 ++ (List.range 8).map (0x30 + ·) ++ [0x3F]

/-- The sections of a dump in order: unit code and values (R521). -/
def hcSections : List (Nat × List HcVal) :=
  [(0x10000, hcPlain FLT_CNT 0 8 ++ hcSel FLT_OFF 1 4 (fun _ c k => c * 4 + k) ++ hcSel FLT_DP 1 4 (fun _ c k => c * 4 + k)
     ++ hcPlain RST_CNT 0 7 ++ hcPlain PWR_REFCNT 0 9 ++ hcPlain BRK_CNT 0 4 ++ hcPlain HC_CNT 0 2),
   (0x20000, (List.range 8).flatMap (fun c => (List.range 10).map (fun k => ⟨CLP_CNT, [c * 10 + k], some c⟩))),
   (0x30000, (List.range 8).flatMap (fun c => (List.range 9).map (fun k => ⟨USH_CNT, [c * 9 + k], some c⟩))),
   (0x40000, hcPlain HST_BOX_CNT 0 6 ++ hcSel HST_DP 4 2 (fun p c k => p * 16 + c * 2 + k))]
  ++ agents.map (fun a => (0x50000 + a,
      (List.range 5).map (fun k => (⟨MQ_CNT, (List.range 65).map (fun p => (a * 128 + p) * 8 + k), none⟩ : HcVal))
      ++ (List.range 5).flatMap (fun p => (List.range 8).map (fun c => ⟨MQ_DP, [(a * 8 + p) * 8 + c], some c⟩))))
  ++ [(0x60000, (List.range 17).flatMap (fun p => hcPlain SNS_DP (p * 32) 19) ++ (List.range 10).flatMap (fun p => hcPlain SNS_PC (p * 32) 19))]
  ++ (List.range 6).map (fun p => (0x70000 + p,
      hcPlain ELK_CNT (p * 11) 11 ++ hcPlain ELK_DP (p * 128) 1 ++ hcSel ELK_DP 1 4 (fun _ c k => (p * 4 + 1) * 32 + c * 4 + k)))
  ++ [(0x80000, hcPlain RIM_CNT 0 7 ++ hcSel RIM_DP 9 4 (fun p c k => p * 32 + c * 4 + k))]
  ++ (List.range 32).map (fun t => (0x90000 + t * 256,
      hcPlain MID_CNT (t * 9) 9 ++ hcPlain MID_PC (t * 64) 48 ++ hcSel MID_DP 8 4 (fun p c k => (t * 8 + p) * 32 + c * 4 + k)))
  ++ (List.range 32).map (fun t => (0xA0000 + t * 256,
      hcPlain TUM_CNT (t * 12) 12 ++ hcSel TUM_DP 2 2 (fun p c k => (t * 8 + p) * 16 + c * 2 + k)))
  ++ (List.range 33).map (fun t => (0xB0000 + t * 256, hcPlain RAB_CNT (t * 6) 6))
  ++ (List.range 288).map (fun e => (0xC0000 + e / 9 * 256 + e % 9,
      hcPlain NE_NPCNT (e * 12) 12 ++ hcPlain NE_SPCNT (e * 20) 20 ++ hcPlain NE_TCNT (e * 2) 2
      ++ hcSel NE_DP_EMITDUP 1 2 (fun _ c k => e * 16 + c * 2 + k)
      ++ hcSel NE_SDP 6 2 (fun p c k => (e * 8 + p) * 16 + c * 2 + k) ++ hcSel NE_LATE 4 2 (fun p c k => (e * 8 + p) * 16 + c * 2 + k)))

/-- Bytes of a dump, which is fixed for a device: the header, and for each section its header and its values (R519 to R521). -/
def hcLength : Nat :=
  64 + 8 * (1 + 8 + 32 + 32 + 7 + 9 + 4 + 2) + 8 * (1 + 80) + 8 * (1 + 72) + 8 * (1 + 6 + 64) + 42 * 8 * (1 + 5 + 40)
  + 8 * (1 + 17 * 19 + 10 * 19) + 6 * 8 * (1 + 11 + 1 + 32) + 8 * (1 + 7 + 288) + 32 * 8 * (1 + 9 + 48 + 256) + 32 * 8 * (1 + 12 + 32)
  + 33 * 8 * (1 + 6) + 288 * 8 * (1 + 12 + 20 + 2 + 16 + 96 + 64)

/-- One value as a dump shows it: extended, or its part of a chained pair's 96 bits; zero for a confidential context (R518, R520). -/
def Dev.hcValue (d : Dev) (v : HcVal) : Nat :=
  if v.ctx.any (fun c => d.confidential c) then 0
  else
    let ext := fun (i : Nat) => Tab.get (0, 0) d.hcExt (v.reg.key i)
    match v.reg.chain, v.ixs with
    | some (kind, arr, len), [i] =>
      let k := i % len
      if d.chained kind arr (k / 2) ∧ k / 2 * 2 + 1 < len then
        let b := i - k + k / 2 * 2
        let x := (ext b).1 + (ext (b + 1)).1 * 2 ^ 48
        if k % 2 = 0 then x % 2 ^ 64 else x / 2 ^ 64
      else (ext i).2
    | _, is => ((is.map (fun i => (ext i).2)).sum) % 2 ^ 64

/-- One section (R520). -/
def Dev.hcSection (d : Dev) (x : Nat × List HcVal) : List Byte :=
  leBytes 4 (x.1 * 256) ++ leBytes 2 x.2.length ++ leBytes 1 (if d.hcMark.contains x.1 then 1 else 0) ++ leBytes 1 0
  ++ x.2.flatMap (fun v => leBytes 8 (d.hcValue v))

/-- A dump's bytes (R519). -/
def Dev.hcBytes (d : Dev) (tb sec : Nat) : List Byte :=
  let body := hcSections.flatMap (fun x => d.hcSection x)
  let cnf := (List.range 8).any (fun c => d.confidential c)
  let chain := d.regs.any (fun x => x.1 / 2 ^ 20 == HC_CHAIN.id && x.2 != 0)
  let hdr := leBytes 4 0x44484348 ++ leBytes 2 1 ++ leBytes 2 hcSections.length ++ leBytes 8 (d.hcSeq + 1) ++ leBytes 8 tb
    ++ leBytes 5 sec ++ leBytes 3 (d.fld BRK_PWRCYC 0 BRK_PWRCYC_COUNT) ++ leBytes 4 (64 + body.length)
    ++ leBytes 1 ((if cnf then 1 else 0) + (if chain then 2 else 0)) ++ leBytes 3 0 ++ leBytes 8 (Tab.get (0, 0) d.hcExt (HC_CNT.key 1)).1
    ++ leBytes 8 0 ++ leBytes 4 (crc32c body)
  hdr ++ leBytes 4 (crc32c hdr) ++ body

/-- HEADCOUNT_DUMP_COMPLETE: the dump is written to its destinations and SEQ names it; `ok` is false when the write into host memory
fails (R518, R519). DESIGN CHOICE, log entry 15. -/
def execHeadcountDumpComplete (ok : Bool) (s : State) : Host.Outcome State Fault Refusal :=
  run (fun d =>
    match d.hcDump with
    | none => d
    | some (tb, sec) =>
      let q := d.hcSeq + 1
      let slot := (q - 1) % 2 ^ d.fld HC_HDEST_CFG 0 HC_HDEST_CFG_SLOTS
      let a := d.fld HC_HDEST_BASE 0 HC_HDEST_BASE_ADDR * 4096 + slot * (cdiv hcLength 4096 * 4096)
      let d := if !(d.flag HC_HDEST_CFG 0 HC_HDEST_CFG_EN) then d
        else if d.flag HC_HDEST_BASE 0 HC_HDEST_BASE_LPDDR then d.stBytes a (d.hcBytes tb sec)
        else if ok ∧ d.dmaOk 0 then d.hostW a (d.hcBytes tb sec) else d
      let d : Dev := { d with dumps := ((d.hcExt.map (fun (x : Nat × Nat × Nat) => (x.1, x.2.2))) :: d.dumps).take 3 }
      ((({ d with hcDump := none, hcMark := [], hcSeq := q } : Dev).setF HC_STATUS 0 HC_STATUS_BUSY 0)).setF HC_SEQ 0 HC_SEQ_SEQ q) s

/-- Counters of a chainable array, each as register and index, when HC_CHAIN_SEL names one (R513). -/
def chainArray (kind arr : Nat) : Option (Reg × Nat) :=
  (allRegs.find? (fun r => r.chain.any (fun x => x.1 == kind && x.2.1 == arr))).bind (fun r => r.chain.map (fun x => (r, x.2.2)))

/-- HC_CHAIN_WRITE: the chain mask of the array that HC_CHAIN_SEL names; setting or clearing a bit zeroes counter 2j + 1 of every unit
(R513). DESIGN CHOICE, log entry 15. -/
def execHcChainWrite (v : W32) (s : State) : Host.Outcome State Fault Refusal :=
  run (fun d =>
    let kind := d.fld HC_CHAIN_SEL 0 HC_CHAIN_SEL_KIND
    let arr := d.fld HC_CHAIN_SEL 0 HC_CHAIN_SEL_ARRAY
    match chainArray kind arr with
    | none => d
    | some (r, len) =>
      let old := d.fld HC_CHAIN (kind * 256 + arr) HC_CHAIN_VALUE
      let d : Dev := { d with regs := d.regs.filter (fun (x : Nat × W64) =>
        let k := x.1 % 2 ^ 20 % len
        !(x.1 / 2 ^ 20 == r.id && k % 2 == 1 && old.testBit (k / 2) != v.getLsbD (k / 2))) }
      d.setF HC_CHAIN (kind * 256 + arr) HC_CHAIN_VALUE v.toNat) s

/-! ## Hall of Mirrors -/

/-- PHASE of the lap that a session writes (R532). -/
def Dev.homPhase (d : Dev) (h : Nat) : Bool := !(Tab.get false d.homLap h)

/-- A mirror record's 16 bytes (R530). -/
def Mirror.bytes (m : Mirror) (h : Nat) (phase : Bool) : List Byte :=
  leBytes 8 m.word.toNat ++ leBytes 6 m.stamp ++ leBytes 1 (m.tap * 32 + m.src % 32) ++ leBytes 1 (h * 32 + if phase then 16 else 0)

/-- Records at consecutive positions of a session's ring: their bytes, the next position and whether PHASE turned. -/
def homLay (n h : Nat) : Nat → Bool → List Mirror → List (Nat × List Byte) × Nat × Bool
  | wr, ph, [] => ([], wr, ph)
  | wr, ph, m :: ms =>
    let (l, wr', ph') := homLay n h ((wr + 1) % n) (if wr + 1 = n then !ph else ph) ms
    ((wr, m.bytes h ph) :: l, wr', ph')

/-- Records from ring positions `first` on, laid out for one packet. -/
def homRun (l : List (Nat × List Byte)) : List (Nat × List Byte) :=
  l.foldl (fun (acc : List (Nat × List Byte)) x =>
    match acc.reverse with
    | (p, b) :: rest => if p + b.length / 16 = x.1 then ((p, b ++ x.2) :: rest).reverse else acc ++ [x]
    | [] => [x]) []

/-- MIRROR_PACKET_SEND: up to 32 staged records of a session leave a tile or the rim in a class-2 packet for its ring (R530, R532).
DESIGN CHOICE, log entry 15. -/
def execMirrorPacketSend (place : Fin 33) (h : Fin 8) (s : State) : Host.Outcome State Fault Refusal :=
  run (fun d =>
    let q := Tab.get [] d.mirrors (place.val * 8 + h.val)
    if q.isEmpty then d
    else
      let n := d.homSize h
      let (l, wr, ph) := homLay n h (d.fld HOM_STATUS h HOM_STATUS_WR % n) (d.homPhase h) (q.take 32)
      let d : Dev := { d with mirrors := Tab.set [] d.mirrors (place.val * 8 + h.val) (q.drop 32), homLap := Tab.set false d.homLap h (!ph) }
      let d := d.setF HOM_STATUS h HOM_STATUS_WR wr
      let far := d.flag HOM_DEST h HOM_DEST_DEST
      let b := d.fld HOM_DEST h HOM_DEST_BASE
      let dst := if far then b / 2 ^ 33 else d.chipId
      let base := if far then b % 2 ^ 33 * 512 else b
      (homRun l).foldl (fun (d : Dev) x =>
        let k := d.mkBulk (d.fld HOM_SESS h HOM_SESS_CTX) dst 255 (base + x.1 * 16) x.2
        if place.val < 32 then d.tileSend place k else d.rimSend k) d) s

/-- A write of HOM_SESS_h: EN from 0 to 1 sets the write point to BASE and PHASE to 1 (R532, R534). -/
def Dev.homSess (d : Dev) (h : Nat) (half : Half) (v : W64) : Dev :=
  let was := d.flag HOM_SESS h HOM_SESS_EN
  let d := d.store HOM_SESS h half v
  if !was ∧ d.flag HOM_SESS h HOM_SESS_EN then
    ({ d with homLap := Tab.set false d.homLap h false }).setF HOM_STATUS h HOM_STATUS_WR 0
  else d

/-- HOM_SESS_WRITE (R532). -/
def execHomSessWrite (h : Fin 8) (half : Half) (v : W64) (s : State) : Host.Outcome State Fault Refusal := run (fun d => d.homSess h half v) s

end Sys2Proof.Machine
end

