-- ==== Sys2Proof/Machine/Boot.lean ====
section
/-! DEFINITION. Full resets, bring-up and readiness, secure boot, firmware slots and net boot, reference clocks (R29, R350, R448,
R449, R452, R457 to R467, R470, R473 to R475, R482, R495, R496, R527, R543, R556, R557, R562). -/

namespace Sys2Proof.Machine

/-! ## What a full reset leaves -/

/-- Bytes of the retention region (R540, R543). -/
def Dev.retention (d : Dev) : Nat := min 8 (d.fld MEM_RET 0 MEM_RET_EIGHTHS) * (usableBytes / 8)

/-- Keep letters that a full reset returns to default: `kind` 0 POR, 1 cold, 2 warm (R495). -/
def lostKeeps (kind : Nat) : List Keep := if kind = 0 then [.a, .b, .c, .d] else if kind = 1 then [.b, .c, .d] else [.c, .d]

/-- The device as a full reset leaves it, before bring-up; messages in queues are dropped as every queue closes (R403, R482, R495, R496, R527, R543, R556). DESIGN CHOICE, log entry 7. -/
def Dev.fullReset (d : Dev) (kind : Nat) : Dev :=
  let warm := kind = 2
  let d := (List.range 64).foldl (fun (d : Dev) a => (List.range (agentQueues a)).foldl (fun d q => d.mqFlush a q) d) d
  let kept := if warm then d.retention else 0
  let r := d.resetDomain (fun _ _ => true) (lostKeeps kind)
  { ({} : Dev) with
    regs := r.regs, hcExt := r.hcExt, hcRst := r.hcRst
    mem := d.mem.filter (fun (c : Host.Cell) => decide (flashBase ≤ c.1) || decide (c.1 < kept))
    poison := d.poison.filter (fun u => decide (u < kept))
    host := d.host, outs := d.outs, free := d.free, ret := d.ret
    barker := { log := d.barker.log, staged := if warm then d.barker.staged else [], rate := if warm then d.barker.rate else [] }
    pcie := { link := d.pcie.link, perst := d.pcie.perst, numVfs := 0, busMaster := 0, d3hot := 0, msix := 0, masked := [], waiting := [] }
    nextCopy := d.nextCopy, nextOwner := d.nextOwner, nextCmd := d.nextCmd
    lifecycle := d.lifecycle, svnMin := d.svnMin, slotA := d.slotA, slotB := d.slotB, bootB := d.bootB, fw := d.fw
    lics := d.lics, cal := d.cal, cfgGone := d.cfgGone, identity := d.identity, savedTime := d.savedTime, softRows := d.softRows
    phase := .held, faultN := if warm then d.faultN else true, wakeN := if warm then d.wakeN else false
    padAero := if warm then d.padAero else (0, false), padGpio := if warm then d.padGpio else (0, 0)
    hcSeq := if kind = 0 then 0 else d.hcSeq, cmps := if warm then d.cmps else [], smbAddr := d.smbAddr, rails := d.rails, tripped := d.tripped
    trims := if kind = 0 then factoryCal else d.trims, tap := if kind = 0 then {} else d.tap, tmr := if warm then d.tmr else [] }

/-! ## Images -/

/-- What a signed image is, when it passes the checks of R449: header, key slot, key digest, signature, SVN (R464). -/
def fwImageOf (f : Fuses) (svnMin : Nat) (b : List Byte) : Option FwImage :=
  let n := b.length
  let key := slice b (n - 2888) 68
  let sections := slice b (at_ b 24 4) (at_ b 28 4) ++ slice b (at_ b 32 4) (at_ b 36 4)
  if n < 64 + 2888 ∨ at_ b 0 4 ≠ 0x464D5A50 ∨ at_ b 12 4 ≠ n ∨ at_ b 10 1 > 1 ∨ at_ b 40 24 ≠ 0 then none
  else if keyOk f (at_ b 11 1) false key ∧ xmssVerify key (b.take (n - 2888)) (slice b (n - 2820) 2820) ∧ svnMin ≤ at_ b 8 2 then
    some ⟨at_ b 4 4, at_ b 8 2, at_ b 10 1 == 1, BitVec.ofNat 256 (leNat (shake256 b)), BitVec.ofNat 256 (leNat (shake256 sections))⟩
  else none

/-- The first bytes of a slot as a list, as far as its image's LENGTH. -/
def FwSlot.content (x : FwSlot) : List Byte :=
  let byte := fun i => Tab.get (0xFF : Byte) x.bytes i
  (List.range (min (2 ^ 24 - 4096) (leNat ((List.range 4).map (fun k => byte (12 + k)))))).map byte

/-- Whether a slot holds an image that the boot stage accepts (R449, R466). -/
def Dev.slotGood (d : Dev) (x : BootFind) (k : Nat) : Bool :=
  (d.slotOf k).image.any (fun i => decide (d.svnMin ≤ i.svn)) && !(if k = 0 then x.slotABad else x.slotBBad)

/-! ## Recovery and failures -/

/-- A bring-up failure: its record, and its code in GLB_BOOT.CAUSE (R461). -/
def Dev.bootFail (d : Dev) (code sev : Nat) : Dev := (d.setF GLB_BOOT 0 GLB_BOOT_CAUSE (code % 256)).occur code sev 0xFF srcDevice 0

/-- Recovery at a step of R457, with FAULT_N asserted (R461, R462). -/
def Dev.recover (d : Dev) (step : Nat) : Dev :=
  ({ d with phase := .recovery, faultN := true }.setF GLB_BOOT 0 GLB_BOOT_STEP step).setF GLB_BOOT 0 GLB_BOOT_RECOVERY 1

/-! ## The steps of bring-up -/

/-- Steps 1 and 2: PLLs locked, the fuse record read (R457, R460). -/
def Dev.bootFuses (d : Dev) (f : Fuses) : Dev :=
  let d := (d.setF CLK_STATUS 0 CLK_STATUS_LOCKED 127).setF SEC_LIFECYCLE 0 SEC_LIFECYCLE_STATE d.lifecycle
  (d.wr SEC_SERIAL 0 f.serial).setF GLB_BOOT 0 GLB_BOOT_STEP 2

/-- The calibration set as step 3 finds it (R470). DEDUCED, log entry 27. -/
def Dev.bootCal (d : Dev) (bad : Bool) : Dev :=
  let d : Dev := if bad then { d with cal := none } else d
  let d : Dev := { d with trims := d.calBytes }
  match d.cal with
  | some _ => ((d.setF CAL_STATUS 0 CAL_STATUS_VALID 1).setF CAL_STATUS 0 CAL_STATUS_LENGTH 1164).setMeas 4 (shake256 d.calBytes)
  | none => ((d.setF CAL_STATUS 0 CAL_STATUS_VALID 0).setF CAL_STATUS 0 CAL_STATUS_LENGTH 0).bootFail 0x3C04 3

/-- Step 3: the boot ROM verifies the boot stage from boot A, or from boot B (R448, R461); none when both fail. -/
def Dev.bootRom (d : Dev) (x : BootFind) : Option Dev :=
  let d := (d.setF GLB_BOOT 0 GLB_BOOT_STEP 3).setMeas 5 (List.replicate 32 0)
  let d := d.extendMeas 5 (leBytes 1 d.lifecycle)
  let d := d.drawChallenge
  if !x.bootABad then some ({ (d.setMeas 0 (leBytes 32 (Config.freeHash 0 []).toNat)) with faultN := false }.bootCal x.calBad)
  else match d.bootB.image with
    | some i =>
      if x.bootBBad ∨ i.svn < d.svnMin then none
      else
        let d := (d.setMeas 0 (leBytes 32 i.digest.toNat)).setF GLB_BOOT 0 GLB_BOOT_BOOT_B 1
        some (({ d with faultN := false }.bootFail 0x3C01 2).bootCal x.calBad)
    | none => none

/-- The slots in the order in which the boot stage tries them: a TRYING one, then ACTIVE ones by SEQ (R466). -/
def Dev.slotOrder (d : Dev) : List Nat :=
  let st := fun k => (d.slotOf k).state
  let act := if (d.slotOf 0).seq < (d.slotOf 1).seq then [1, 0] else [0, 1]
  [0, 1].filter (fun k => st k == 3) ++ act.filter (fun k => st k == 2)

/-- The slots of a list are tried in turn; a slot that fails becomes FAILED, and a TRYING one is so before its attempt (R461, R466). -/
def Dev.trySlots (d : Dev) (x : BootFind) : List Nat → Option Nat × Dev
  | [] => (none, d)
  | k :: ks =>
    let s := d.slotOf k
    let d := if s.state = 3 then d.setSlot k { s with state := 4 } else d
    if d.slotGood x k then (some k, d)
    else
      let d := d.setSlot k { d.slotOf k with state := 4 }
      let more := ks.any (fun j => d.slotGood x j)
      Dev.trySlots (if more then d.bootFail 0x3C02 2 else d) x ks

/-- FW_SOURCE, with 3 taken as 1 (R472). -/
def Dev.fwSource (d : Dev) : Nat := if d.fld GLB_BOOT_CFG 0 GLB_BOOT_CFG_FW_SOURCE = 3 then 1 else d.fld GLB_BOOT_CFG 0 GLB_BOOT_CFG_FW_SOURCE

/-- Step 5: licence records verified, SEC_LIC loaded; the identity key's next index (R454, R457, R461). -/
def Dev.bootLicences (d : Dev) (x : BootFind) : Dev :=
  let good := (d.lics.zipIdx.filter (fun r => !(x.badLics.contains r.2))).map (fun r => r.1)
  let tiles := good.foldl (fun a r => max a r.tiles) 16
  let ports := good.foldl (fun a r => max a r.ports) 2
  let d := (d.setF GLB_BOOT 0 GLB_BOOT_STEP 5).setF SEC_LIC 0 SEC_LIC_FEATURES (good.foldl (fun a r => a ||| r.features) 0)
  let d := (d.setF SEC_LIC 0 SEC_LIC_TILES tiles).setF SEC_LIC 0 SEC_LIC_TILES_NEXT tiles
  let d := ((d.setF SEC_LIC 0 SEC_LIC_PORTS ports).setF SEC_LIC 0 SEC_LIC_PORTS_NEXT ports).takeM3
  let d := if d.identity then d.setF SEC_ATTEST 0 SEC_ATTEST_NEXT (d.fld SEC_ATTEST 0 SEC_ATTEST_R_END) else d.wr SEC_ATTEST 0 0
  if good.length < d.lics.length ∨ d.lics = [] then d.bootFail 0x3C03 3 else d

/-- Step 6: LPDDR5X trained and initialised; the remap table loaded (R457, R540, R544); none when training fails. -/
def Dev.bootMemory (d : Dev) (x : BootFind) : Dev :=
  let pages := d.softRows.filter (fun a => decide (a < usableBytes))
  let d := (d.setF GLB_BOOT 0 GLB_BOOT_STEP 6).setF MEM_STATUS 0 MEM_STATUS_SPARES (4096 - pages.length)
  let d := pages.foldl (fun (d : Dev) p => d.setUnit 4 p 2 0) d
  if x.lpFail then (d.bootFail 0x3C05 4).recover 6 else d

/-- Engines that are Out after step 7 and why: 5 fuse, 4 test failed (R460, R461). -/
def engineOut (f : Fuses) (x : BootFind) (k : Nat) : Option Nat :=
  if (Tab.get 0 f.badEngines (k / 9)).testBit (k % 9) then some 5 else if x.badEngines.contains k then some 4 else none

/-- The units as fuses, licences and the self-test leave them: the highest-numbered good engine of each tile is its spare (R3, R29,
R417, R460, R461). DEDUCED, log entry 21. -/
def Dev.bootUnits (d : Dev) (f : Fuses) (x : BootFind) : Dev :=
  let d := (List.range 12).foldl (fun (d : Dev) k => if f.badElkLanes.testBit k then d.setUnit 5 k 2 5 else d) d
  (List.range 32).foldl (fun (d : Dev) t =>
    if !(d.licensed t) then d.setUnit 2 t 2 6
    else
      let good := (List.range 9).filter (fun e => (engineOut f x (t * 9 + e)).isNone)
      let d := (List.range 9).foldl (fun (d : Dev) e =>
        match engineOut f x (t * 9 + e) with | some r => d.setUnit 1 (t * 9 + e) 2 r | none => d) d
      let d := match good.getLast? with | some e => d.setUnit 1 (t * 9 + e) 4 0 | none => d
      if good.length < 8 then d.setUnit 2 t 2 4 else d) d

/-- Steps 7 and 8: repairs applied, the self-test, tile firmware and library broadcast (R432, R457, R461, R464). -/
def Dev.bootTiles (d : Dev) (f : Fuses) (x : BootFind) : Dev :=
  let d : Dev := { d with rowRepairs := f.repairs ++ d.softRows }
  let d := d.setF FLT_SOFTREP 0 FLT_SOFTREP_LISTED d.softRows.length
  let d := x.rows.foldl (fun (d : Dev) r => d.listRepair r) (d.setF GLB_BOOT 0 GLB_BOOT_STEP 7)
  let d := d.bootUnits f x
  let d := if x.rows = [] ∧ x.badEngines = [] then d else d.bootFail 0x3C06 3
  let d := x.badTiles.foldl (fun (d : Dev) t => d.setUnit 2 t 2 4) ((d.setF GLB_BOOT 0 GLB_BOOT_STEP 8).setMeas 2 (leBytes 32 d.fw.sections.toNat))
  if x.badTiles = [] then d else d.bootFail 0x3C06 3

/-- Step 9 begins: RIM_TOPO loaded, enabled and licensed ports train (R457, R459, R472). -/
def Dev.bootPorts (d : Dev) : Dev :=
  let v := d.rd GLB_TOPO_BOOT 0
  let d := if d.flag GLB_TOPO_BOOT 0 GLB_TOPO_BOOT_VALID then d.wr RIM_TOPO 0 (v &&& 0x3FFFFFFF) else d
  (List.range 6).foldl (fun (d : Dev) p => d.elkStart p) (d.setF GLB_BOOT 0 GLB_BOOT_STEP 9)

/-- Steps 5 to 9 with firmware from a slot. -/
def Dev.bootRest (d : Dev) (f : Fuses) (x : BootFind) : Dev :=
  let d := (d.bootLicences x).bootMemory x
  if d.phase = .recovery then d else { (d.bootTiles f x).bootPorts with phase := .ports }

/-- Net boot: steps 5, 6 and 9, then neighbours are asked (R465). -/
def Dev.bootNet (d : Dev) (x : BootFind) : Dev :=
  let d := (d.bootLicences x).bootMemory x
  if d.phase = .recovery then d else { d.bootPorts with phase := .net, netBoot := some { left := List.range 6 } }

/-- Bring-up from step 4: a slot chosen and verified, else net boot or recovery (R461, R466). -/
def Dev.bootFirmware (d : Dev) (f : Fuses) (x : BootFind) : Dev :=
  let d : Dev := { (d.setF GLB_BOOT 0 GLB_BOOT_STEP 4).setF GLB_BOOT 0 GLB_BOOT_RECOVERY 0 with phase := .held, faultN := false }
  if d.fwSource = 2 then d.bootNet x
  else
    match d.trySlots x d.slotOrder with
    | (some k, d) => match (d.slotOf k).image with
      | some i => (d.runImage k i).bootRest f x
      | none => d
    | (none, d) => if d.fwSource = 0 then (d.bootFail 0x3C02 4).recover 4 else (d.bootFail 0x3C07 1).bootNet x

/-- The boot configuration registers as their record in flash gives them, or its default where the record is absent or fails its check
(R16, R473). -/
def Dev.bootConfig (d : Dev) (x : BootFind) : Dev :=
  if d.cfgGone ∨ x.cfgBad then
    ((d.wr GLB_BOOT_CFG 0 (GLB_BOOT_CFG.reset 0)).wr GLB_TOPO_BOOT 0 0)
  else d

/-- Bring-up from step 3 (R457, R461). -/
def Dev.bootStage (d : Dev) (f : Fuses) (x : BootFind) : Dev :=
  match ({ d.setF GLB_BOOT 0 GLB_BOOT_RECOVERY 0 with phase := .held }).bootRom x with
  | some d => d.bootFirmware f x
  | none => ((d.setF GLB_BOOT 0 GLB_BOOT_STEP 3).bootFail 0x3C01 4).recover 3

/-- Bring-up from step 2 to the wait of step 9 (R457). -/
def Dev.bringUp (d : Dev) (f : Fuses) (x : BootFind) : Dev := ((d.bootConfig x).bootFuses f).bootStage f x

/-! ## Resets -/

/-- POWER_ON_RESET: PWR_GOOD low for 200 ns, or VDD_AON applied: POR, with the operating time restored and the power cycle counted
(R482, R525, R557). -/
def execPowerOnReset (s : State) : Host.Outcome State Fault Refusal :=
  run (fun d =>
    let cyc := min (2 ^ 24 - 1) (d.fld BRK_PWRCYC 0 BRK_PWRCYC_COUNT + 1)
    let full := d.flag BRK_STATUS 0 BRK_STATUS_FULL
    let d : Dev := { d.fullReset 0 with tripped := false }
    let d := (d.setF BRK_PWRCYC 0 BRK_PWRCYC_COUNT cyc).setF BRK_OPTIME 0 BRK_OPTIME_SECONDS d.savedTime
    let d := (d.setF BRK_STATUS 0 BRK_STATUS_HELD d.barker.log.length).setF BRK_STATUS 0 BRK_STATUS_FULL (if full then 1 else 0)
    d.occur 0x3E03 1 0xFF srcDevice 600) s

/-- PWR_GOOD_RISE: POR ends and bring-up starts; ADDR_SEL is sampled (R363, R457, R557). -/
def execPwrGoodRise (sel : Fin 4) (x : BootFind) (s : State) : Host.Outcome State Fault Refusal :=
  runF (fun f d => if d.phase = .held ∧ !d.tripped then Dev.bringUp { d with smbAddr := 0x60 + sel.val } f x else d) s

/-- Whether the device is out of POR and has its clocks. -/
def Dev.awake (d : Dev) : Bool := d.phase != .off && d.phase != .held && d.phase != .stopped && d.phase != .hibernate

/-- A cold reset, with its cause (R482, R497). -/
def Dev.coldReset (d : Dev) (cause : Nat) : Dev := ((d.fullReset 1).setF RST_STATUS 0 RST_STATUS_CAUSE cause).bump RST_CNT 0 1

/-- COLD_RESET: RESET_N low for 1 µs (R482). -/
def execColdReset (x : BootFind) (s : State) : Host.Outcome State Fault Refusal :=
  runF (fun f d => if d.phase = .off ∨ d.phase = .held then d else (d.coldReset 1).bringUp f x) s

/-- A warm reset: the staged records reach flash first, then bring-up from step 2 (R457, R482, R527). -/
def Dev.warmReset (d : Dev) (f : Fuses) (x : BootFind) (cause : Nat) : Dev :=
  let d := (d.brkFlush.fullReset 2).setF RST_STATUS 0 RST_STATUS_CAUSE cause
  (d.bump RST_CNT (if cause = 6 then 6 else 1) 1).bringUp f x

/-- WARM_RESET: a write of RST_CTRL.WARM (R482). -/
def execWarmReset (x : BootFind) (s : State) : Host.Outcome State Fault Refusal :=
  runF (fun f d => if d.awake then d.warmReset f x 3 else d) s

/-- HOT_RESET of the PCIe link: a warm reset (R350). -/
def execHotReset (x : BootFind) (s : State) : Host.Outcome State Fault Refusal :=
  runF (fun f d => if d.awake then d.warmReset f x 4 else d) s

/-- PF_FLR: a function-level reset of the PF is a warm reset (R350). -/
def execPfFlr (x : BootFind) (s : State) : Host.Outcome State Fault Refusal :=
  runF (fun f d => if d.awake then d.warmReset f x 5 else d) s

/-- SYSCLK_RECOVERY: SYSCLK has been present for 1 ms, and the device runs a cold reset (R475). -/
def execSysclkRecovery (x : BootFind) (s : State) : Host.Outcome State Fault Refusal :=
  runF (fun f d => if d.phase = .stopped then (d.coldReset 2).bringUp f x else d) s

/-- POWER_LOSS: VDD_AON is gone; staged records are lost, and a slot being written is left FAILED (R465, R527, R562). -/
def execPowerLoss (s : State) : Host.Outcome State Fault Refusal :=
  run (fun d =>
    let d := match d.netImage with
      | some (k, _) => d.setSlot k { d.slotOf k with state := 4 }
      | none => d
    let d := d.fullReset 1
    { d with phase := .off }) s

/-! ## Readiness -/

/-- Step 10 (R449, R458, R459, R466, R567). -/
def Dev.raiseReady (d : Dev) (ms : Nat) : Dev :=
  let net := d.netImage.isSome
  let k := d.fld GLB_BOOT 0 GLB_BOOT_FW_SLOT
  let d := (if net then d else d.activate k).ratchet d.fw
  let d := (d.setF GLB_BOOT 0 GLB_BOOT_STEP 10).setF GLB_BOOT 0 GLB_BOOT_READY 1
  let d := (d.setF GLB_BOOT_TIME 0 GLB_BOOT_TIME_MS ms).setF HC_STATUS 0 HC_STATUS_LENGTH hcLength
  let late := (List.range 6).filter (fun p => d.portLicensed p && d.flag ELK_CTRL p ELK_CTRL_EN && !(d.portUp p))
  let d := late.foldl (fun (d : Dev) p => d.occur 0x3C08 1 0xFF (srcPort p) 0) d
  let d := if d.tripped then Dev.occur { d with tripped := false } 0x3D20 4 0xFF srcDevice 0 else d
  Dev.msix { d with phase := .ready } 0 0

/-- The next neighbour that is UP is asked for an image; after the last, the first is asked again (R465).
DEDUCED, log entry 27. -/
def Dev.netAsk (d : Dev) (n : NetBoot) : Dev :=
  match n.left.filter (fun p => d.portUp p) with
  | [] => { d with netBoot := some { left := List.range 6 } }
  | p :: _ =>
    let d : Dev := { d with netBoot := some { left := n.left.filter (fun q => decide (p < q)), asked := some p } }
    let hdr := 16 * 2 ^ 40 + 14 * 2 ^ 28 + 2 ^ 21 + 14 * 2 ^ 17 + d.neighbourChip p % 2 ^ 15
    d.mqSend 0 hdr (leBytes 2 d.svnMin ++ leBytes 2 0 ++ leBytes 4 0 ++ leBytes 8 (usableBytes - 2 ^ 30)) 0

/-- The slot that a net-booted image is written to after READY: the failed one, or A under FW_SOURCE = 2 (R465).
DEDUCED, log entry 27. -/
def Dev.netSlot (d : Dev) : Nat := if d.fwSource = 2 then 0 else if d.slotA.state = 4 then 0 else if d.slotB.state = 4 then 1 else 0

/-- Net boot goes on: a reply's image is verified and run from LPDDR5X from step 7, or the next neighbour is asked (R465). -/
def Dev.netOn (d : Dev) (f : Fuses) (x : BootFind) (n : NetBoot) : Dev :=
  match n.asked, n.reply with
  | some _, none => d
  | some _, some (_, len) =>
    match (if len = 0 then none else fwImageOf f d.svnMin (d.ldBytes (usableBytes - 2 ^ 30) (min len (2 ^ 24)))) with
    | none => d.netAsk { n with asked := none, reply := none }
    | some i =>
      let d : Dev := { d with fw := i, netBoot := none, netImage := some (d.netSlot, len) }
      let d := (d.setF GLB_BOOT 0 GLB_BOOT_NETBOOT 1).setMeas 1 (leBytes 32 i.digest.toNat)
      { ((d.bootTiles f x).setF GLB_BOOT 0 GLB_BOOT_STEP 9) with phase := .ports }
  | none, _ => d.netAsk n

/-- PORT_WAIT_END: step 9 ends once each awaited port is UP, or silent for 50 ms, or ELK_WAIT_MS has passed; under net boot, the boot
stage goes on with its neighbours (R459, R465). -/
def execPortWaitEnd (silent : BitVec 6) (waited : Bool) (ms : BitVec 16) (x : BootFind) (s : State) : Host.Outcome State Fault Refusal :=
  runF (fun f d =>
    match d.phase, d.netBoot with
    | .ports, _ =>
      if waited ∨ (List.range 6).all (fun p => !(d.portLicensed p && d.flag ELK_CTRL p ELK_CTRL_EN) || d.portUp p || silent.getLsbD p)
      then d.raiseReady ms.toNat else d
    | .net, some n => d.netOn f x n
    | _, _ => d) s

/-- NET_BOOT_TIMEOUT: a request has had no reply for 20 ms (R465). -/
def execNetBootTimeout (s : State) : Host.Outcome State Fault Refusal :=
  run (fun d =>
    match d.phase, d.netBoot with
    | .net, some n => if n.asked.isSome ∧ n.reply.isNone then d.netAsk { n with asked := none } else d
    | _, _ => d) s

/-- Bytes in class-2 packets of up to 512 on completion counter 255 of context 0 (R313, R465). -/
def Dev.sendImage (d : Dev) (chip a : Nat) (bs : List Byte) : Dev :=
  (List.range (cdiv bs.length 512)).foldl (fun (d : Dev) k => d.rimSend (d.mkBulk 0 chip 255 (a + 512 * k) (slice bs (512 * k) 512))) d

/-- NET_BOOT_SERVE: the oldest request in queue 14 of agent 0x00 is answered: a READY chip whose image meets it sends the image, then
replies with FW_VERSION and LENGTH, any other replies LENGTH 0. `image` is the running image's bytes (R465). -/
def execNetBootServe (image : List Byte) (s : State) : Host.Outcome State Fault Refusal :=
  run (fun d =>
    match d.popMessage 0 14 with
    | none => d
    | some (h, b, d) =>
      let meets := d.phase == .ready && decide (at_ b 0 2 ≤ d.fw.svn) && (at_ b 4 4 == 0 || at_ b 4 4 == d.fw.version)
        && BitVec.ofNat 256 (leNat (shake256 image)) == d.fw.digest
      let d := if meets then d.sendImage (mhChip h) (at_ b 8 8) image else d
      let hdr := 8 * 2 ^ 40 + mhSrc h * 2 ^ 32 + mhRetQ h * 2 ^ 28 + mhChip h
      d.mqSend 0 hdr (leBytes 4 d.fw.version ++ leBytes 4 (if meets then image.length else 0)) 0) s

/-- NET_BOOT_SLOT_WRITE: after READY the Ringmaster has written the fetched image into its slot (R465, R466). -/
def execNetBootSlotWrite (s : State) : Host.Outcome State Fault Refusal :=
  run (fun d =>
    match d.phase, d.netImage with
    | .ready, some (k, len) =>
      let bs := d.ldBytes (usableBytes - 2 ^ 30) len
      let x : FwSlot := { state := 2, seq := (d.slotOf (1 - k)).seq + 1, image := some d.fw, bytes := bs.zipIdx.map (fun p => (p.2, p.1)) }
      if (d.slotOf k).image = some d.fw ∧ (d.slotOf k).state = 2 then { d with netImage := none } else { (d.setSlot k x) with netImage := none }
    | _, _ => d) s

/-- KEEP_F_REGISTER_WRITE: a write of GLB_BOOT_CFG, or of GLB_TOPO_BOOT, takes effect at once and is saved in the boot configuration
record, from which each bring-up reloads it (R473). DEDUCED, log entry 27. -/
def execKeepFRegisterWrite (topo : Bool) (v : W32) (s : State) : Host.Outcome State Fault Refusal :=
  run (fun d => { d.store (if topo then GLB_TOPO_BOOT else GLB_BOOT_CFG) 0 .whole (v.setWidth 64) with cfgGone := false }) s

/-! ## Reference clocks -/

/-- REFERENCE_CLOCK_LOSS for longer than 10 µs: 0 SYSCLK, 1 PE_REFCLK, 2 ELREFCLK, 3 + k the lock of PLL k of CLK_STATUS (R475). -/
def execReferenceClockLoss (k : Fin 10) (s : State) : Host.Outcome State Fault Refusal :=
  run (fun d =>
    if d.phase = .off ∨ d.phase = .held then d
    else
      let d := if k.val < 3 then d.setBitF CLK_STATUS 0 CLK_STATUS_REF_LOST k true else d.setBitF CLK_STATUS 0 CLK_STATUS_LOCKED (k - 3) false
      if k.val = 2 then
        ((List.range 6).foldl (fun (d : Dev) p => d.elkDown p) d).occur 0x3D10 3 0xFF srcDevice 0
      else if k.val = 1 ∨ k.val = 8 then
        let d := d.setBitF CLK_STATUS 0 CLK_STATUS_LOCKED 5 false
        Dev.occur { d with pcie := { d.pcie with link := false } } 0x3D10 (if k.val = 1 then 3 else 4) 0xFF srcDevice 0
      else
        let d := if k.val = 0 then d.setF CLK_STATUS 0 CLK_STATUS_LOCKED (d.fld CLK_STATUS 0 CLK_STATUS_LOCKED &&& 32) else d
        Dev.occur { d with phase := .stopped, faultN := true } 0x3D10 4 0xFF srcDevice 0) s

/-- REFERENCE_CLOCK_RETURN: with ELREFCLK back the ports train again (R475). -/
def execReferenceClockReturn (k : Fin 3) (s : State) : Host.Outcome State Fault Refusal :=
  run (fun d =>
    if !d.awake then d
    else if k.val = 2 then (List.range 6).foldl (fun (d : Dev) p => d.elkStart p) d
    else if k.val = 1 then d.setBitF CLK_STATUS 0 CLK_STATUS_LOCKED 5 true
    else d) s

/-! ## Firmware in service -/

/-- The slot that FW_STAGE writes: 0 A, 1 B, 2 boot B (R462, R467). -/
def Dev.stageSlot (d : Dev) : Nat :=
  if d.phase = .recovery then (if d.fld GLB_BOOT 0 GLB_BOOT_STEP = 3 then 2 else 0)
  else 1 - d.fld GLB_BOOT 0 GLB_BOOT_FW_SLOT

/-- A slot by its number, boot B among them. -/
def Dev.anySlot (d : Dev) (k : Nat) : FwSlot := if k = 2 then d.bootB else d.slotOf k

/-- Such a slot changes. -/
def Dev.putSlot (d : Dev) (k : Nat) (x : FwSlot) : Dev := if k = 2 then { d with bootB := x } else d.setSlot k x

/-- FW_STAGE: a chunk of an image, and with LAST its verification (R386, R389, R449, R462, R467). -/
def execFwStage (id : Nat) (data : Option (List Byte)) (s : State) : Host.Outcome State Fault Refusal :=
  runF (fun f d => d.command id 0x40 (fun x d =>
    let n := x.p 8 4
    let off := x.p 12 4
    let k := d.stageSlot
    let sl := d.anySlot k
    if n = 0 then d.finish id 0x0104 8 []
    else if n > 2 ^ 20 then d.outOfRange id 8
    else if off + n > (if k = 2 then 2 ^ 20 else 2 ^ 24 - 4096) then d.outOfRange id 12
    else if sl.state = 3 then d.busy id
    else d.withData x 0 n data (fun b =>
      let old := if sl.state = 0 then sl.bytes else []
      let sl : FwSlot := { state := 0, seq := sl.seq, image := none, bytes := b.zipIdx.foldl (fun t p => Tab.set (0xFF : Byte) t (off + p.2) p.1) old }
      if x.p 16 1 % 2 = 0 then (d.putSlot k sl).ok id []
      else match fwImageOf f d.svnMin sl.content with
        | some i => (d.putSlot k { sl with state := if k = 2 then 2 else 1, image := some i }).ok id (leBytes 4 i.version)
        | none => (d.putSlot k { sl with state := 4 }).refuse id 0x0108))) s

/-- FW_ACTIVATE: the staged image is tried at the next warm reset, or at once by a Ringmaster restart; in recovery bring-up runs
again (R386, R449, R462, R467). DEDUCED, log entry 27. -/
def execFwActivate (id : Nat) (x : BootFind) (s : State) : Host.Outcome State Fault Refusal :=
  runF (fun f d => d.command id 0x41 (fun c d =>
    let k := d.stageSlot
    let sl := d.anySlot k
    let good : Bool := [1, 2, 3].contains sl.state && sl.image.any (fun i => decide (d.svnMin ≤ i.svn))
    if !good then d.refuse id 0x0108
    else
      let d := if k = 2 then d else d.setSlot k { sl with state := 3 }
      if c.p 0 1 % 2 = 0 then d.ok id (leBytes 4 d.fw.version)
      else if d.phase = .recovery then
        let d := if k = 2 then d.bootStage f x else d.bootFirmware f x
        if d.phase = .recovery then d.finish id 0x0500 0x0201 [] else d.ok id (leBytes 4 d.fw.version)
      else Dev.ringmasterRestart { d with fwTry := some (k, id) } 1)) s

end Sys2Proof.Machine
end

