-- ==== Sys2Proof/Machine/Power.lean ====
section
/-! DEFINITION. Power states, frequency steps and stops of the halves, wake sources and pad latches (R190, R266 to R268, R351, R478 to
R481, R484 to R497). -/

namespace Sys2Proof.Machine

/-! ## What a power-gated half loses -/

/-- Tiles of a half. -/
def halfTiles (h : Nat) : List Nat := (List.range 32).filter (fun t => halfOf t == h)

/-- What lies at `src` is copied to `dst`, which held something else. -/
def Dev.copyOver (d : Dev) (src dst n : Nat) : Dev :=
  (d.mem.filter (fun (x : Host.Cell) => decide (src ≤ x.1) && decide (x.1 < src + n))).foldl (fun (d : Dev) (x : Host.Cell) => d.stB (dst + (x.1 - src)) x.2)
    (d.clear dst n)

/-- An engine that holds a block. -/
def Dev.hasBlock (d : Dev) (t e : Nat) : Bool :=
  (List.range 8).any (fun c => (Tab.get [] d.blocks c).any (fun b => b.tile == t && b.eng == e))

/-- The live side of the Trapeze of a stopped half drops what waits for it (R267, R478). -/
def Dev.seamFlush (d : Dev) (h : Nat) : Dev :=
  let out := if h = 0 then 3 else 2
  ((List.range 32).filter (fun t => t % 8 == (if h = 0 then 4 else 3))).foldl (fun (d : Dev) t =>
    ((d.router t).wait.filter (fun w => w.out == out)).foldl (fun (d : Dev) w =>
      let d := (d.subtract t w.flit).drop .seamStopped t w.flit.ctx w.flit.cls (evKey (w.flit.words.headD 0)) 1
      let r := d.router t
      let (left, inp, cls) := Tab.get (0, 0, 0) r.owed w.seq
      let d := d.setRouter t { r with wait := r.wait.erase w, owed := Tab.set (0, 0, 0) r.owed w.seq (if left ≤ 1 then (0, 0, 0) else (left - 1, inp, cls)) }
      if left ≤ 1 then d.freeBuffer t inp cls else d) d) d

/-- The rim side of a gateway that is power-gated: what its FIFOs hold is dropped (R478). -/
def Dev.gatewayFlush (d : Dev) (g : Nat) : Dev :=
  let d := (Tab.get [] d.gwIn g).foldl (fun (d : Dev) x => d.drop .rimPortDown 0 x.ctx x.cls (evKey x.word) 1) d
  let d := (Tab.get [] d.rimIn g).foldl (fun (d : Dev) f => d.drop .rimPortDown 0 f.ctx f.cls (if f.isData then 0 else evKey (f.words.headD 0)) 1) d
  { d with gwIn := Tab.set [] d.gwIn g [], rimIn := Tab.set [] d.rimIn g [] }

/-- The flits that a router holds: at its inputs, routed and waiting, at the local port, in combining entries, at its endpoints. -/
def Router.flits (r : Router) : List Flit :=
  r.arr.flatMap (fun q => q.2.map (fun a => a.flit)) ++ r.wait.map (fun w => w.flit) ++ r.local_.flatMap (fun q => q.2)
    ++ r.comb.map (fun c => c.flit) ++ r.feedQ.flatMap (fun q => q.2) ++ r.ends

/-- One tile is power-gated with the groups of `ret`: its engines, Tumbler and router hold nothing in motion, and the groups that are
not retained are lost; the learning words, Keep C registers of the rule aperture, stay, and a flit that the router holds is dropped (R20,
R196, R268, R486, R496). DEDUCED, log entry 16. -/
def Dev.gateTile (d : Dev) (t ret : Nat) : Dev :=
  let d := (List.range 9).foldl (fun (d : Dev) e =>
    let d := d.dropHeld t e (fun _ => true)
    let d := d.setEng t e { d.bareEngine t e with resetting := false, startQ := [] }
    let d := if ret.testBit 0 then d
      else ((d.clear (engBase t e) 0x200000).clear (engBase t e + 0x280000) 0x20000).clear (engBase t e + 0x2F0000) 0x8000
    if ret.testBit 1 then d else (d.clearEngineMem t e).clear (engBase t e + 0x2A0000) 0x20000) (d.mqCloseAgent (t + 1))
  let d := if ret.testBit 2 then d.dropMods t (fun _ => true)
    else (((d.clearTumbler t).clear (sharedBase t) 0x40000).clear (tumMem t + 2048) 3072).clear (tumMem t + 77 * 1024) 0x6CC00
  let r := d.router t
  let d := r.flits.foldl (fun (d : Dev) f => d.drop .tileReset t f.ctx f.cls (if f.isData then 0 else evKey (f.words.headD 0)) 1) d
  { d.setRouter t { ({} : Router) with slotBad := r.slotBad } with
    inflight := d.inflight.filter (fun (x : Nat × Int) => x.1 / 32 != t)
    mirrors := d.mirrors.filter (fun x => x.1 / 8 != t)
    gated := d.gated.filter (· != t), tileRst := d.tileRst.filter (· != t) }

/-- A half is power-gated, by Nap (`mark` 16) or as it stops (8) (R478, R481, R486). -/
def Dev.gateHalf (d : Dev) (h mark : Nat) : Dev :=
  let ret := d.rd PWR_NAP_RET 0 |>.toNat
  let d := (gwTiles.zipIdx.filter (fun g => halfOf g.1 == h)).foldl (fun (d : Dev) g => d.gatewayFlush g.2) d
  let d := (halfTiles h).foldl (fun (d : Dev) t => d.gateTile t ret) d
  let d := d.resetDomain (fun r i => (r.tileAt i).any (fun x => halfOf x.1 == h)) [.d]
  { d with halfGated := Tab.set 0 d.halfGated h (mark + ret % 8) }

/-- A tile whose groups were not all retained is refilled: engine images, records as R200 gives, tile firmware (R130, R200, R428,
R486). DEDUCED, log entry 16. -/
def Dev.refillTile (d : Dev) (t ret : Nat) : Dev :=
  let d := if ret.testBit 0 then d
    else ((List.range 9).filter (fun e => d.hasBlock t e)).foldl (fun (d : Dev) e =>
      let img := d.fld NE_HOME_BASE (engIx t e) NE_HOME_BASE_IMAGE * 64
      ((d.copyOver img (engBase t e) 0x200000).copyOver (img + 0x200000) (engBase t e + 0x2F0000) 0x8000).copyOver
        (img + 0x208000) (engBase t e + 0x280000) 0x20000) d
  let d := if ret.testBit 1 then d
    else (List.range 8).foldl (fun (d : Dev) c => ((Tab.get [] d.blocks c).filter (fun b => b.tile == t)).foldl (fun (d : Dev) b =>
      match recFind (d.recs c) 1 b.pop with
      | some r => d.initRecords c r b
      | none => d) d) d
  if ret.testBit 2 then d else { d with tcRestart := if d.tcRestart.contains t then d.tcRestart else d.tcRestart ++ [t] }

/-- A half gets its power back (R481, R486). -/
def Dev.ungateHalf (d : Dev) (h : Nat) : Dev :=
  let g := Tab.get 0 d.halfGated h
  if g = 0 then d
  else (halfTiles h).foldl (fun (d : Dev) t => d.refillTile t (g % 8)) { d with halfGated := Tab.set 0 d.halfGated h 0 }

/-! ## Steps -/

/-- The VID code follows the steps while VID_GPIO = 1 (R479, R480). -/
def Dev.driveVid (d : Dev) : Dev :=
  if d.flag PWR_CTRL 0 PWR_CTRL_VID_GPIO then
    let code := fun (h old : Nat) => if d.halfStopped h then old else d.halfStep h
    { d with vid := code 0 (d.vid % 4) + 4 * code 1 (d.vid / 4) }
  else d

/-- A half takes a step code: a step of its clock, a stop, or a restart (R479 to R481). DEDUCED, log entry 16. -/
def Dev.setStep (d : Dev) (h code : Nat) : Dev :=
  let was := d.halfStep h
  let d := if h = 0 then d.setF PWR_STATUS 0 PWR_STATUS_WEST code else d.setF PWR_STATUS 0 PWR_STATUS_EAST code
  if code = was then d
  else if code = 4 then
    let d := d.seamFlush h
    if d.flag PWR_CTRL 0 PWR_CTRL_STOP_PGATE then d.gateHalf h 8 else d
  else { (if was = 4 then d.ungateHalf h else d) with reclock := 2 }.driveVid

/-! ## Refusers -/

/-- Whether context `c` is mid-epoch, sweeping or writing through in a tile: the reason code (R190, R492). -/
def Dev.tumblerBusy (d : Dev) (t c : Nat) : Option Nat :=
  let x := d.tc t c
  let n := d.tickOf c
  let g := d.tum t
  if !((List.range 9).any (fun e => d.holds t e c)) ∨ x.len = 0 then none
  else if (x.epoch n).isSome ∧ x.epoch n = x.epoch (n + 1) then some 1
  else if g.sweep.any (fun w => w.ctx == c) then some 2
  else if g.wt.any (fun w => w.2.any (fun p => p.1 == c)) then some 3
  else none

/-- Whether a bulk transfer of a context is in flight at this chip (R492): a packet of class 2 unacknowledged, or not yet where it
goes. -/
def Dev.bulkBusy (d : Dev) (c : Nat) : Bool :=
  let mine := fun (k : Packet) => bits k.hdr.toNat 63 62 == 2 && bits k.hdr.toNat 50 48 == c
  d.xptTx.any (fun x => x.1 / 4 % 8 == c && (x.2.unacked.any (fun u => mine u.2.2) || x.2.waiting.any mine))
  || d.pkIn.any mine || d.xptIn.any mine || d.endIn.any (fun e => e.2.any mine)

/-- A tile or the rim (0xFF) whose Roustabout runs a unit test or has a region to test out of turn, in tiles that `sel` names (R421,
R431, R492). -/
def Dev.roustBusy (d : Dev) (sel : Nat → Bool) (rim : Bool) : List Nat :=
  let due := d.testDue.filterMap (fun a =>
    let r := roustaboutOf a
    if r < 32 then (if sel r then some r else none) else if rim then some 0xFF else none)
  (due ++ (d.units.filter (fun (u : Nat × Nat × Nat) => u.2.1 == 3)).filterMap (fun (u : Nat × Nat × Nat) =>
    let ix := u.1 % 2 ^ 48
    match u.1 / 2 ^ 48 with
    | 1 => if sel (ix / 9) then some (ix / 9) else none
    | 2 => if sel ix then some ix else none
    | 3 => if ix < rmSram then (let t := (ix - 0x1000000000) / 0x2000000; if sel t then some t else none) else if rim then some 0xFF else none
    | _ => none)).eraseDups

/-- What objects to Nap (2) or Hibernate (3), in ascending type order (R492). -/
def Dev.sleepRefusers (d : Dev) (st : Nat) : List Objection :=
  let cs := List.range 8
  (cs.filter (fun c => (d.gen c).running)).map (fun c => { type := 1, ctx := c, reason := 1 })
  ++ (List.range 32).flatMap (fun t => cs.filterMap (fun c => (d.tumblerBusy t c).map (fun r => { type := 2, tile := t, ctx := c, reason := r })))
  ++ (cs.filter (fun c => d.migrs.any (fun m => m.ctx == c))).map (fun c => { type := 3, ctx := c, reason := 1 })
  ++ (cs.filter (fun c => d.bulkBusy c)).map (fun c => { type := 5, ctx := c, reason := 1 })
  ++ (if st = 3 ∧ !(d.flag PWR_CTRL 0 PWR_CTRL_HIB_LINKS_OK) then ((List.range 6).filter (fun p => d.portUp p)).map (fun p => { type := 5, unit := p, reason := 2 }) else [])
  ++ (d.roustBusy (fun _ => true) true).map (fun t => { type := 6, tile := t, reason := 1 })

/-- Entries of a fan-out version that have been written. -/
def Dev.fanEntries (d : Dev) (t v : Nat) : List (Nat × Nat) :=
  let a := ftAddr t v 0
  (((d.mem.filter (fun (x : Host.Cell) => decide (a ≤ x.1) && decide (x.1 < a + 0x10000))).map (fun (x : Host.Cell) => (x.1 - a) / 16)).eraseDups).map (fun i => (i, d.ld (ftAddr t v i) 16))

/-- The gateways of a half, as a mask. -/
def halfGateways (h : Nat) : Nat := gwTiles.zipIdx.foldl (fun a g => if halfOf g.1 = h then a + 2 ^ g.2 else a) 0

/-- The tiles of a half, as a mask. -/
def halfMask (h : Nat) : Nat := (halfTiles h).foldl (fun a t => a + 2 ^ t) 0

/-- What Midway has against the stop of a half (R267, R492). -/
def Dev.stopRefusers (d : Dev) (h : Nat) : List Objection :=
  let owner := fun (t i : Nat) => ((List.range 8).find? (fun c =>
    let b := d.fld MID_FT_REGION (t * 8 + c) MID_FT_REGION_BASE
    decide (b ≤ i) && decide (i < b + d.fld MID_FT_REGION (t * 8 + c) MID_FT_REGION_COUNT))).getD 0
  let rimOwner := fun (i : Nat) => ((List.range 8).find? (fun c =>
    let b := d.fld RIM_TAB_REGION c RIM_TAB_REGION_BASE
    decide (b ≤ i) && decide (i < b + d.fld RIM_TAB_REGION c RIM_TAB_REGION_COUNT))).getD 0
  let names := fun (x : Nat) => bits x 95 95 == 1 && (bits x 63 32 &&& halfMask h != 0 || bits x 31 24 &&& halfGateways h != 0)
  let rimNames := fun (x : Nat) => bits x 95 95 == 1 && bits x 76 69 &&& halfGateways h != 0
  let tiles := List.range 32
  (List.range 8).flatMap (fun c => (((Tab.get [] d.blocks c).filter (fun b => halfOf b.tile == h)).map (fun b => b.tile)).eraseDups.map (fun t => { type := 4, tile := t, ctx := c, reason := 1 }))
  ++ ((tiles.flatMap (fun t => [0, 1].flatMap (fun v => (d.fanEntries t v).filterMap (fun x => if names x.2 then some (t, owner t x.1) else none)))).eraseDups).map
      (fun p => { type := 4, tile := p.1, ctx := p.2, reason := 2 })
  ++ ((d.rimTab.filterMap (fun x => if rimNames x.2 then some (rimOwner (x.1 % 16384)) else none)).eraseDups).map (fun c => { type := 4, ctx := c, reason := 2 })
  ++ ((List.range 8).filter (fun c => (halfTiles h).any (fun t => [0, 1].any (fun v => (List.range 4).any (fun p => (List.range 64).any (fun x =>
        (Tab.get [] d.flows c).any (fun f => d.slotFlow t v p x == f.id))))))).map (fun c => { type := 4, ctx := c, reason := 3 })

/-- What Usher has against a step of either half: crossing flows of contexts that run (R216, R266, R492). -/
def Dev.stepRefusers (d : Dev) (code : Nat) : List Objection :=
  (List.range 8).filterMap (fun c =>
    let fs := (Tab.get [] d.flows c).filter (fun f => (d.gen c).running && f.crosses)
    if fs.any (fun f => !f.tol) then some { type := 3, ctx := c, reason := 2 }
    else if fs ≠ [] ∧ d.fld USH_CTRL c USH_CTRL_SEAM_FLOOR < code then some { type := 3, ctx := c, reason := 3 }
    else none)

/-- What objects to a step code of a half, with the action of the log (R480, R481, R492, R497). -/
def Dev.halfRefusers (d : Dev) (h code : Nat) : List (Nat × Objection) :=
  let act := (if h = 0 then 0x10 else 0x18) + code
  if code = d.halfStep h then []
  else (if code = 4 then d.stopRefusers h ++ (d.roustBusy (fun t => halfOf t == h) false).map (fun t => { type := 6, tile := t, reason := 1 })
    else d.stepRefusers code).map (fun o => (act, o))

/-- POWER_STATE is refused: every objection is logged with its action, 0x3D01 is recorded once, RESULT names the first in type order
(R493). DEDUCED, log entry 16. -/
def Dev.powerRefused (d : Dev) (id : Nat) (os : List (Nat × Objection)) : Dev :=
  let d := (os.foldl (fun (d : Dev) x => d.logObjection x.1 0 x.2) d).occur 0x3D01 1 0xFF srcDevice 0
  let first := (List.range 10).findSome? (fun k => (os.find? (fun x => x.2.type == k)).map (fun x => x.2))
  d.finish id 0x0301 0x0107 ((first.map Objection.result).getD [])

/-! ## Entries and exits -/

/-- Nap is entered (R486). DEDUCED, log entry 16. -/
def Dev.enterNap (d : Dev) : Dev :=
  let d : Dev := { d with napFrom := (d.fld PWR_STATUS 0 PWR_STATUS_STATE, d.napFrom.2) }
  let d := d.setF CLK_STATUS 0 CLK_STATUS_LOCKED (d.fld CLK_STATUS 0 CLK_STATUS_LOCKED &&& 111)
  let d := [0, 1].foldl (fun (d : Dev) h => if Tab.get 0 d.halfGated h = 0 then d.gateHalf h 16 else d) d
  d.setF PWR_STATUS 0 PWR_STATUS_STATE 2

/-- Nap is left for a state: the halves that it gated get their power back (R486, R487). -/
def Dev.leaveNap (d : Dev) (st : Nat) : Dev :=
  let d := (d.setF PWR_STATUS 0 PWR_STATUS_STATE st).setF CLK_STATUS 0 CLK_STATUS_LOCKED (d.fld CLK_STATUS 0 CLK_STATUS_LOCKED ||| 16)
  [0, 1].foldl (fun (d : Dev) h => if 16 ≤ Tab.get 0 d.halfGated h then d.ungateHalf h else d) d

/-- What AERO A and REQ show: the latched pads while PADS_HELD is set (R491). -/
def Dev.aeroBalls (d : Dev) : Nat × Bool := if d.flag PWR_STATUS 0 PWR_STATUS_PADS_HELD then d.padAero else (d.aeroPin.a, d.aeroPin.req)

/-- Levels that GPIO15 to GPIO0 drive, and which of them are outputs: the VID codes under VID_GPIO, or the latched pads (R479, R491). -/
def Dev.gpioBalls (d : Dev) : Nat × Nat :=
  if d.flag PWR_STATUS 0 PWR_STATUS_PADS_HELD then d.padGpio else if d.flag PWR_CTRL 0 PWR_CTRL_VID_GPIO then (d.vid, 15) else (0, 0)

/-- Hibernate, once its record is written: staged records and the operating time reach flash, the pads are latched, the link and the
ports go, everything outside the always-on island powers down, and the retention region alone keeps its contents (R351, R488, R491,
R495, R496, R525, R527, R565). DEDUCED, log entry 16. -/
def Dev.hibernate (d : Dev) : Dev :=
  let d := d.brkFlush
  let d : Dev := { d with savedTime := d.fld BRK_OPTIME 0 BRK_OPTIME_SECONDS }
  let d := (List.range 6).foldl (fun (d : Dev) p => d.emitOut (.idle p)) d
  let r := d.fullReset 2
  let r := (List.range 16).foldl (fun (r : Dev) n => (r.setF PWR_TEMP n PWR_TEMP_TEMP (d.fld PWR_TEMP n PWR_TEMP_TEMP)).setF PWR_TEMP n PWR_TEMP_STALE 1) r
  let r := (r.wr PWR_THERM_STATUS 0 (d.rd PWR_THERM_STATUS 0)).wr PWR_PKG_POWER 0 (d.rd PWR_PKG_POWER 0)
  { r.setF PWR_STATUS 0 PWR_STATUS_PADS_HELD 1 with phase := .hibernate, padAero := d.aeroBalls, padGpio := d.gpioBalls, pcie := { r.pcie with link := false } }

/-- The POWER_STATE command whose Hibernate entry is under way, its record not yet written. -/
def Dev.hibernating (d : Dev) : Option Cmd :=
  if d.fld PWR_STATUS 0 PWR_STATUS_STATE = 3 then d.cmds.find? (fun c => c.opcode == 0x38 && c.stage == 2 && c.status == 0 && c.p 0 1 == 3) else none

/-- CQ_RECORD_WRITE: the record of the oldest command of a queue; that of a Hibernate entry is the entry's first act (R386, R488). -/
def execCqRecordWrite (q : Fin 25) (ok : Bool) (s : State) : Host.Outcome State Fault Refusal :=
  run (fun d =>
    let d' := d.recordWrite q ok
    if d.hibernating.isSome ∧ d'.hibernating.isNone then d'.hibernate else d') s

/-- One always-on cycle of comparator `n` with `uv` µV on its ball: the output asserts beyond the threshold plus or minus the
hysteresis and de-asserts at the threshold; the answer says whether it fires, having stayed asserted for DEB_US cycles (R490).
DEDUCED, log entry 16. -/
def Dev.compare (d : Dev) (n uv : Nat) : Dev × Bool :=
  let at_ := 1200000 * d.fld PWR_WAKE_CMP n PWR_WAKE_CMP_THRESH
  let hyst := 63 * ([0, 20000, 40000, 80000].getD (d.fld PWR_WAKE_CMP n PWR_WAKE_CMP_HYST) 0)
  let falling := d.flag PWR_WAKE_CMP n PWR_WAKE_CMP_POL
  let (was, run) := Tab.get (false, 0) d.cmps n
  let margin := if was then 0 else hyst
  let out := d.flag PWR_WAKE_CMP n PWR_WAKE_CMP_EN && (if falling then decide (63 * uv + margin < at_) else decide (at_ + margin < 63 * uv))
  let run := if out then run + 1 else 0
  ({ d with cmps := Tab.set (false, 0) d.cmps n (out, run) }, run == d.fld PWR_WAKE_CMP n PWR_WAKE_CMP_DEB_US + 1)

/-- Successive cycles of a comparator, and whether it fires in one of them. -/
def Dev.compareAll (d : Dev) (n : Nat) (volts : List Nat) : Dev × Bool :=
  volts.foldl (fun (a : Dev × Bool) uv => let (d, hit) := a.1.compare n uv; (d, a.2 || hit)) (d, false)

/-- Whether a source fires: a comparator as R490 says, a port that is DOWN, a selected edge of a selected GPIO, WAKE_N while the device
does not drive it (R489, R490). -/
def Dev.fires (d : Dev) : WakeInput → Dev × Bool
  | .comparator n volts => d.compareAll n volts
  | .timer _ => (d, true)
  | .wakePin => (d, !d.wakeN)
  | .signal p => (d, d.portState p == 0)
  | .gpio g falling => (d, (d.fld PWR_GPIO_WAKE 0 PWR_GPIO_WAKE_MASK).testBit g && (d.fld PWR_GPIO_WAKE 0 PWR_GPIO_WAKE_EDGE).testBit g == falling)

/-- POWER_STATE (R351, R386, R480, R481, R484 to R488, R492 to R494): `wake` is a wake source that fires during the entry into Nap.
DEDUCED, log entry 16. -/
def execPowerState (id : Nat) (wake : Option WakeInput) (s : State) : Host.Outcome State Fault Refusal :=
  run (fun d => d.command id 0x38 (fun x d =>
    let st := x.p 0 1
    let okStep := fun (v : Nat) => if st = 0 then v == 0 || v == 0xFF else if st = 1 then decide (v ≤ 4) || v == 0xFF else true
    let cur := d.fld PWR_STATUS 0 PWR_STATUS_STATE
    if st > 3 then d.outOfRange id 0
    else if !(okStep (x.p 1 1)) then d.outOfRange id 1
    else if !(okStep (x.p 2 1)) then d.outOfRange id 2
    else if st ≤ 1 then
      let want := fun (h v : Nat) => if st = 0 then 0 else if v = 0xFF then d.halfStep h else v
      let w := want 0 (x.p 1 1)
      let e := want 1 (x.p 2 1)
      let os := d.halfRefusers 0 w ++ d.halfRefusers 1 e
      if os ≠ [] then d.powerRefused id os
      else
        let d := if cur = 2 then d.leaveNap st else d.setF PWR_STATUS 0 PWR_STATUS_STATE st
        let d : Dev := if st = 0 then { d with gated := [] } else d
        ((d.setStep 0 w).setStep 1 e).ok id []
    else if st = cur then d.ok id []
    else
      let os := d.sleepRefusers st
      if os ≠ [] then d.powerRefused id (os.map (fun o => (st, o)))
      else if st = 3 then
        let d : Dev := { d with napFrom := (d.napFrom.1, cur) }
        (d.setF PWR_STATUS 0 PWR_STATUS_STATE 3).ok id []
      else
        match wake.map (fun w => (w.source, d.fires w)) with
        | some (n, d, true) =>
          if (d.fld PWR_WAKE_EN 0 PWR_WAKE_EN_EN).testBit n then
            (d.aborted 2 n).finish id 0x0301 0x0107 (Objection.result { type := 7, unit := n })
          else (d.setBitF PWR_WAKE_CAUSE 0 PWR_WAKE_CAUSE_PENDING n true).enterNap.ok id []
        | some (_, d, false) => d.enterNap.ok id []
        | none => d.enterNap.ok id [])) s

/-! ## Wake -/

/-- A wake source fires: disabled it only sets its PENDING bit; enabled it ends Nap, starts bring-up from Hibernate, or aborts an entry
(R487 to R489, R494). DEDUCED, log entry 18. -/
def Dev.wake (d : Dev) (f : Fuses) (n : Nat) (x : BootFind) : Dev :=
  if !((d.fld PWR_WAKE_EN 0 PWR_WAKE_EN_EN).testBit n) then d.setBitF PWR_WAKE_CAUSE 0 PWR_WAKE_CAUSE_PENDING n true
  else if d.phase = .hibernate then
    if 11 ≤ n ∧ n ≤ 16 then d
    else { (d.setF PWR_WAKE_CAUSE 0 PWR_WAKE_CAUSE_WOKE (2 ^ n)).warmReset f x 6 with wakeN := true }
  else if d.fld PWR_STATUS 0 PWR_STATUS_STATE = 2 then (d.setF PWR_WAKE_CAUSE 0 PWR_WAKE_CAUSE_WOKE (2 ^ n)).leaveNap d.napFrom.1
  else
    match d.hibernating with
    | some c =>
      if 11 ≤ n ∧ n ≤ 16 then d
      else
        let r := Objection.result { type := 7, unit := n }
        let d : Dev := { d with cmds := d.cmds.map (fun y => if y.id = c.id then { y with status := 0x0301, detail := 0x0107, result := r } else y) }
        (d.aborted 3 n).setF PWR_STATUS 0 PWR_STATUS_STATE d.napFrom.2
    | none => d

/-- WAKE_EVENT (R489, R490). DEDUCED, log entry 16. -/
def execWakeEvent (w : WakeInput) (x : BootFind) (s : State) : Host.Outcome State Fault Refusal :=
  runF (fun f d =>
    if d.phase = .off ∨ d.phase = .held then d
    else
      let (d, hit) := d.fires w
      if hit then d.wake f w.source x else d) s

/-! ## Clock gating and pads -/

/-- TILE_CLOCK_GATE: in Doze, a tile idle for 64 core cycles is clock-gated (R485). -/
def execTileClockGate (t : Tile) (s : State) : Host.Outcome State Fault Refusal :=
  run (fun d =>
    let idle := (List.range 9).all (fun e =>
      let g := d.eng t e
      g.qX.isEmpty && g.qO.isEmpty && g.phase.isNone && g.gather.isNone) && (d.tum t).sweep.isNone && (d.tum t).wt.isNone
    if d.fld PWR_STATUS 0 PWR_STATUS_STATE = 1 ∧ idle ∧ !(d.gated.contains t.val) ∧ !(d.halfStopped (halfOf t)) then
      { d with gated := d.gated ++ [t.val] } else d) s

/-- PAD_RELEASE: a write of PWR_PAD_RELEASE (R491). -/
def execPadRelease (v : W32) (s : State) : Host.Outcome State Fault Refusal :=
  run (fun d => if v.getLsbD 0 then { d.setF PWR_STATUS 0 PWR_STATUS_PADS_HELD 0 with padAero := (0, false), padGpio := (0, 0) } else d) s

end Sys2Proof.Machine
end

