-- ==== Sys2Proof/Machine/Timers.lean ====
section
/-! DEFINITION. The general-purpose timers (R498 to R511). -/

namespace Sys2Proof.Machine

/-! ## Flags -/

/-- Whether the always-on clock drives the channels: no timebase, or the Ringmaster in debug halt (R498).
DEDUCED, log entry 18. -/
def Dev.tmrSlow (d : Dev) : Bool := d.dbgHalt || !((d.fld CLK_STATUS 0 CLK_STATUS_LOCKED).testBit 4)

/-- Lap of a channel: its period, or 2^32 (R500). -/
def lapOf (period : Nat) : Nat := if period = 0 then 2 ^ 32 else period

/-- CMP_RANGE and PENDING of a channel stand as its registers and writes make them (R500, R511). -/
def Dev.tmrShow (d : Dev) (n : Nat) : Dev :=
  let p := d.fld TMR_PERIOD n TMR_PERIOD_PERIOD
  let out := p ≠ 0 ∧ p ≤ d.fld TMR_CMP n TMR_CMP_CMP
  (d.setF TMR_STATUS n TMR_STATUS_CMP_RANGE (if out then 1 else 0)).setF TMR_STATUS n TMR_STATUS_PENDING (if Tab.get [] d.tmr n = [] then 0 else 1)

/-- TMR_INT_STATUS follows the flags and their enables; the PF's vector 0 is signalled as it leaves zero in D0 (R507). -/
def Dev.tmrInt (d : Dev) : Dev :=
  let up := fun (n : Nat) => (d.flag TMR_STATUS n TMR_STATUS_MATCH && d.flag TMR_CTRL n TMR_CTRL_IE_MATCH)
    || (d.flag TMR_STATUS n TMR_STATUS_OVF && d.flag TMR_CTRL n TMR_CTRL_IE_OVF)
  let now := (List.range 8).foldl (fun a n => if up n then a + 2 ^ n else a) 0
  let was := d.fld TMR_INT_STATUS 0 TMR_INT_STATUS_CHAN
  let d := d.setF TMR_INT_STATUS 0 TMR_INT_STATUS_CHAN now
  if was = 0 ∧ now ≠ 0 ∧ d.pcie.link ∧ !d.pcie.perst ∧ !(d.pcie.d3hot.testBit 0) then d.msix 0 0 else d

/-! ## A timer clock -/

/-- A write takes effect (R502, R505, R506, R509). -/
def Dev.tmrApply (d : Dev) (n : Nat) (w : TmrWrite) : Dev :=
  let lap := lapOf (d.fld TMR_PERIOD n TMR_PERIOD_PERIOD)
  match w with
  | .period v => d.setF TMR_PERIOD n TMR_PERIOD_PERIOD v
  | .count v => d.setF TMR_COUNT n TMR_COUNT_COUNT v
  | .compare v => d.setF TMR_CMP n TMR_CMP_CMP v
  | .compareRel v => d.setF TMR_CMP n TMR_CMP_CMP ((d.fld TMR_COUNT n TMR_COUNT_COUNT + v) % lap)
  | .sync => d.setF TMR_COUNT n TMR_COUNT_COUNT ((lap - d.fld TMR_PHASE n TMR_PHASE_PHASE % lap) % lap)

/-- Order of effect within one clock: period, count, compare (R502). -/
def TmrWrite.rank : TmrWrite → Nat
  | .period _ => 0
  | .count _ => 1
  | .sync => 1
  | .compare _ => 2
  | .compareRel _ => 2

/-- The writes whose clock of effect this is, in their order; the others come one clock closer (R502). -/
def Dev.tmrDue (d : Dev) (n : Nat) : Dev :=
  let l := Tab.get [] d.tmr n
  let due := (l.filter (fun x => decide (x.1 ≤ 1))).map (fun x => x.2)
  let d : Dev := { d with tmr := Tab.set [] d.tmr n ((l.filter (fun x => !(decide (x.1 ≤ 1)))).map (fun x => (x.1 - 1, x.2))) }
  let sorted := due.filter (fun w => w.rank == 0) ++ due.filter (fun w => w.rank == 1) ++ due.filter (fun w => w.rank == 2)
  sorted.foldl (fun d w => d.tmrApply n w) d

/-- One step of R500's listing: the count, and whether it matched and wrapped. -/
def timerStep (period count cmp step : Nat) : Nat × Bool × Bool :=
  let lap := lapOf period
  if period ≠ 0 ∧ period ≤ count then (0, cmp == 0, true)
  else
    let hit := decide (cmp < lap) && decide ((cmp + lap - count - 1) % lap < step)
    let t := count + step
    if lap ≤ t then (t - lap, hit, true) else (t, hit, false)

/-- A channel's step, whether it matched (R500, R501, R507). DEDUCED, log entry 18. -/
def Dev.tmrStep (d : Dev) (n : Nat) : Bool × Dev :=
  if !(d.flag TMR_CTRL n TMR_CTRL_EN) then (false, d)
  else
    let (c, hit, ovf) := timerStep (d.fld TMR_PERIOD n TMR_PERIOD_PERIOD) (d.fld TMR_COUNT n TMR_COUNT_COUNT) (d.fld TMR_CMP n TMR_CMP_CMP)
      (if d.tmrSlow then 100 else 1)
    let d := d.setF TMR_COUNT n TMR_COUNT_COUNT c
    let d := if ovf then d.setF TMR_STATUS n TMR_STATUS_OVF 1 else d
    if hit then
      let d := d.setF TMR_STATUS n TMR_STATUS_MATCH 1
      (true, if d.flag TMR_CTRL n TMR_CTRL_ONESHOT then d.setF TMR_CTRL n TMR_CTRL_EN 0 else d)
    else (false, d)

/-- TIMER_STEP: one timer clock of the eight channels: due writes, steps, flags, and matches as wake sources (R498 to R508). -/
def execTimerStep (x : BootFind) (s : State) : Host.Outcome State Fault Refusal :=
  runF (fun f d =>
    if d.phase = .off ∨ (d.phase = .held ∧ !d.tripped) then d
    else
      let (hits, d) := (List.range 8).foldl (fun (acc : List Nat × Dev) n =>
        let (hit, d) := (acc.2.tmrDue n).tmrStep n
        (if hit then acc.1 ++ [n] else acc.1, d.tmrShow n)) ([], d)
      hits.foldl (fun (d : Dev) n => d.wake f (2 + n) x) d.tmrInt) s

/-! ## Writes -/

/-- A write is scheduled for the fourth timer clock after the one that samples it (R502). DEDUCED, log entry 18. -/
def Dev.tmrWrite (d : Dev) (n : Nat) (w : TmrWrite) : Dev :=
  ({ d with tmr := Tab.upd [] d.tmr n (· ++ [(4, w)]) }).setF TMR_STATUS n TMR_STATUS_PENDING 1

/-- TMR_PERIOD_WRITE (R502, R506). -/
def execTmrPeriodWrite (n : Fin 8) (v : W32) (s : State) : Host.Outcome State Fault Refusal := run (fun d => d.tmrWrite n (.period v.toNat)) s

/-- TMR_COUNT_WRITE (R502, R506). -/
def execTmrCountWrite (n : Fin 8) (v : W32) (s : State) : Host.Outcome State Fault Refusal := run (fun d => d.tmrWrite n (.count v.toNat)) s

/-- TMR_CMP_WRITE (R502, R503). -/
def execTmrCmpWrite (n : Fin 8) (v : W32) (s : State) : Host.Outcome State Fault Refusal := run (fun d => d.tmrWrite n (.compare v.toNat)) s

/-- TMR_CMP_REL_WRITE (R505). -/
def execTmrCmpRelWrite (n : Fin 8) (v : W32) (s : State) : Host.Outcome State Fault Refusal := run (fun d => d.tmrWrite n (.compareRel v.toNat)) s

/-- The channels of a mask load their phases in one clock of effect (R509). -/
def Dev.tmrSync (d : Dev) (mask : Nat) : Dev := (ones 8 mask).foldl (fun (d : Dev) n => d.tmrWrite n .sync) d

/-- TMR_SYNC_WRITE (R509). -/
def execTmrSyncWrite (v : W32) (s : State) : Host.Outcome State Fault Refusal := run (fun d => d.tmrSync (v.toNat % 256)) s

/-- Phases spread over channels of equal non-zero period, then synchronised; else STAGGER_ERR (R510). -/
def Dev.tmrStagger (d : Dev) (v : Nat) : Dev :=
  let ns := ones 8 (v % 256)
  if !(v.testBit 8) then d
  else match ns with
    | [] => d
    | n :: _ =>
      let p := d.fld TMR_PERIOD n TMR_PERIOD_PERIOD
      if p ≠ 0 ∧ ns.all (fun k => d.fld TMR_PERIOD k TMR_PERIOD_PERIOD == p) then
        (ns.zipIdx.foldl (fun (d : Dev) x => d.setF TMR_PHASE x.1 TMR_PHASE_PHASE (x.2 * p / ns.length)) d).tmrSync (v % 256)
      else d.setF TMR_GSTATUS 0 TMR_GSTATUS_STAGGER_ERR 1

/-- TMR_STAGGER_WRITE (R510). -/
def execTmrStaggerWrite (v : W32) (s : State) : Host.Outcome State Fault Refusal := run (fun d => d.tmrStagger v.toNat) s

end Sys2Proof.Machine
end

