-- ==== Sys2Proof/Machine/Thermal.lean ====
section
/-! DEFINITION. Thermal sensors, alert and trip, and package power (R565 to R567, R570). -/

namespace Sys2Proof.Machine

/-- Reading of sensor `n` after its THERM_OFF offset (R469, R565). -/
def Dev.sensed (d : Dev) (raw : List W16) (n : Nat) : W16 := raw.getD n 0 + BitVec.ofNat 16 (at_ d.trims (16 + 2 * n) 2)

/-- The trip threshold in 1/256 °C, held to the grade's limit of 115 °C (R567, R570). DEDUCED, log entry 29. -/
def Dev.tripAt (d : Dev) : Int := 256 * min 115 (d.fld PWR_THERM_CFG 0 PWR_THERM_CFG_TRIP_C)

/-- The alert threshold in 1/256 °C (R566). -/
def Dev.alertAt (d : Dev) : Int := 256 * d.fld PWR_THERM_CFG 0 PWR_THERM_CFG_ALERT_C

/-- The hottest reading, signed 8.8 °C. -/
def Dev.hottest (d : Dev) : Int := sgn 16 (d.fld PWR_THERM_STATUS 0 PWR_THERM_STATUS_TEMP)

/-- A clear of the THERM_ALERT_N latch, which acts below the hysteresis (R566). -/
def Dev.alertClear (d : Dev) : Dev :=
  if d.hottest < d.alertAt - 256 * max 1 (d.fld PWR_THERM_CFG 0 PWR_THERM_CFG_HYST_C) then d.setF PWR_THERM_STATUS 0 PWR_THERM_STATUS_ALERT 0 else d

/-- A write of PWR_THERM_STATUS: 1 to TRIPPED clears it, 1 to ALERT asks for the clear of the latch (R566, R570). -/
def Dev.thermWrite (d : Dev) (v : W64) : Dev :=
  let d := if PWR_THERM_STATUS_TRIPPED.get v = 1 then d.setF PWR_THERM_STATUS 0 PWR_THERM_STATUS_TRIPPED 0 else d
  if PWR_THERM_STATUS_ALERT.get v = 1 then d.alertClear else d

/-- The 16 readings are stored, with the hottest (R565). DEDUCED, log entry 29. -/
def Dev.putTemps (d : Dev) (ts : List W16) : Dev :=
  let d := ts.zipIdx.foldl (fun (d : Dev) x => (d.setF PWR_TEMP x.2 PWR_TEMP_TEMP x.1.toNat).setF PWR_TEMP x.2 PWR_TEMP_STALE 0) d
  let best := ts.zipIdx.foldl (fun (b : Nat × Int) x => if b.2 < x.1.toInt then (x.2, x.1.toInt) else b) (0, (ts.headD 0).toInt)
  (d.setF PWR_THERM_STATUS 0 PWR_THERM_STATUS_HOTTEST best.1).setF PWR_THERM_STATUS 0 PWR_THERM_STATUS_TEMP (ts.getD best.1 0).toNat

/-- A 1 ms average of package power ends (R570). -/
def Dev.putPower (d : Dev) (p : Nat) : Dev :=
  (d.setF PWR_PKG_POWER 0 PWR_PKG_POWER_AVG p).setF PWR_PKG_POWER 0 PWR_PKG_POWER_PEAK (max p (d.fld PWR_PKG_POWER 0 PWR_PKG_POWER_PEAK))

/-- A thermal trip: FAULT_N, and a cold reset that is held (R567). -/
def Dev.trip (d : Dev) (ts : List W16) : Dev :=
  let d := (Dev.coldReset { d with tripped := true } 1).putTemps ts
  { d.setF PWR_THERM_STATUS 0 PWR_THERM_STATUS_TRIPPED 1 with faultN := true, tripped := true, tripReads := 0 }

/-- THERMAL_SENSOR_READ: every 10 µs; `power` is a 1 ms average of package power that ended, `rails` the rail voltages in mV (R363, R565
to R567). DESIGN CHOICE, log entry 3, DEDUCED, log entry 29. -/
def execThermalSensorRead (raw : List W16) (power : Option W16) (rails : List W16) (s : State) : Host.Outcome State Fault Refusal :=
  run (fun d =>
    if d.phase = .off ∨ d.phase = .hibernate then d
    else
      let ts := (List.range 16).map (fun n => d.sensed raw n)
      let d := d.putTemps ts
      let d := match power with | some p => d.putPower p.toNat | none => d
      let d : Dev := { d with rails := (rails.take 4).zipIdx.foldl (fun m x => Tab.set 0 m x.2 x.1.toNat) d.rails }
      let d := if d.alertAt ≤ d.hottest then d.setF PWR_THERM_STATUS 0 PWR_THERM_STATUS_ALERT 1 else d
      if d.tripped ∧ d.phase = .held then d
      else
        let n := if d.tripAt ≤ d.hottest then d.tripReads + 1 else 0
        if 8 ≤ n then d.trip ts else { d with tripReads := n }) s

/-- THERMAL_TRIP_RELEASE: with every reading below TRIP_C − 20 °C the device leaves reset (R567). -/
def execThermalTripRelease (x : BootFind) (s : State) : Host.Outcome State Fault Refusal :=
  runF (fun f d => if d.tripped ∧ d.phase = .held ∧ d.hottest < d.tripAt - 20 * 256 then d.bringUp f x else d) s

/-- THERM_ALERT_CLEAR: a write of 1 to PWR_THERM_STATUS.ALERT (R566). -/
def execThermAlertClear (s : State) : Host.Outcome State Fault Refusal := run (fun d => d.alertClear) s

/-- PKG_POWER_READ: PEAK is returned and cleared (R570). -/
def execPkgPowerRead (s : State) : Host.Outcome State Fault Refusal :=
  run (fun d => { d.setF PWR_PKG_POWER 0 PWR_PKG_POWER_PEAK 0 with ret := d.rd PWR_PKG_POWER 0 }) s

end Sys2Proof.Machine
end

