-- ==== Sys2Proof/Machine/HostPins.lean ====
section
/-! DEFINITION. The PCIe link and PERST_N, the SMBus target and the TAP (R348, R350, R363 to R365, R445, R478). -/

namespace Sys2Proof.Machine

/-! ## PCIe -/

/-- Registers of the Box Office and the host rings, with their counters. -/
def inHost (r : Reg) (_ : Nat) : Bool := hostReg r || r.id == HST_BOX_CNT.id || r.id == HST_DP.id

/-- PERST_ASSERT: the endpoint and the Box Office are reset; rings and queues stop, contexts run on, and commands already taken run to
their end (R20, R350, R369, R370, R478).
DESIGN CHOICE, log entry 7, DEDUCED, log entry 29. -/
def execPerstAssert (s : State) : Host.Outcome State Fault Refusal :=
  run (fun d =>
    let d := d.resetDomain inHost [.d]
    let d := (List.range 24).foldl (fun (d : Dev) q => d.outstanding q) d
    { d with pcie := { link := false, perst := true, numVfs := 0, busMaster := 0, d3hot := 0, msix := 0 }
             outRings := [], injOut := [], injStopped := [], cqs := [], ctxZero := List.range 8, remoteAlive := [], sqStopped := [], cqStopped := []
             latches := d.latches.filter (fun l => match l.who with | .pf | .vf _ | .sq _ => false | _ => true) }) s

/-- PERST_DEASSERT: configuration space responds; WAKE_N is released, and a wake source fires (R350, R488, R489). -/
def execPerstDeassert (x : BootFind) (s : State) : Host.Outcome State Fault Refusal :=
  runF (fun f d =>
    if !d.pcie.perst then d
    else
      let d : Dev := { d with pcie := { d.pcie with perst := false } }
      let d := if d.phase = .off ∨ d.phase = .held then d else d.wake f 10 x
      { d with wakeN := false }) s

/-- PCIE_LINK_DOWN (R348). -/
def execPcieLinkDown (s : State) : Host.Outcome State Fault Refusal :=
  run (fun d => { d with pcie := { d.pcie with link := false } }) s

/-- PCIE_LINK_UP: the link is up, with the VFs, Bus Master Enable, D3hot and MSI-X Enable that the host has set and the vectors it has
masked; vectors held pending that may be sent go out (R346 to R348). DEDUCED, log entry 29. -/
def execPcieLinkUp (vfs : Fin 9) (busMaster d3hot msix : BitVec 9) (masked : List (Fin 9 × Fin 64)) (s : State) :
    Host.Outcome State Fault Refusal :=
  run (fun d =>
    if d.pcie.perst ∨ d.phase = .hibernate ∨ d.phase = .off then d
    else Dev.msixFlush { d with pcie := { d.pcie with link := true, numVfs := vfs, busMaster := busMaster.toNat, d3hot := d3hot.toNat, msix := msix.toNat,
                                                      masked := masked.map (fun x => (x.1.val, x.2.val)) } }) s

/-! ## SMBus -/

/-- The packet error code of a read: address and code written, address read, data (R363). PRESUMED, log entry 17. -/
def smbPec (a code : Nat) (data : List Byte) : Byte :=
  BitVec.ofNat 8 (crc 8 0x07 0 0 false false ([BitVec.ofNat 8 (2 * a), BitVec.ofNat 8 code, BitVec.ofNat 8 (2 * a + 1)] ++ data))

/-- A read is answered, in every power state except Off (R363). PRESUMED, log entry 17. -/
def Dev.smbReply (d : Dev) (code : Nat) (data : List Byte) (pec : Bool) : Dev :=
  if d.phase = .off then d else d.emitOut (.smb (if pec then data ++ [smbPec d.smbAddr code data] else data))

/-- SMB_STATUS_READ, code 0x00. -/
def execSmbStatusRead (pec : Bool) (s : State) : Host.Outcome State Fault Refusal :=
  run (fun d =>
    let bit := fun (b : Bool) (n : Nat) => if b then n else 0
    let st := if d.phase = .hibernate then 3 else d.fld PWR_STATUS 0 PWR_STATUS_STATE
    let v := bit (d.flag GLB_BOOT 0 GLB_BOOT_READY) 1 + bit d.faultN 2 + bit (d.flag PWR_THERM_STATUS 0 PWR_THERM_STATUS_ALERT) 4
      + bit (d.flag PWR_TEMP 0 PWR_TEMP_STALE) 8 + st * 16
    d.smbReply 0x00 (leBytes 1 v) pec) s

/-- SMB_HOTTEST_READ, code 0x01. -/
def execSmbHottestRead (pec : Bool) (s : State) : Host.Outcome State Fault Refusal :=
  run (fun d => d.smbReply 0x01 (leBytes 2 (d.fld PWR_THERM_STATUS 0 PWR_THERM_STATUS_TEMP)) pec) s

/-- SMB_SENSOR_READ, codes 0x02 to 0x11. -/
def execSmbSensorRead (n : Fin 16) (pec : Bool) (s : State) : Host.Outcome State Fault Refusal :=
  run (fun d => d.smbReply (2 + n) (leBytes 2 (d.fld PWR_TEMP n PWR_TEMP_TEMP)) pec) s

/-- SMB_POWER_READ, code 0x20. -/
def execSmbPowerRead (pec : Bool) (s : State) : Host.Outcome State Fault Refusal :=
  run (fun d => d.smbReply 0x20 (leBytes 2 (d.fld PWR_PKG_POWER 0 PWR_PKG_POWER_AVG)) pec) s

/-- SMB_RAIL_READ, codes 0x21 to 0x24. -/
def execSmbRailRead (k : Fin 4) (pec : Bool) (s : State) : Host.Outcome State Fault Refusal :=
  run (fun d => d.smbReply (0x21 + k) (leBytes 2 (Tab.get 0 d.rails k)) pec) s

/-- SMB_RECORDS_READ, code 0x30. -/
def execSmbRecordsRead (pec : Bool) (s : State) : Host.Outcome State Fault Refusal :=
  run (fun d => d.smbReply 0x30 (leBytes 2 d.barker.log.length) pec) s

/-- SMB_SERIAL_READ, code 0x40: a block of 8 bytes. -/
def execSmbSerialRead (pec : Bool) (s : State) : Host.Outcome State Fault Refusal :=
  runF (fun f d => d.smbReply 0x40 (8 :: leBytes 8 f.serial.toNat) pec) s

/-- SMB_FW_VERSION_READ, code 0x41: a block of 4 bytes. -/
def execSmbFwVersionRead (pec : Bool) (s : State) : Host.Outcome State Fault Refusal :=
  run (fun d => d.smbReply 0x41 (4 :: leBytes 4 d.fw.version) pec) s

/-- The packet error code of a send byte: address and code written (R363). PRESUMED, log entry 17. -/
def smbSendPec (a code : Nat) : Byte := BitVec.ofNat 8 (crc 8 0x07 0 0 false false [BitVec.ofNat 8 (2 * a), BitVec.ofNat 8 code])

/-- SMB_CLEAR_ALERT, code 0xF0; ignored when it carries a PEC that fails (R363, R566). -/
def execSmbClearAlert (pec : Option (BitVec 8)) (s : State) : Host.Outcome State Fault Refusal :=
  run (fun d => if pec.any (fun b => b != smbSendPec d.smbAddr 0xF0) ∨ d.phase = .off then d else d.alertClear) s

/-- Codes that the target answers (R363). -/
def smbListed (code : Nat) : Bool :=
  decide (code ≤ 0x11) || (decide (0x20 ≤ code) && decide (code ≤ 0x24)) || [0x30, 0x40, 0x41, 0xF0].contains code

/-- SMB_UNKNOWN_CODE: every other code is NACKed. -/
def execSmbUnknownCode (code : BitVec 8) (s : State) : Host.Outcome State Fault Refusal :=
  run (fun d => if smbListed code.toNat ∨ d.phase = .off then d else d.emitOut .smbNack) s

/-- SMB_CLOCK_LOW_TIMEOUT: after 35 ms of clock-low the bus is released. -/
def execSmbClockLowTimeout (s : State) : Host.Outcome State Fault Refusal :=
  run (fun d => if d.phase = .off then d else d.emitOut .smbRelease) s

/-! ## TAP -/

/-- The bypass register is selected and the pins are the device's. PRESUMED, log entry 17. -/
def Dev.tapBypass (d : Dev) (ir : Nat) : Dev := { d with tap := { d.tap with ir := ir, dr := 0, pins := 0, pulse := 0, data := [false] } }

/-- An instruction that could seize the pins: in DEPLOYED it takes effect only while RESET_N is low (R365). -/
def Dev.tapPins (d : Dev) (ir dr pins pulse : Nat) (resetLow : Bool) : Dev :=
  if d.lifecycle = 1 ∧ !resetLow then d.tapBypass ir
  else { d with tap := { d.tap with ir := ir, dr := dr, pins := pins, pulse := pulse, data := if dr = 2 then d.tap.boundary else [false] } }

/-- EXTEST: the pins are driven from the boundary register. -/
def execExtest (resetLow : Bool) (s : State) : Host.Outcome State Fault Refusal := run (fun d => d.tapPins 0x00 2 1 0 resetLow) s

/-- SAMPLE_PRELOAD: the pins are sampled, and the boundary register takes what is shifted in. DEDUCED, log entry 29. -/
def execSamplePreload (sampled shifted : List Bool) (s : State) : Host.Outcome State Fault Refusal :=
  run (fun d => { d with tap := { d.tap with ir := 0x01, dr := 2, pins := 0, pulse := 0, data := sampled, boundary := shifted } }) s

/-- IDCODE (R364). -/
def idcode : List Bool := (List.range 32).map (fun i => (0x1A715F3D : Nat).testBit i)

/-- The identification register is selected and captured. -/
def Dev.tapIdcode (d : Dev) : Dev := { d with tap := { d.tap with ir := 0x02, dr := 1, pins := 0, pulse := 0, data := idcode } }

/-- IDCODE. -/
def execIdcode (s : State) : Host.Outcome State Fault Refusal := run (fun d => d.tapIdcode) s

/-- CLAMP: outputs held from the boundary register, bypass selected. -/
def execClamp (resetLow : Bool) (s : State) : Host.Outcome State Fault Refusal := run (fun d => d.tapPins 0x03 0 1 0 resetLow) s

/-- HIGHZ: outputs in high impedance, bypass selected. -/
def execHighz (resetLow : Bool) (s : State) : Host.Outcome State Fault Refusal := run (fun d => d.tapPins 0x04 0 2 0 resetLow) s

/-- EXTEST_PULSE, of IEEE 1149.6. -/
def execExtestPulse (resetLow : Bool) (s : State) : Host.Outcome State Fault Refusal := run (fun d => d.tapPins 0x05 2 1 1 resetLow) s

/-- EXTEST_TRAIN, of IEEE 1149.6. -/
def execExtestTrain (resetLow : Bool) (s : State) : Host.Outcome State Fault Refusal := run (fun d => d.tapPins 0x06 2 1 2 resetLow) s

/-- BYPASS. -/
def execBypass (s : State) : Host.Outcome State Fault Refusal := run (fun d => d.tapBypass 0xFF) s

/-- PRIVATE_TAP_INSTRUCTION: a code that R364 does not list; what it does under SCOPE bit 3 the manual does not give, otherwise it acts
as BYPASS (R364, R445). DESIGN CHOICE, log entry 9. -/
def execPrivateTapInstruction (code : BitVec 8) (s : State) : Host.Outcome State Fault Refusal :=
  if code.toNat ≤ 6 ∨ code.toNat = 0xFF then run (fun d => d) s
  else if s.dev.dbgActive.testBit 3 then .refused .privateTap
  else run (fun d => d.tapBypass code.toNat) s

/-- TAP_RESET: TRST_N; the identification register is selected (R364). PRESUMED, log entry 17. -/
def execTapReset (s : State) : Host.Outcome State Fault Refusal := run (fun d => d.tapIdcode) s

end Sys2Proof.Machine
end

