-- ==== Sys2Proof/Machine/MemRegs.lean ====
section
/-! DEFINITION. The MEM registers with actions: context regions, the retention region, the flash user area (R540 to R543, R550). -/

namespace Sys2Proof.Machine

/-! ## Context regions -/

/-- Whether a region of R540 may be given to context `c` (R542). -/
def Dev.regionOk (d : Dev) (c : Nat) (v : W64) : Bool :=
  let size := MEM_CTX_SIZE.get v
  let lo := MEM_CTX_BASE.get v
  let top := usableBytes / 2 ^ 26
  !(d.flag USH_STATUS c USH_STATUS_PLACED) && decide (MEM_CTX_HOME.get v ≤ size)
  && (size == 0 || (decide (lo + size ≤ top - 16)
    && (List.range 8).all (fun k =>
      let n := d.fld MEM_CTX k MEM_CTX_SIZE
      let b := d.fld MEM_CTX k MEM_CTX_BASE
      k == c || n == 0 || decide (lo + size ≤ b) || decide (b + n ≤ lo))))

/-- A write of MEM_CTX_c (R542). -/
def Dev.memCtx (d : Dev) (c : Nat) (half : Half) (v : W64) : Dev :=
  if d.regionOk c (MEM_CTX.written (d.rd MEM_CTX c) v (halfCover half)) then d.store MEM_CTX c half v
  else d.setF MEM_STATUS_FLAGS 0 MEM_STATUS_FLAGS_CFG_ERR 1

/-- MEM_CTX_WRITE (R542). -/
def execMemCtxWrite (c : Ctx) (half : Half) (v : W64) (s : State) : Host.Outcome State Fault Refusal :=
  run (fun d => d.memCtx c half v) s

/-- MEM_RET_WRITE: the retention region of the next Hibernate entry or warm reset, which read MEM_RET when they come (R543). -/
def execMemRetWrite (v : W32) (s : State) : Host.Outcome State Fault Refusal :=
  run (fun d => d.store MEM_RET 0 .whole (v.setWidth 64)) s

/-! ## Flash user area -/

/-- A write or erase issued while BUSY is ignored and sets ERR; else BUSY is set (R550). -/
def Dev.flashOp (d : Dev) (f : Dev → Dev) : Dev :=
  if d.flag MEM_FLASH_STATUS 0 MEM_FLASH_STATUS_BUSY then d.setF MEM_FLASH_STATUS 0 MEM_FLASH_STATUS_ERR 1
  else (f d).setF MEM_FLASH_STATUS 0 MEM_FLASH_STATUS_BUSY 1

/-- Bytes programmed from an offset of the host range: programming can only clear bits (R550). -/
def Dev.flashProgram (d : Dev) (off : Nat) (bs : List Byte) : Dev :=
  bs.zipIdx.foldl (fun (d : Dev) p =>
    if off + p.2 < flashBytes then d.stB (flashBase + off + p.2) (d.ldB (flashBase + off + p.2) &&& p.1) else d) d

/-- A write into the host range (R550). -/
def Dev.flashWrite (d : Dev) (off : Nat) (bs : List Byte) : Dev := d.flashOp (fun d => d.flashProgram off bs)

/-- FLASH_WRITE (R550). -/
def execFlashWrite (off : BitVec 27) (bytes : List Byte) (s : State) : Host.Outcome State Fault Refusal :=
  run (fun d => if off.toNat < flashBytes then d.flashWrite off.toNat bytes else d) s

/-- A write of MEM_FLASH_CTRL: ERASE erases a sector of 64 KiB to ones (R550). -/
def Dev.flashCtrl (d : Dev) (v : W64) : Dev :=
  let n := MEM_FLASH_CTRL_SECTOR.get v
  if MEM_FLASH_CTRL_ERASE.get v = 1 ∧ n ≤ 1462 then d.flashOp (fun d => d.clear (flashBase + n * 65536) 65536) else d

/-- FLASH_ERASE (R550). DEDUCED, log entry 28. -/
def execFlashErase (v : W32) (s : State) : Host.Outcome State Fault Refusal := run (fun d => d.flashCtrl (v.setWidth 64)) s

/-- FLASH_BUSY_END (R550). -/
def execFlashBusyEnd (s : State) : Host.Outcome State Fault Refusal :=
  run (fun d => d.setF MEM_FLASH_STATUS 0 MEM_FLASH_STATUS_BUSY 0) s

end Sys2Proof.Machine
end

