-- ==== Sys2Proof/Machine/RegRead.lean ====
section
/-! DEFINITION. Reads of registers through the physical function's view and the context windows: which register an offset reaches
(R14, R352, R547), what a register shows whose value other state gives, what R439 closes off, the latch of R18, and what an access
outside the view returns (R353). -/

namespace Sys2Proof.Machine

/-! ## Where an offset leads -/

/-- Flat index and byte within the instance of an offset in an array given outermost dimension first; none outside. -/
def unradix (bytes : Nat) : List (Nat × Nat) → Nat → Nat → Option (Nat × Nat)
  | [], i, o => if o < bytes then some (i, o) else none
  | (stride, n) :: r, i, o => if o / stride < n then unradix bytes r (i * n + o / stride) (o % stride) else none

/-- Instance and byte of a register at an offset of a view: the physical function's, or the window of context c. -/
def Reg.at_ (r : Reg) (view : Option Nat) (a : Nat) : Option (Nat × Nat) :=
  let wins : List (Nat × List (Nat × Nat) × Nat) := match view with
    | none => r.pf.map (fun w => (w.base, w.dims, w.off))
    | some c => r.vf.map (fun w => (w.base, w.dims, w.off + w.mul * c))
  wins.findSome? (fun w =>
    if w.1 ≤ a then (unradix (r.width / 8) w.2.1 0 (a - w.1)).map (fun x => (x.1 + w.2.2, x.2)) else none)

/-- Register, instance and byte at an offset of a view. -/
def regAt (view : Option Nat) (a : Nat) : Option (Reg × Nat × Nat) :=
  allRegs.findSome? (fun r => (r.at_ view a).map (fun x => (r, x.1, x.2)))

/-- A register reached by an access: the instance, the part of it, and the byte of the access where that part starts. -/
structure Part where
  reg : Reg
  ix : Nat
  half : Half
  pos : Nat
  deriving DecidableEq, Repr

/-- The 16-bit register at an offset, as a part of an access. -/
def part2 (view : Option Nat) (a pos : Nat) : List Part :=
  match regAt view a with
  | some (r, i, 0) => if r.width = 16 then [⟨r, i, .whole, pos⟩] else []
  | _ => []

/-- The parts of an aligned 4-byte access (R18, R353). -/
def part4 (view : Option Nat) (a pos : Nat) : List Part :=
  match regAt view a with
  | some (r, i, b) =>
    if r.width = 32 then [⟨r, i, .whole, pos⟩]
    else if r.width = 64 then [⟨r, i, if b = 0 then .low else .high, pos⟩]
    else part2 view a pos ++ part2 view (a + 2) (pos + 2)
  | none => part2 view (a + 2) (pos + 2)

/-- The parts of an access, lowest address first; an error gives the KIND of the violation: width or alignment, or nothing mapped
(R353, R456). -/
def parts (view : Option Nat) (a n : Nat) : Except Nat (List Part) :=
  let l := match n with
    | 8 => match regAt view a with
      | some (r, i, 0) => if r.width = 64 then [⟨r, i, .whole, 0⟩] else part4 view a 0 ++ part4 view (a + 4) 4
      | _ => part4 view a 0 ++ part4 view (a + 4) 4
    | 4 => part4 view a 0
    | 2 => part2 view a 0
    | _ => []
  if (n = 4 ∨ n = 8) ∧ a % n = 0 then (if l.isEmpty then .error 0 else .ok l)
  else if n = 2 ∧ a % 2 = 0 ∧ !l.isEmpty then .ok l
  else if (regAt view a).isSome then .error 3 else .error (if n = 4 ∨ n = 8 ∨ n = 2 then 0 else 3)

/-! ## Selected counters -/

/-- The counter that a DATA register shows by its SEL register: the contexts that index it, and its register and index, none when
SEL selects no counter. None for a register that is no such DATA register (R133, R167, R196, R274, R317, R343, R362, R409, R433). -/
def Dev.selected (d : Dev) (r : Reg) (i : Nat) : Option (List Nat × Option (Reg × Nat)) :=
  let pick := fun (ok : Bool) (r : Reg) (k : Nat) => if ok then some (r, k) else none
  if r.id = NE_SDP_DATA.id then
    let p := d.fld NE_SDP_SEL i NE_SDP_SEL_POINT
    let c := d.fld NE_SDP_SEL i NE_SDP_SEL_CTX
    some ([c], pick (decide (p ≤ 5)) NE_SDP ((i * 8 + p) * 16 + c * 2 + d.fld NE_SDP_SEL i NE_SDP_SEL_CLASS))
  else if r.id = NE_LATE_DATA.id then
    let p := d.fld NE_LATE_SEL i NE_LATE_SEL_POINT
    let c := d.fld NE_LATE_SEL i NE_LATE_SEL_CTX
    some ([c], pick (decide (p ≤ 3)) NE_LATE ((i * 8 + p) * 16 + c * 2 + d.fld NE_LATE_SEL i NE_LATE_SEL_CLASS))
  else if r.id = TUM_DP_DATA.id then
    let p := d.fld TUM_DP_SEL i TUM_DP_SEL_POINT
    let c := d.fld TUM_DP_SEL i TUM_DP_SEL_CTX
    some ([c], pick (decide (p ≤ 1)) TUM_DP ((i * 8 + p) * 16 + c * 2 + d.fld TUM_DP_SEL i TUM_DP_SEL_CLASS))
  else if r.id = MID_DP_DATA.id then
    let c := d.fld MID_DP_SEL i MID_DP_SEL_CTX
    some ([c], pick true MID_DP ((i * 8 + d.fld MID_DP_SEL i MID_DP_SEL_POINT) * 32 + c * 4 + d.fld MID_DP_SEL i MID_DP_SEL_CLASS))
  else if r.id = MID_PC_DATA.id then
    let p := d.fld MID_PC_SEL i MID_PC_SEL_PORT
    some ([], pick (decide (p ≤ 5)) MID_PC ((i * 8 + p) * 8 + d.fld MID_PC_SEL i MID_PC_SEL_CLASS * 2 + d.fld MID_PC_SEL i MID_PC_SEL_KIND))
  else if r.id = ELK_DP_DATA.id then
    let p := d.fld ELK_DP_SEL i ELK_DP_SEL_POINT
    let c := d.fld ELK_DP_SEL i ELK_DP_SEL_CTX
    if p = 0 then some ([], some (ELK_DP, i * 128))
    else some ([c], pick (decide (p = 1)) ELK_DP ((i * 4 + 1) * 32 + c * 4 + d.fld ELK_DP_SEL i ELK_DP_SEL_CLASS))
  else if r.id = RIM_DP_DATA.id then
    let p := d.fld RIM_DP_SEL 0 RIM_DP_SEL_POINT
    let c := d.fld RIM_DP_SEL 0 RIM_DP_SEL_CTX
    some ([c], pick (decide (p ≤ 8)) RIM_DP (p * 32 + c * 4 + d.fld RIM_DP_SEL 0 RIM_DP_SEL_CLASS))
  else if r.id = SNS_DP_DATA.id ∨ r.id = SNS_PC_DATA.id then
    let dp := r.id = SNS_DP_DATA.id
    let n := if dp then d.fld SNS_DP_SEL 0 SNS_DP_SEL_INPUT else d.fld SNS_PC_SEL 0 SNS_PC_SEL_INPUT
    let p := if dp then d.fld SNS_DP_SEL 0 SNS_DP_SEL_POINT else d.fld SNS_PC_SEL 0 SNS_PC_SEL_COUNT
    let cs := if n < 18 then [d.fld SNS_IN_CFG n SNS_IN_CFG_CTX] else []
    some (cs, pick (decide (n ≤ 18) && decide (p ≤ if dp then 16 else 9)) (if dp then SNS_DP else SNS_PC) (p * 32 + n))
  else if r.id = HST_DP_DATA.id then
    let c := d.fld HST_DP_SEL 0 HST_DP_SEL_CTX
    some ([c], pick true HST_DP (d.fld HST_DP_SEL 0 HST_DP_SEL_POINT * 16 + c * 2 + d.fld HST_DP_SEL 0 HST_DP_SEL_CLASS))
  else if r.id = MQ_CNT_DATA.id then
    let a := if i = 0 then d.fld MQ_CNT_SEL 0 MQ_CNT_SEL_AGENT else 0x30 + (i - 1)
    let p := d.fld MQ_CNT_SEL i MQ_CNT_SEL_PEER
    let k := d.fld MQ_CNT_SEL i MQ_CNT_SEL_KIND
    some (if 0x30 ≤ a ∧ a ≤ 0x37 then [a - 0x30] else [], pick (decide (p ≤ 64) && decide (k ≤ 4)) MQ_CNT ((a * 128 + p) * 8 + k))
  else if r.id = MQ_DP_DATA.id then
    let a := d.fld MQ_DP_SEL 0 MQ_DP_SEL_AGENT
    let p := d.fld MQ_DP_SEL 0 MQ_DP_SEL_POINT
    let c := d.fld MQ_DP_SEL 0 MQ_DP_SEL_CTX
    some (c :: (if 0x30 ≤ a ∧ a ≤ 0x37 then [a - 0x30] else []), pick (decide (p ≤ 4)) MQ_DP ((a * 8 + p) * 8 + c))
  else if r.id = FLT_OFF_DATA.id then
    let c := d.fld FLT_OFF_SEL 0 FLT_OFF_SEL_CTX
    some ([c], some (FLT_OFF, c * 4 + d.fld FLT_OFF_SEL 0 FLT_OFF_SEL_CLASS))
  else if r.id = FLT_DP_DATA.id then
    let c := d.fld FLT_DP_SEL 0 FLT_DP_SEL_CTX
    some ([c], some (FLT_DP, c * 4 + d.fld FLT_DP_SEL 0 FLT_DP_SEL_CLASS))
  else none

/-! ## Counters of a context's window -/

/-- The counters whose sum a context sees as its drops at point `p` in class `k`; those of the sensor points are kept by context
(R522). DEDUCED, log entry 28. -/
def lossCounters (p c k : Nat) : List (Reg × Nat) :=
  let each := fun (n : Nat) (r : Reg) (f : Nat → Nat) => (List.range n).map (fun x => (r, f x))
  if p < 10 ∧ 2 ≤ k then []
  else if p = 0 then each 288 NE_DP_EMITDUP (fun e => e * 16 + c * 2 + k)
  else if p < 6 then each 288 NE_SDP (fun e => (e * 8 + (p - 1)) * 16 + c * 2 + k)
  else if p < 8 then each 288 NE_LATE (fun e => (e * 8 + (p - 5)) * 16 + c * 2 + k)
  else if p < 10 then each 32 TUM_DP (fun t => (t * 8 + (p - 8)) * 16 + c * 2 + k)
  else if p < 18 then each 32 MID_DP (fun t => (t * 8 + (p - 10)) * 32 + c * 4 + k)
  else if p = 18 then []
  else if p = 19 then each 6 ELK_DP (fun q => (q * 4 + 1) * 32 + c * 4 + k)
  else if p < 29 then [(RIM_DP, (p - 20) * 32 + c * 4 + k)]
  else if p < 46 then []
  else if p < 50 then (if k < 2 then [(HST_DP, (p - 46) * 16 + c * 2 + k)] else [])
  else if p < 55 then (if k = 3 then each 64 MQ_DP (fun a => (a * 8 + (p - 50)) * 8 + c) else [])
  else [(FLT_DP, c * 4 + k)]

/-- The sum of counters as extended at the latest freeze (R520, R522). -/
def Dev.hcSum (d : Dev) (l : List (Reg × Nat)) : Nat := ((l.map (fun x => (Tab.get (0, 0) d.hcExt (x.1.key x.2)).2)).sum) % 2 ^ 64

/-! ## What a register shows -/

/-- Fields put into a register value. -/
def putAll (v : W64) (l : List (Fld × Nat)) : W64 := l.foldl (fun v x => x.1.put v x.2) v

/-- 1 for true. -/
def bit1 (b : Bool) : Nat := if b then 1 else 0

/-- The value a read of a register presents. DEDUCED, log entry 28. -/
def Dev.shown (d : Dev) (f : Fuses) (r : Reg) (i : Nat) : W64 :=
  let v := d.rd r i
  let num := fun (n : Nat) => BitVec.ofNat 64 n
  match d.selected r i with
  | some (_, some (s, k)) => d.rd s k
  | some (_, none) => 0
  | none =>
    if r.id = NE_SYN_STATUS.id then
      let g := d.eng (i / 9) (i % 9)
      let out := (NE_SYN_STATUS_SPILL_OUT, (g.parked.filter (fun p => p.issued && p.landed.isNone)).length)
      match g.gather with
      | some h => putAll v [(NE_SYN_STATUS_GATHER_HELD, 1), (NE_SYN_STATUS_GATHER_CTX, h.ctx), (NE_SYN_STATUS_GATHER_PROJ, h.proj), out]
      | none => putAll v [out]
    else if r.id = CLP_STATUS.id then
      CLP_STATUS_MARK_WAIT.put v (bit1 ((d.gen i).due.isSome && !(d.markersIn i (d.tickOf i))))
    else if r.id = NE_POP_LO.id then ((d.eng (i / 64 / 9) (i / 64 % 9)).popLow.lookup (i % 64)).getD v
    else if r.id = NE_POP_HI.id then ((d.eng (i / 64 / 9) (i / 64 % 9)).popHeld.lookup (i % 64)).getD v
    else if r.id = NE_RO_APER.id then
      let t := i / 512 / 9
      let e := i / 512 % 9
      num (d.roWord t e (d.fld NE_RO_BASE (engIx t e) NE_RO_BASE_PAGE * 512 + i % 512))
    else if r.id = NE_DBG_REC_HI.id then ((d.eng (i / 9) (i % 9)).dbgCap).getD 0
    else if r.id = TUM_RULE_APER.id then num (d.ld (tumMem (i / 512) + (i % 512 / 64 * 4 + i % 64 / 16) * 64 + i % 16 * 4) 4)
    else if r.id = USH_FLOW_DATA.id then
      match (Tab.get [] d.flows i)[d.fld USH_FLOW_SEL i USH_FLOW_SEL_INDEX]? with
      | some x => putAll 0 [(USH_FLOW_DATA_VALID, 1), (USH_FLOW_DATA_SEAM_TOL, bit1 x.tol), (USH_FLOW_DATA_SLOTS, x.slots),
          (USH_FLOW_DATA_FIRST, x.first), (USH_FLOW_DATA_BOUND, x.bound), (USH_FLOW_DATA_FLOW_ID, x.id), (USH_FLOW_DATA_POP, x.pop)]
      | none => 0
    else if r.id = USH_BLK_DATA.id then
      let all := (Tab.get [] d.blocks i).map (fun b => (d.chipId, b)) ++ Tab.get [] d.away i
      let mine := (all.filter (fun b => b.2.pop == d.fld USH_BLK_SEL i USH_BLK_SEL_POP)).mergeSort (fun a b => decide (a.2.first ≤ b.2.first))
      match mine[d.fld USH_BLK_SEL i USH_BLK_SEL_BLOCK]? with
      | some (chip, b) => putAll 0 [(USH_BLK_DATA_VALID, 1), (USH_BLK_DATA_CHIP, chip), (USH_BLK_DATA_TILE, b.tile), (USH_BLK_DATA_ENGINE, b.eng),
          (USH_BLK_DATA_SIZE, b.size), (USH_BLK_DATA_FIRST, b.first)]
      | none => 0
    else if r.id = FLT_UNIT_DATA.id then
      let ty := d.fld FLT_UNIT_SEL 0 FLT_UNIT_SEL_TYPE
      if ty = 0 ∨ ty = 7 then 0
      else
        let u := d.unit ty (d.fld FLT_UNIT_SEL 0 FLT_UNIT_SEL_INDEX)
        putAll 0 [(FLT_UNIT_DATA_STATE, u.1), (FLT_UNIT_DATA_REASON, u.2)]
    else if r.id = GLB_FUSE_DATA.id then
      let k := d.fld GLB_FUSE_SEL 0 GLB_FUSE_SEL_KIND
      let n := d.fld GLB_FUSE_SEL 0 GLB_FUSE_SEL_INDEX
      if k = 0 then (if n < 32 then num (Tab.get 0 f.badEngines n % 512) else 0)
      else if k = 1 then num (f.badElkLanes % 4096 + f.badPcieLanes % 16 * 4096)
      else if k = 2 then (match f.repairs[n]? with | some a => num (2 ^ 63 + a % 2 ^ 48) | none => 0)
      else 0
    else if r.id = SEC_SERIAL.id then f.serial
    else if r.id = SEC_LIFECYCLE.id then putAll v [(SEC_LIFECYCLE_STATE, d.lifecycle)]
    else if r.id = SEC_DBG_STATUS.id then putAll v [(SEC_DBG_STATUS_ACTIVE, d.dbgActive)]
    else if r.id = SEC_CTX_STATUS.id then
      putAll v [(SEC_CTX_STATUS_RUNNING, bit1 (d.gen i).running), (SEC_CTX_STATUS_PLACED, d.fld USH_STATUS i USH_STATUS_PLACED)]
    else if r.id = SEC_CTX_CNF.id then putAll v [(SEC_CTX_CNF_ENABLE, bit1 (d.confidential i))]
    else if r.id = SEC_CTX_TICK.id then num (d.tickOf i)
    else if r.id = PWR_STATUS.id then putAll v [(PWR_STATUS_CHANGING, bit1 (d.fld PWR_STATUS 0 PWR_STATUS_STATE == 3))]
    else if r.id = TMR_GSTATUS.id then putAll v [(TMR_GSTATUS_SLOW, bit1 d.tmrSlow)]
    else if r.id = BRK_STATUS.id then putAll v [(BRK_STATUS_STAGED, d.barker.staged.length)]
    else if r.id = HC_CHAIN_DATA.id then d.rd HC_CHAIN (d.fld HC_CHAIN_SEL 0 HC_CHAIN_SEL_KIND * 256 + d.fld HC_CHAIN_SEL 0 HC_CHAIN_SEL_ARRAY)
    else if r.id = HOM_STATUS.id then
      putAll v [(HOM_STATUS_CNF, bit1 (d.confidential (d.fld HOM_SESS i HOM_SESS_CTX))), (HOM_STATUS_STOPPED, bit1 (d.homFull i))]
    else if (r.id = CTX_CLP.id ∧ d.ctxZero.contains (i / 10)) ∨ (r.id = CTX_LOSS.id ∧ d.ctxZero.contains (i / 224))
        ∨ (r.id = CTX_OFF.id ∧ d.ctxZero.contains (i / 4)) ∨ (r.id = CTX_SEQ.id ∧ d.ctxZero.contains i) then 0
    else if r.id = CTX_CLP.id then num (d.hcSum [(CLP_CNT, i)])
    else if r.id = CTX_LOSS.id then
      let c := i / 224
      let p := i % 224 / 4
      if 29 ≤ p ∧ p < 46 then num (Tab.get 0 d.snsLossAt ((p * 8 + c) * 4 + i % 4)) else num (d.hcSum (lossCounters p c (i % 4)))
    else if r.id = CTX_OFF.id then num (d.hcSum [(FLT_OFF, i)])
    else if r.id = CTX_SEQ.id then num ((Tab.get (0, 0) d.hcExt (HC_CNT.key 0)).1 + (Tab.get (0, 0) d.hcExt (HC_CNT.key 1)).1)
    else if r.id = MQ_PEEK.id then
      if agentQueues (i / 16) ≤ i % 16 then 0 else (d.mqPop (i / 16) (i % 16)).1
    else if r.id = MQ_DATA.id then (d.mqPop (i / 16) (i % 16)).1
    else if r.id = MQ_STATUS.id then putAll v [(MQ_STATUS_STALLING, bit1 ((Tab.get [] d.staged (i / 16)).any (fun x => x.q == i % 16)))]
    else if r.id = MQ_CNT_SEL.id ∧ i ≠ 0 then putAll v [(MQ_CNT_SEL_AGENT, 0x30 + (i - 1))]
    else if r.id = MQ_CFG.id ∧ 0x30 ≤ i / 16 ∧ i / 16 ≤ 0x37 then putAll v [(MQ_CFG_CTX, i / 16 - 0x30)]
    else
      -- fields with WO read zero (R15)
      r.fields.foldl (fun v f => if f.acc = .wo then f.put v 0 else v) v

/-! ## What is closed off -/

/-- The contexts whose state a register shows or holds, as R439 lists it. -/
def Dev.regContexts (d : Dev) (r : Reg) (i : Nat) : List Nat :=
  match d.selected r i with
  | some (cs, _) => cs
  | none =>
    if r.id = NE_DP_EMITDUP.id then [i % 16 / 2]
    else if r.id = CLP_CNT.id then [i / 10]
    else if r.id = USH_CNT.id then [i / 9]
    else if r.id = USH_FLOW_DATA.id ∨ r.id = USH_BLK_DATA.id then [i]
    else if r.id = HST_APER.id ∨ r.id = HST_INJ_BASE.id ∨ r.id = HST_INJ_CTRL.id ∨ r.id = HST_INJ_PTR.id then [i]
    else if r.id = HST_OUT_BASE.id ∨ r.id = HST_OUT_CTRL.id ∨ r.id = HST_OUT_MATCH.id ∨ r.id = HST_OUT_PTR.id then [i / 4]
    else if r.id = HST_SQ_BASE.id ∨ r.id = HST_SQ_CTRL.id ∨ r.id = HST_SQ_PTR.id ∨ r.id = HST_SQ_STATUS.id ∨ r.id = HST_CQ_BASE.id
      ∨ r.id = HST_CQ_CTRL.id ∨ r.id = HST_CQ_PTR.id then (if 8 ≤ i then [(i - 8) / 2] else [])
    else if r.id = MQ_CFG.id ∨ r.id = MQ_STATUS.id ∨ r.id = MQ_DATA.id ∨ r.id = MQ_PEEK.id then
      (if 0x30 ≤ i / 16 ∧ i / 16 ≤ 0x37 then [i / 16 - 0x30] else [])
    else if r.id = SEC_MEAS.id then (if 24 ≤ i then [i / 4 - 6] else [])
    else if r.id = NE_RO_APER.id then
      let t := i / 512 / 9
      let e := i / 512 % 9
      let slot := (d.fld NE_RO_BASE (engIx t e) NE_RO_BASE_PAGE * 512 + i % 512) / 64
      ((List.range 64).map (fun n => d.rd NE_POP_LO (engIx t e * 64 + n))).filterMap (fun v =>
        if 8 ≤ slot ∧ NE_POP_LO_VALID.get v = 1 ∧ NE_POP_LO_ROUTINE.get v = slot then some (NE_POP_LO_CONTEXT.get v) else none)
    else if r.id = MID_FT_LO.id ∨ r.id = MID_FT_HI.id then d.ftOwners i (d.fld MID_FT_SEL i MID_FT_SEL_INDEX)
    else if r.id = RIM_TAB_LO.id ∨ r.id = RIM_TAB_HI.id then d.rimOwners (d.fld RIM_TAB_SEL 0 RIM_TAB_SEL_INDEX)
    else []

/-- Whether a requester's access to a register is closed off by a confidential context (R439). DEDUCED, log entry 28. -/
def Dev.closedOff (d : Dev) (who : Requester) (r : Reg) (i : Nat) : Bool :=
  viaPf who && ((d.regContexts r i).any d.confidential
    || ((r.id == NE_DBG_REC_LO.id || r.id == NE_DBG_REC_HI.id) && d.neuronClosed (i / 9) (i % 9) (d.fld NE_DBG_IDX i NE_DBG_IDX_NEURON)))

/-! ## Reads -/

/-- The device of a meaning's outcome. -/
def Dev.via (d : Dev) (f : Fuses) (m : State → Host.Outcome State Fault Refusal) : Dev :=
  match m { fuses := f, dev := d } with
  | .next s => s.dev
  | _ => d

/-- The tile, engine or other small index of a number. -/
def fin (n : Nat) [NeZero n] (k : Nat) : Fin n := Fin.ofNat n k

/-- A read of a register with its effects: captures, RC and RP (R15, R93, R274, R317). -/
def Dev.readReg (d : Dev) (f : Fuses) (r : Reg) (i : Nat) (half : Half) : W64 × Dev :=
  if r.id = NE_DBG_REC_LO.id then
    let d := d.via f (execNeDbgRecLoRead (fin 32 (i / 9)) (fin 9 (i % 9)))
    (d.rd r i, d)
  else if r.id = MID_FT_LO.id then
    let d := d.via f (execMidFtLoRead (fin 32 i))
    (d.rd r i, d)
  else if r.id = RIM_TAB_LO.id then
    let d := d.via f execRimTabLoRead
    (d.rd r i, d)
  else if r.id = PWR_PKG_POWER.id then (d.rd r i, d.setF PWR_PKG_POWER 0 PWR_PKG_POWER_PEAK 0)
  else if r.id = MQ_DATA.id ∧ half ≠ .high then d.mqPop (i / 16) (i % 16)
  else (d.shown f r i, d)

/-- A requester's latch. DEDUCED, log entry 28. -/
def Dev.latchOf (d : Dev) (who : Requester) : Option Latch := d.latches.find? (fun l => l.who == who)

/-- A requester's latch is emptied, or filled. -/
def Dev.setLatch (d : Dev) (who : Requester) (l : Option Latch) : Dev :=
  { d with latches := d.latches.filter (fun x => x.who != who) ++ l.toList }

/-- A part of an access as it reads: a low half fills the requester's latch, and a high half of the same register empties it (R18);
what is closed off reads zero. The flag says whether it is closed off. -/
def Dev.readPart (d : Dev) (f : Fuses) (who : Requester) (p : Part) : Nat × Bool × Dev :=
  let shut := d.closedOff who p.reg p.ix
  let key := p.reg.key p.ix
  match p.half with
  | .whole =>
    if shut then (0, true, d) else
      let (v, d) := d.readReg f p.reg p.ix .whole
      (v.toNat % 2 ^ p.reg.width, false, d)
  | .low =>
    let (v, d) := if shut then ((0 : W64), d) else d.readReg f p.reg p.ix .low
    (v.toNat % 2 ^ 32, shut, d.setLatch who (some ⟨who, key, BitVec.ofNat 32 (v.toNat / 2 ^ 32)⟩))
  | .high =>
    match (d.latchOf who).filter (fun l => l.reg == key) with
    | some l => (if shut then 0 else l.high.toNat, shut, d.setLatch who none)
    | none =>
      let (v, d) := if shut then ((0 : W64), d) else d.readReg f p.reg p.ix .high
      (v.toNat / 2 ^ 32, shut, d)

/-- A register that a queue index of its agent does not have maps to nothing (R390, R409). -/
def Part.mapped (p : Part) : Bool :=
  !([MQ_CFG.id, MQ_STATUS.id, MQ_DATA.id, MQ_PEEK.id].contains p.reg.id && decide (agentQueues (p.ix / 16) ≤ p.ix % 16))

/-- The parts of an access that reach a register. -/
def reach (view : Option Nat) (a n : Nat) : Except Nat (List Part) :=
  match parts view a n with
  | .error k => .error k
  | .ok l => if (l.filter Part.mapped).isEmpty then .error 0 else .ok (l.filter Part.mapped)

/-- A read of `n` bytes at an offset of the requester's register blocks: the value, and the device after it; an access outside the
view, or closed off, reads zeros and counts once (R353, R439). -/
def Dev.regLoad (d : Dev) (f : Fuses) (who : Requester) (a n : Nat) : Nat × Dev :=
  match reach (windowOf who) a n with
  | .error k => (0, d.violation (reqFunc who) k a)
  | .ok l =>
    let (v, shut, d) := l.foldl (fun (acc : Nat × Bool × Dev) p =>
      let (x, s, d) := acc.2.2.readPart f who p
      (acc.1 + x * 256 ^ p.pos, acc.2.1 || s, d)) (0, false, d)
    (v, if shut then d.violation (reqFunc who) 2 a else d)

end Sys2Proof.Machine
end

