-- ==== Sys2Proof/Machine/RegWrite.lean ====
section
/-! DEFINITION. Writes of registers through the physical function's view and the context windows: registers with a behaviour of their
own act as their rows do, every other by its access codes (R15, R18, R353), and the commands that read and write registers. -/

namespace Sys2Proof.Machine

/-! ## Registers with a behaviour -/

/-- What a write needs beside the value: the timebase edge and what a bring-up that it starts meets. -/
structure WEnv where
  fuses : Fuses
  now : Nat := 0
  find : BootFind := {}

/-- A write of an engine's register with a behaviour; none for another register (R56, R72, R88, R93, R111, R116, R129). -/
def Dev.engWrite (d : Dev) (w : WEnv) (r : Reg) (i : Nat) (half : Half) (v : W64) : Option Dev :=
  let go := fun (m : State → Host.Outcome State Fault Refusal) => some (d.via w.fuses m)
  let v32 : W32 := v.setWidth 32
  let te := fun (k : Nat) => (fin 32 (i / k / 9), fin 9 (i / k % 9))
  if r.id = NE_NOISE_SEED.id then go (execNeNoiseSeedWrite (te 1).1 (te 1).2 v32)
  else if r.id = NE_SR_SEED.id then go (execNeSrSeedWrite (te 1).1 (te 1).2 v32)
  else if r.id = NE_DBG_REC_LO.id then go (execNeDbgRecLoWrite (te 1).1 (te 1).2 half v)
  else if r.id = NE_DBG_REC_HI.id then go (execNeDbgRecHiWrite (te 1).1 (te 1).2 half v)
  else if r.id = NE_SYN_CTRL.id then go (execSpillMaxWrite (te 1).1 (te 1).2 v32)
  else if r.id = NE_POP_LO.id then go (execDescriptorWrite (te 64).1 (te 64).2 (fin 64 i) half v)
  else if r.id = NE_POP_HI.id then some (d.popHiWrite (i / 64 / 9) (i / 64 % 9) (i % 64) half v)
  else if r.id = NE_RO_APER.id then go (execRunningOrderWrite (te 512).1 (te 512).2 (fin 512 i) half v)
  else if r.id = NE_PROJ.id then go (execNeProjWrite (te 32).1 (te 32).2 (fin 32 i) half v)
  else none

/-- A write of a tile's register with a behaviour (R173, R180, R182, R197, R254, R260, R262, R263, R274). -/
def Dev.tileWrite (d : Dev) (w : WEnv) (who : Requester) (r : Reg) (i : Nat) (half : Half) (v : W64) : Option Dev :=
  let go := fun (m : State → Host.Outcome State Fault Refusal) => some (d.via w.fuses m)
  let v32 : W32 := v.setWidth 32
  if r.id = TUM_SEED.id then go (execTumSeedWrite (fin 32 i) v32)
  else if r.id = TUM_EPOCH_LEN.id then go (execTumEpochLenWrite (fin 32 (i / 8)) (fin 8 i) v32)
  else if r.id = TUM_PL.id then go (execTumPlWrite (fin 32 (i / 9)) (fin 9 i) v32)
  else if r.id = TUM_RULE_APER.id then go (execRuleApertureWrite (fin 32 (i / 512)) (fin 8 (i / 64)) (fin 4 (i / 16)) (fin 16 i) v32)
  else if r.id = MID_VER_SEL.id then some (d.midVerWrite i (MID_VER_SEL_VER.get v))
  else if r.id = MID_COMB.id then go (execMidCombWrite (fin 32 i) v32)
  else if r.id = MID_FT_REGION.id then go (execMidFtRegionWrite (fin 32 (i / 8)) (fin 8 i) v32)
  else if r.id = MID_FT_LO.id then go (execMidFtLoWrite who (fin 32 i) half v)
  else if r.id = MID_FT_HI.id then go (execMidFtHiWrite (fin 32 i) half v)
  else if r.id = MID_C0POL.id then go (execMidC0polWrite (fin 32 (i / 16)) (fin 16 i) v32)
  else if r.id = MID_SLOT_APER.id then go (execSlotTableWrite (fin 32 (i / 512)) (fin 2 (i / 256)) (fin 4 (i / 64)) (fin 64 i) (v.setWidth 16))
  else none

/-- A write of a register of the rim, the ports, the sensors, the host rings or the message queues with a behaviour (R289, R318, R321,
R329, R339, R355, R358, R367 to R371, R391). -/
def Dev.edgeWrite (d : Dev) (w : WEnv) (who : Requester) (r : Reg) (i : Nat) (half : Half) (v : W64) : Option Dev :=
  let go := fun (m : State → Host.Outcome State Fault Refusal) => some (d.via w.fuses m)
  let v32 : W32 := v.setWidth 32
  if r.id = ELK_CTRL.id then go (execElkCtrlWrite (fin 6 i) v32)
  else if r.id = RIM_VER_SEL.id then some (d.rimVerWrite (RIM_VER_SEL_VER.get v))
  else if r.id = RIM_TAB_REGION.id then go (execRimTabRegionWrite (fin 8 i) v32)
  else if r.id = RIM_TAB_LO.id then go (execRimTabLoWrite who half v)
  else if r.id = RIM_TAB_HI.id then go (execRimTabHiWrite half v)
  else if r.id = SNS_IN_CFG.id then some (d.snsCfg i half v)
  else if r.id = SNS_CSI_CTRL.id then some (d.csiCtrl i v)
  else if r.id = CRC_PARAM.id then go (execCrcParamWrite (fin 4 i) half v)
  else if r.id = CRC_CFG.id then go (execCrcCfgWrite (fin 4 i) half v)
  else if r.id = HST_INJ_CTRL.id then some (d.injCtrl i v)
  else if r.id = HST_INJ_PTR.id then some (d.injTail i (HST_INJ_PTR_TAIL.get v))
  else if r.id = HST_OUT_CTRL.id then some (d.outCtrl i half v)
  else if r.id = HST_OUT_PTR.id then some (d.outHead i (HST_OUT_PTR_HEAD.get v))
  else if r.id = HST_SQ_CTRL.id then some (d.sqCtrl i v)
  else if r.id = HST_SQ_PTR.id then some (d.sqTail i (HST_SQ_PTR_TAIL.get v))
  else if r.id = HST_CQ_CTRL.id then some (d.cqCtrl i half v)
  else if r.id = HST_CQ_PTR.id then some (d.cqHead i (HST_CQ_PTR_HEAD.get v))
  else if r.id = MQ_CFG.id then go (execMqCfgWrite who (fin 64 (i / 16)) (fin 16 i) v32)
  else if r.id = MQ_CNT_SEL.id ∧ i ≠ 0 then some (d.store r i half (MQ_CNT_SEL_AGENT.put v 0))
  else none

/-- A write of RST_CTRL (R314, R482). -/
def Dev.rstCtrl (d : Dev) (w : WEnv) (v : W64) : Dev :=
  if RST_CTRL_WARM.get v = 1 then (if d.awake then d.warmReset w.fuses w.find 3 else d)
  else if RST_CTRL_RIM.get v = 1 then d.rimReset else d

/-- A write of RST_UNIT: with GO, the unit named is reset (R425, R426, R483). -/
def Dev.rstUnit (d : Dev) (v : W64) : Dev :=
  let t := RST_UNIT_TILE.get v
  let e := RST_UNIT_ENGINE.get v
  if RST_UNIT_GO.get v = 0 then d
  else if RST_UNIT_KIND.get v = 0 then d.tileReset t
  else if e ≤ 8 then d.engineReset t e else d

/-- A write of a device-level register with a behaviour (R154 to R159, R438, R446, R456, R479, R482, R491, R502 to R510, R513, R515,
R532, R542, R550, R566). -/
def Dev.devWrite (d : Dev) (w : WEnv) (r : Reg) (i : Nat) (half : Half) (v : W64) : Option Dev :=
  let go := fun (m : State → Host.Outcome State Fault Refusal) => some (d.via w.fuses m)
  let v32 : W32 := v.setWidth 32
  if r.id = CLP_PERIOD.id then go (execClpPeriodWrite (fin 8 i) v32 w.now)
  else if r.id = CLP_CTRL.id then some (d.clpCtrl i half v)
  else if r.id = CLP_STEP.id then go (execClpStepWrite (fin 8 i) v32)
  else if r.id = CLP_SYNC.id then go (execClpSyncWrite v32 w.now)
  else if r.id = CLP_STAGGER.id then go (execClpStaggerWrite v32 w.now)
  else if r.id = SEC_VIOL_LAST.id then some (if SEC_VIOL_LAST_VALID.get v = 1 ∧ halfCommits half then d.wr SEC_VIOL_LAST 0 0 else d)
  else if r.id = SEC_DBG_CTRL.id then go (execSecDbgLock v32)
  else if r.id = SEC_CTX_CNF.id then go (execSecCtxCnfWrite (fin 8 i) v32)
  else if r.id = PWR_CTRL.id then some (d.store r i half v).driveVid
  else if r.id = PWR_PAD_RELEASE.id then go (execPadRelease v32)
  else if r.id = PWR_THERM_STATUS.id then some (d.thermWrite v)
  else if r.id = RST_CTRL.id then some (d.rstCtrl w v)
  else if r.id = RST_UNIT.id then some (d.rstUnit v)
  else if r.id = TMR_CTRL.id ∨ r.id = TMR_STATUS.id then some (d.store r i half v).tmrInt
  else if r.id = TMR_PERIOD.id then some (d.tmrWrite i (.period v32.toNat))
  else if r.id = TMR_COUNT.id then some (d.tmrWrite i (.count v32.toNat))
  else if r.id = TMR_CMP.id then some (d.tmrWrite i (.compare v32.toNat))
  else if r.id = TMR_CMP_REL.id then some (d.tmrWrite i (.compareRel v32.toNat))
  else if r.id = TMR_SYNC.id then some (d.tmrSync (v32.toNat % 256))
  else if r.id = TMR_STAGGER.id then some (d.tmrStagger v32.toNat)
  else if r.id = HC_CTRL.id then some (d.hcCtrl v w.now)
  else if r.id = HC_CHAIN_DATA.id then go (execHcChainWrite v32)
  else if r.id = HOM_SESS.id then some (d.homSess i half v)
  else if r.id = MEM_CTX.id then some (d.memCtx i half v)
  else if r.id = MEM_FLASH_CTRL.id then some (d.flashCtrl v)
  else none

/-- A write of a power-gated unit's register updates the retained copy of its Keep C fields and nothing else; SPILL_MAX and the plastic
region of an engine stay apart there too (R129, R197, R487). DEDUCED, log entry 28. -/
def Dev.writeRetained (d : Dev) (r : Reg) (i : Nat) (half : Half) (v : W64) : Dev :=
  let kept : Reg := { r with fields := r.fields.filter (fun f => f.keep = .c) }
  let d' := d.wr r i (kept.written (d.rd r i) v (halfCover half))
  if r.id = NE_SYN_CTRL.id then
    d'.setF NE_SYN_CTRL i NE_SYN_CTRL_SPILL_MAX (d'.spillFit (i / 9) (i % 9) (min 8 (d'.fld NE_SYN_CTRL i NE_SYN_CTRL_SPILL_MAX)))
  else if r.id = TUM_PL.id then
    if d'.fld TUM_PL i TUM_PL_WORDS > 7168
      ∨ d'.fld TUM_PL i TUM_PL_BASE + d'.fld TUM_PL i TUM_PL_WORDS > 32768 - 64 * d.spillMax (i / 9) (i % 9) then d else d'
  else d'

/-- A write of a register: its behaviour, else its access codes (R15, R18); in Nap a tile's registers are retained copies (R487). -/
def Dev.writeReg (d : Dev) (w : WEnv) (who : Requester) (r : Reg) (i : Nat) (half : Half) (v : W64) : Dev :=
  if d.fld PWR_STATUS 0 PWR_STATUS_STATE = 2 ∧ inTiles r i then d.writeRetained r i half v
  else match (d.engWrite w r i half v).or ((d.tileWrite w who r i half v).or ((d.edgeWrite w who r i half v).or (d.devWrite w r i half v))) with
  | some d' => d'
  | none => d.store r i half v

/-! ## Accesses -/

/-- The part of a written value that a register takes, in its place. -/
def Part.value (p : Part) (v : Nat) : W64 :=
  let x := v / 256 ^ p.pos
  match p.half with
  | .whole => BitVec.ofNat 64 (x % 2 ^ p.reg.width)
  | .low => BitVec.ofNat 64 (x % 2 ^ 32)
  | .high => BitVec.ofNat 64 (x % 2 ^ 32 * 2 ^ 32)

/-- A write of `n` bytes at an offset of the requester's register blocks, the lowest address first; an access outside the view, or
closed off, is ignored and counts once (R353, R439). -/
def Dev.regStore (d : Dev) (w : WEnv) (who : Requester) (a n v : Nat) : Dev :=
  match reach (windowOf who) a n with
  | .error k => d.violation (reqFunc who) k a
  | .ok l =>
    let shut := l.filter (fun p => d.closedOff who p.reg p.ix)
    let d := l.foldl (fun (d : Dev) p => if shut.contains p then d else d.writeReg w who p.reg p.ix p.half (p.value v)) d
    if shut.isEmpty then d else d.violation (reqFunc who) 2 a

/-- Whether a requester can reach its BAR0 now: the PCIe functions over a link that is up, VF c while it is enabled, and firmware
(R344, R347, R350). DEDUCED, log entry 28. -/
def Dev.reaches (d : Dev) (who : Requester) : Bool :=
  match who with
  | .pf => d.pcie.link && !d.pcie.perst
  | .vf c => d.pcie.link && !d.pcie.perst && d.vfOn c
  | .agent _ => true
  | _ => false

/-- Whether an offset lies in a requester's register blocks: below the apertures, in a context's window or in the physical function's
view (R352, R547). -/
def inBlocks (who : Requester) (a : Nat) : Bool :=
  match windowOf who with
  | some _ => !(decide (0x80000 ≤ a) && decide (a < 0x100000))
  | none => decide (a < 0x1000000)

/-- A poisoned TLP received as a write is discarded, with a non-fatal error under AER (R349). -/
def Dev.poisonedWrite (d : Dev) (who : Requester) : Dev := d.emitOut (.aer (reqFunc who) false)

/-- REGISTER_WRITE: a host or firmware write of a register; a poisoned one is discarded (R15, R18, R349, R353). -/
def execRegisterWrite (who : Requester) (off : BitVec 26) (bytes : Fin 9) (v : W64) (poisoned : Bool) (now : Nat) (x : BootFind) (s : State) :
    Host.Outcome State Fault Refusal :=
  runF (fun f d =>
    if d.reaches who ∧ inBlocks who off.toNat then
      if poisoned then d.poisonedWrite who
      else d.regStore { fuses := f, now := now, find := x } who off.toNat bytes (v.toNat % 256 ^ bytes.val)
    else d) s

/-- LOW_HALF_READ: a read of a low half fills the requester's latch; a read of a whole register returns it from one instant (R15, R18,
R353). -/
def execLowHalfRead (who : Requester) (off : BitVec 26) (bytes : Fin 9) (s : State) : Host.Outcome State Fault Refusal :=
  runF (fun f d =>
    if d.reaches who ∧ inBlocks who off.toNat then
      let (v, d) := d.regLoad f who off.toNat bytes
      { d with ret := BitVec.ofNat 64 v }
    else d) s

/-- HIGH_HALF_READ: a 4-byte read of a high half (R18). -/
def execHighHalfRead (who : Requester) (off : BitVec 26) (s : State) : Host.Outcome State Fault Refusal :=
  runF (fun f d =>
    if d.reaches who ∧ inBlocks who off.toNat ∧ off.toNat % 8 = 4 then
      let (v, d) := d.regLoad f who off.toNat 4
      { d with ret := BitVec.ofNat 64 v }
    else d) s

end Sys2Proof.Machine
end

