-- ==== Sys2Proof/Machine/Aperture.lean ====
section
/-! DEFINITION. Accesses to the device physical map: the memory apertures of the physical function and of the context windows, raw
debug accesses, and loads and stores of a queue's view (R352, R353, R439, R445 to R447, R539, R545, R548, R550). -/

namespace Sys2Proof.Machine

/-! ## What is closed off -/

/-- Whether an engine holds a context: a block of its placement, a descriptor, or an entry of its bounds (R435). -/
def Dev.engHolds (d : Dev) (t e c : Nat) : Bool :=
  (Tab.get [] d.blocks c).any (fun b => b.tile == t && b.eng == e)
  || !(d.popsOf t e c).isEmpty
  || (List.range 4).any (fun k => d.flag NE_BOUNDS (engIx t e * 4 + k) NE_BOUNDS_VALID && d.fld NE_BOUNDS (engIx t e * 4 + k) NE_BOUNDS_CTX == c)

/-- Whether a byte of the device physical map belongs to a confidential context: its LPDDR5X region, the engines that hold it, its
range of the fan-out tables (R439). -/
def Dev.secretAt (d : Dev) (a : Nat) : Bool :=
  let cs := (List.range 8).filter d.confidential
  if cs.isEmpty then false
  else if a < usableBytes then
    cs.any (fun c => let r := d.ctxRegion c; decide (r.1 ≤ a) && decide (a < r.1 + r.2))
  else if 0x1000000000 ≤ a ∧ a < 0x1000000000 + 32 * 0x2000000 then
    let t := (a - 0x1000000000) / 0x2000000
    let o := (a - 0x1000000000) % 0x2000000
    if o < 0x1B00000 then cs.any (fun c => d.engHolds t (o / 0x300000) c)
    else if 0x1B40000 ≤ o ∧ o < 0x1B60000 then (d.ftOwners t ((o - 0x1B40000) / 16 % 4096)).any d.confidential
    else false
  else false

/-! ## The device physical map -/

/-- Start of the global register space (R545). -/
def regSpace : Nat := 0x1800000000

/-- The queue whose open ring holds an address, if one does (R390, R391). -/
def Dev.ringAt (d : Dev) (x : Nat) : Option (Nat × Nat) :=
  (List.range 1024).findSome? (fun i =>
    let (a, q) := (i / 16, i % 16)
    if d.mqOpen a q ∧ d.mqBase a q ≤ x ∧ x < d.mqBase a q + ringBytes (d.fld MQ_CFG i MQ_CFG_SIZE) then some (a, q) else none)

/-- A 64-bit word of engine memory found uncorrectable (R54, R130, R194, R412). -/
def Dev.engineDamaged (d : Dev) (t e a : Nat) : Dev :=
  let o := a - engBase t e
  if o < 0x200000 ∨ (0x280000 ≤ o ∧ o < 0x2A0000) ∨ (0x2F0000 ≤ o ∧ o < 0x2F8000) then d.sweepRefetch t e 0xFF (a / 64 * 64)
  else if 0x2A0000 ≤ o ∧ o < 0x2C0000 then
    let i := (o - 0x2A0000) / 16
    match (List.range 32).find? (fun k => let p := d.pop t e k; p.valid && decide (p.base ≤ i) && decide (i < p.base + p.size)) with
    | some k => let p := d.pop t e k; d.resetRecord t e p i (Tab.get 0 (d.eng t e).u p.ctx)
    | none => d.damaged a
  else if 0x2C0000 ≤ o ∧ o < 0x2E0000 then d.traceReset t 0xFF (a / 8 * 8) 8
  else if 0x2F8000 ≤ o then
    let g := d.eng t e
    let w := (o - 0x2F8000) / 8
    (d.setEng t e { g with roBad := if g.roBad.contains w then g.roBad else g.roBad ++ [w] }).damaged a
  else d.cellReset t e 0xFF (a / 8 * 8)

/-- What an uncorrectable error found in a memory on the die leads to, by its address: the recovery of that memory (R412). -/
def Dev.dieDamaged (d : Dev) (a : Nat) : Dev :=
  let t := (a - 0x1000000000) / 0x2000000
  let o := (a - 0x1000000000) % 0x2000000
  match d.ringAt a with
  | some (g, q) => d.ringDamaged g q
  | none =>
    if rmSram ≤ a then (d.damaged a).ringmasterRestart 3
    else if o < 0x1B00000 then d.engineDamaged t (o / 0x300000) a
    else if o < 0x1B40000 then (d.damaged a).controllerRestart t
    else if o < 0x1B60000 then
      let k := (o - 0x1B40000) / 16
      let r := d.router t
      ((d.setRouter t { r with ftBad := if r.ftBad.contains k then r.ftBad else r.ftBad ++ [k] }).setF MID_STATUS t MID_STATUS_FT_ERR 1).damaged a
    else if tumMem t + 109 * 1024 ≤ a ∧ a < tumMem t + 117 * 1024 then d.dirtyAll t 0xFF ((a - tumMem t - 109 * 1024) / 8)
    else d.damaged a

/-- What a read finds at an address: corrections are counted, an uncorrectable error of a memory on the die is recovered from (R410,
R412, R420, R551). -/
def Dev.foundAt (d : Dev) (a : Nat) (found : MemFinding) : Dev :=
  let ram := decide (a < usableBytes)
  match found with
  | .clean => d
  | .linkFixed => if ram then (d.bump MEM_CNT 0 1).mended a else d
  | .fixed => if ram then (d.bump MEM_CNT 1 1).mended a else if memMaps a && decide (a < flashBase) then d.mended a else d
  | .uncorrectable => if ram then d else if memMaps a && decide (a < flashBase) then d.dieDamaged a else d

/-- What a read of device physical memory gives: the bytes, and whether it completes in error; an LPDDR5X unit found uncorrectable is
left poisoned (R539). -/
def Dev.physLoad (d : Dev) (a n : Nat) (found : MemFinding) : List Byte × Bool × Dev :=
  let u := a / 64 * 64
  let d := d.foundAt a found
  let bs := d.ldBytes a n
  if a < usableBytes ∧ (found = .uncorrectable ∨ d.poison.contains u) then
    let d : Dev := if d.poison.contains u then d else { d with poison := d.poison ++ [u] }
    (bs, true, (d.lpddrUe a).bump MEM_CNT 2 1)
  else (bs, false, d)

/-- A write of device physical memory of at most one 64-byte unit: a whole unit clears its poison, flash is programmed, and the fan-out
tables take only what R263 lets them (R263, R539, R550). -/
def Dev.physStore (d : Dev) (a : Nat) (bs : List Byte) : Dev :=
  if flashBase ≤ a ∧ a < flashBase + flashBytes then d.flashWrite (a - flashBase) bs
  else if (fanAt a).isSome then bs.zipIdx.foldl (fun (d : Dev) x => d.byteStore (a + x.2) x.1) d
  else
    let d := d.stBytes a bs
    if bs.length = 64 ∧ a < usableBytes then d.clearPoison a 64 else d

/-- An access to a byte range within one 64-byte unit: the bytes read, whether the completion is poisoned, and the device; bytes of a
confidential context read zero and ignore writes, and count once (R439, R447, R548). `func`, `kind` and `off` name the violation;
an unmapped address counts for a host view (R545). DEDUCED, log entry 28. -/
def Dev.physAccess (d : Dev) (w : WEnv) (who : Requester) (func kind off a n : Nat) (data : Option (List Byte)) (found : MemFinding) :
    List Byte × Bool × Dev :=
  if regSpace ≤ a ∧ a < regSpace + 0x1000000 then
    match data with
    | none => let (v, d) := d.regLoad w.fuses who (a - regSpace) n; (leBytes n v, false, d)
    | some b => ([], false, d.regStore w who (a - regSpace) n (leNat b))
  else if !((List.range n).any (fun k => memMaps (a + k))) then (List.replicate n 0, false, d.violation func 0 off)
  else
    let shut := fun (k : Nat) => d.secretAt (a + k)
    let hit := (List.range n).any shut
    let count := fun (d : Dev) => if hit then d.violation func kind off else d
    match data with
    | none =>
      if (List.range n).all shut then (List.replicate n 0, false, count d)
      else
        let (bs, p, d) := d.physLoad a n found
        (bs.zipIdx.map (fun x => if shut x.2 then 0 else x.1), p, count d)
    | some b =>
      if hit then ([], false, count (b.zipIdx.foldl (fun (d : Dev) x => if shut x.2 then d else d.physStore (a + x.2) [x.1]) d))
      else ([], false, d.physStore a b)

/-! ## Apertures -/

/-- Where an aperture offset of a requester leads: a device physical address, or the KIND of a violation (R352, R353, R547, R548). -/
def Dev.aperture (d : Dev) (who : Requester) (o n : Nat) : Except Nat Nat :=
  match windowOf who with
  | some c =>
    let r := d.ctxRegion c
    let x := d.fld HST_APER c HST_APER_BASE * 2 ^ 19 + (o - 0x80000)
    if o < 0x80000 ∨ 0x100000 ≤ o then .error 0 else if r.2 < x + n then .error 1 else .ok (r.1 + x)
  | none =>
    if o < 0x1000000 ∨ 0x4000000 ≤ o then .error 0
    else .ok (d.fld MEM_APER (o / 0x1000000 - 1) MEM_APER_BASE * 65536 + o % 0x1000000)

/-- An access through an aperture: the bytes read, whether the completion is poisoned, and the device. The window of a context reaches
the context's own region, confidential or not (R439, R548). -/
def Dev.aperAccess (d : Dev) (w : WEnv) (who : Requester) (o n : Nat) (data : Option (List Byte)) (found : MemFinding) : List Byte × Bool × Dev :=
  match d.aperture who o n with
  | .error k => (List.replicate n 0, false, d.violation (reqFunc who) k o)
  | .ok a =>
    if viaPf who then d.physAccess w who (reqFunc who) 2 o a n data found
    else match data with
      | none => d.physLoad a n found
      | some b => ([], false, d.physStore a b)

/-- The data of a write as `n` bytes. -/
def writeBytes (n : Nat) (data : Option (List Byte)) : Option (List Byte) := data.map (fun b => (b ++ List.replicate n 0).take n)

/-- APERTURE_ACCESS: 1 to 64 bytes within one 64-byte unit through a memory aperture; a poisoned write is discarded (R349, R352, R353, R539, R548). -/
def execApertureAccess (who : Requester) (off : BitVec 26) (n : Fin 65) (data : Option (List Byte)) (found : MemFinding) (poisoned : Bool) (s : State) :
    Host.Outcome State Fault Refusal :=
  runF (fun f d =>
    let o := off.toNat
    if d.reaches who ∧ !(inBlocks who o) ∧ 0 < n.val ∧ o % 64 + n.val ≤ 64 then
      if data.isSome ∧ poisoned then d.poisonedWrite who
      else
      let (bs, p, d) := d.aperAccess { fuses := f } who o n (writeBytes n data) found
      if data.isNone then { d with retData := bs, retPoison := p } else d
    else d) s

/-- DEBUG_RAW_ACCESS: a raw access of device physical addresses, while SCOPE bit 2 is in effect; else it reads zero and is ignored
(R445, R447). -/
def execDebugRawAccess (addr : BitVec 48) (n : Fin 65) (data : Option (List Byte)) (s : State) : Host.Outcome State Fault Refusal :=
  runF (fun f d =>
    if 64 < addr.toNat % 64 + n.val ∨ n.val = 0 then d
    else if !(d.dbgActive.testBit 2) then
      if data.isNone then { d with retData := List.replicate n 0, retPoison := false } else d
    else
      let (bs, p, d) := d.physAccess { fuses := f } .pf 15 4 (addr.toNat % 2 ^ 26) addr.toNat n (writeBytes n data) .clean
      if data.isNone then { d with retData := bs, retPoison := p } else d) s

/-! ## Loads and stores of a queue's view -/

/-- A load of 4 or 8 bytes from an offset of a requester's view (R383). -/
def Dev.load (d : Dev) (w : WEnv) (who : Requester) (o n : Nat) : Nat × Dev :=
  if inBlocks who o then d.regLoad w.fuses who o n
  else if o % 64 + n ≤ 64 then
    let (bs, _, d) := d.aperAccess w who o n none .clean
    (leNat bs, d)
  else
    let k := 64 - o % 64
    let (b1, _, d) := d.aperAccess w who o k none .clean
    let (b2, _, d) := d.aperAccess w who (o + k) (n - k) none .clean
    (leNat (b1 ++ b2), d)

/-- A store of 4 or 8 bytes at an offset of a requester's view (R383). -/
def Dev.store_ (d : Dev) (w : WEnv) (who : Requester) (o n v : Nat) : Dev :=
  let b := leBytes n v
  if inBlocks who o then d.regStore w who o n v
  else if o % 64 + n ≤ 64 then (d.aperAccess w who o n (some b) .clean).2.2
  else
    let k := 64 - o % 64
    let d := (d.aperAccess w who o k (some (b.take k)) .clean).2.2
    (d.aperAccess w who (o + k) (n - k) (some (b.drop k)) .clean).2.2

end Sys2Proof.Machine
end

