-- ==== Sys2Proof/Machine/Commands.lean ====
section
/-! DEFINITION. The register, context, ring, learning and message commands (R382, R383, R385, R386, R389). -/

namespace Sys2Proof.Machine

/-- Who reads and writes registers for a command (R18, R388). -/
def Cmd.who (c : Cmd) : Requester :=
  match c.remote with
  | some (chip, a, _) => .remote chip (Fin.ofNat 64 a)
  | none => .sq (Fin.ofNat 24 c.sq)

/-- The first engine that a context's placement uses, or tile 0 for a context without one. -/
def Dev.firstUnit (d : Dev) (c : Nat) : Nat × Nat :=
  match (Tab.get [] d.blocks c).map (fun b => engIx b.tile b.eng) with
  | [] => (0, 0xFF)
  | k :: r => let m := r.foldl min k; (m / 9, m % 9)

/-- A context command that needs power-gated units is refused in Nap (R487). -/
def Dev.ctxAwake (d : Dev) (id c : Nat) (k : Dev → Dev) : Dev := d.unlessNap id true (d.firstUnit c).1 (d.firstUnit c).2 k

/-! ## The device and its registers -/

/-- NOP. -/
def execNopCmd (id : Nat) (s : State) : Host.Outcome State Fault Refusal :=
  run (fun d => d.command id 0x00 (fun _ d => d.ok id [])) s

/-- RESULT of IDENTIFY: serial, firmware version, licensed tiles and ports, LPDDR5X, licences, lifecycle; Grade C (R1, R382). -/
def Dev.identity_ (d : Dev) (f : Fuses) : List Byte :=
  leBytes 8 f.serial.toNat ++ leBytes 4 d.fw.version ++ leBytes 1 (d.fld SEC_LIC 0 SEC_LIC_TILES) ++ leBytes 1 (d.fld SEC_LIC 0 SEC_LIC_PORTS)
  ++ leBytes 1 Config.partMemoryGb ++ leBytes 1 (d.fld SEC_LIC 0 SEC_LIC_FEATURES % 8 + d.lifecycle % 4 * 8)

/-- IDENTIFY. DEDUCED, log entry 19. -/
def execIdentify (id : Nat) (s : State) : Host.Outcome State Fault Refusal :=
  runF (fun f d => d.command id 0x01 (fun _ d => d.ok id (d.identity_ f))) s

/-- READ_REG: a load of 4 or 8 bytes at OFFSET of the queue's view (R383). -/
def execReadReg (id : Nat) (s : State) : Host.Outcome State Fault Refusal :=
  runF (fun f d => d.command id 0x02 (fun x d =>
    let n := x.p 8 1
    if n ≠ 4 ∧ n ≠ 8 then d.outOfRange id 8
    else
      let (v, d) := d.load { fuses := f } x.who (x.p 0 8) n
      d.ok id (leBytes 8 v))) s

/-- WRITE_REG: a store of 4 or 8 bytes at OFFSET of the queue's view (R383). -/
def execWriteReg (id : Nat) (now : Nat) (x : BootFind) (s : State) : Host.Outcome State Fault Refusal :=
  runF (fun f d => d.command id 0x03 (fun k d =>
    let n := k.p 8 1
    if n ≠ 4 ∧ n ≠ 8 then d.outOfRange id 8
    else (d.store_ { fuses := f, now := now, find := x } k.who (k.p 0 8) n (k.p 16 8 % 2 ^ (8 * n))).ok id [])) s

/-- `n` 8-byte reads from an offset upward: their bytes, and the device after them (R383). -/
def Dev.loads (d : Dev) (w : WEnv) (who : Requester) (o : Nat) : Nat → List Byte × Dev
  | 0 => ([], d)
  | n + 1 =>
    let (v, d) := d.load w who o 8
    let (r, d) := d.loads w who (o + 8) n
    (leBytes 8 v ++ r, d)

/-- READ_COUNTERS: COUNT 8-byte reads from OFFSET to ADDR, with FREEZE at one Headcount instant; it waits while a dump is written
(R383, R389, R520). DEDUCED, log entry 19. -/
def execReadCounters (id : Nat) (now : Nat) (ok : Bool) (s : State) : Host.Outcome State Fault Refusal :=
  runF (fun f d => d.command id 0x04 (fun x d =>
    let n := x.p 12 2
    let freeze := (x.p 14 1).testBit 0
    if n = 0 then d.finish id 0x0104 12 []
    else if n > 512 then d.outOfRange id 12
    else if freeze ∧ d.hcDump.isSome then d.decline id
    else
      let d := if freeze then d.hcFreeze else d
      let (bs, d) := d.loads { fuses := f } x.who (x.p 8 4) n
      d.writeData x 0 bs ok (fun d => d.ok id (leBytes 8 now)))) s

/-! ## Running a context -/

/-- Touch bits for a slot's tick of every neuron of a context in an engine whose ALWAYS_ACTIVE is 1 (R61). -/
def Dev.touchActive (d : Dev) (t e c tick : Nat) : Dev :=
  (d.popsOf t e c).foldl (fun d k =>
    let p := d.pop t e k
    (List.range p.size).foldl (fun d j =>
      if flagAA (d.ldB (recAddr t e (p.base + j) + 13)) then d.touch t e (tick % p.depth) (p.base + j) else d) d) d

/-- An engine takes tick n of a context as update-complete, ready to start the next (R383). -/
def Dev.primeEngine (d : Dev) (c n t e : Nat) : Dev :=
  let g := d.eng t e
  (d.setEng t e { g with u := Tab.set 0 g.u c n, updDone := Tab.set 0 g.updDone c n }).touchActive t e c (tickSucc n)

/-- A context is released with `n` as its last tick (R383). -/
def Dev.goFrom (d : Dev) (c n now : Nat) : Dev :=
  let d := d.setF CLP_TICK c CLP_TICK_TICK n
  let d := (List.range 288).foldl (fun d k => if d.holds (k / 9) (k % 9) c then d.primeEngine c n (k / 9) (k % 9) else d) d
  let g := d.gen c
  let g := { g with running := true, upd := true, drained := true, updEdge := now, drainEdge := now, uncounted := g.due.isSome
                    first := true, marks := [], relink := (List.range 6).filter (fun p => !(d.portUp p)) }
  d.putGen c ((List.range 6).foldl (fun g p => g.tokensTo p n) g)

/-- START_CONTEXT: a placed, stopped context runs from FIRST_TICK, or from where it stood (R383). DEDUCED, log entry 19. -/
def execStartContext (id : Nat) (now : Nat) (s : State) : Host.Outcome State Fault Refusal :=
  run (fun d => d.ctxCommand id 0x12 .usual [] (fun x d =>
    let c := x.ctx
    if !(d.flag USH_STATUS c USH_STATUS_PLACED) then d.refuse id 0x0103
    else if (d.gen c).running then d.refuse id 0x0101
    else d.ctxAwake id c (fun d =>
      let n := if x.plen = 0 then d.tickOf c else (x.p 0 6 + tickMod - 1) % tickMod
      (d.goFrom c n now).ok id (leBytes 6 (tickSucc n))))) s

/-- STOP_CONTEXT: no further tick starts; it ends once the last one is update-complete and drained and no step 3 of a migration runs
(R227, R383). -/
def execStopContext (id : Nat) (s : State) : Host.Outcome State Fault Refusal :=
  run (fun d => d.ctxCommand id 0x13 .usual [] (fun x d =>
    let c := x.ctx
    if !((d.gen c).running) then d.ok id (leBytes 6 (d.tickOf c))
    else ((((d.putGen c { d.gen c with running := false }).flushContext c).abandonOpen c).await id (.drained c)).settle)) s

/-- SET_TICK_PERIOD: phase, then period, then with SYNC the load; it ends at the edge of effect (R154, R156, R383). -/
def execSetTickPeriod (id : Nat) (now : Nat) (s : State) : Host.Outcome State Fault Refusal :=
  run (fun d => d.ctxCommand id 0x14 .usual [] (fun x d =>
    let c := x.ctx
    let p := x.p 0 4
    if 1 ≤ p ∧ p < 200 then d.outOfRange id 0
    else
      let d := (d.setF CLP_PHASE c CLP_PHASE_PHASE (x.p 4 4)).writePeriod c p now
      let d := if (x.p 8 1).testBit 0 then d.syncWrite (2 ^ c) now else d
      d.await id (.edge c (now + 4)))) s

/-- STEP: ticks are stepped while the period is 0 (R158, R383, R389). DEDUCED, log entry 19. -/
def execStep (id : Nat) (s : State) : Host.Outcome State Fault Refusal :=
  run (fun d => d.ctxCommand id 0x15 .usual [] (fun x d =>
    let c := x.ctx
    let k := x.p 0 2
    if d.fld CLP_PERIOD c CLP_PERIOD_PERIOD ≠ 0 then d.refuse id 0x010E
    else if !((d.gen c).running) then d.refuse id 0x0102
    else if k = 0 then d.ok id (leBytes 6 (d.tickOf c))
    else
      let d := d.addSteps c k
      (d.await id (.stepped c ((d.tickOf c + (d.gen c).stepRemain) % tickMod))))) s

/-! ## Rings -/

/-- Words injected in order, with the numbers handed over and dropped (R354). -/
def Dev.injectAll (d : Dev) (c : Nat) (ws : List W64) : Nat × Nat × Dev :=
  ws.foldl (fun (acc : Nat × Nat × Dev) w =>
    let (ok, d) := acc.2.2.injectWord c w
    if ok then (acc.1 + 1, acc.2.1, d) else (acc.1, acc.2.1 + 1, d)) (0, 0, d)

/-- INJECT_EVENTS: the words at ADDR enter the rim switch in order (R354, R383, R389). -/
def execInjectEvents (id : Nat) (data : Option (List Byte)) (s : State) : Host.Outcome State Fault Refusal :=
  run (fun d => d.ctxCommand id 0x18 .feeds (leBytes 8 0) (fun x d =>
    let n := x.p 8 4
    if n = 0 then d.ok id (leBytes 8 0)
    else d.withData x 0 (8 * n) data (fun bs =>
      let (a, b, d) := d.injectAll x.ctx ((List.range n).map (fun k => BitVec.ofNat 64 (at_ bs (8 * k) 8)))
      d.ok id (leBytes 4 a ++ leBytes 4 b)))) s

/-- ATTACH_OUTPUT: base, SIZE and EN of an output ring; what else its control holds stays (R358, R383). DEDUCED, log entry 19. -/
def execAttachOutput (id : Nat) (s : State) : Host.Outcome State Fault Refusal :=
  run (fun d => d.ctxCommand id 0x19 .feeds [] (fun x d =>
    let j := x.p 0 1
    if j > 3 then d.outOfRange id 0
    else if x.p 8 8 % 4096 ≠ 0 then d.outOfRange id 8
    else
      let i := x.ctx * 4 + j
      let d := d.setF HST_OUT_BASE i HST_OUT_BASE_ADDR (x.p 8 8 / 4096)
      let v := HST_OUT_CTRL_ERR.put (d.rd HST_OUT_CTRL i) 0
      let v := HST_OUT_CTRL_SIZE.put (HST_OUT_CTRL_EN.put v (x.p 2 1 % 2)) (min 31 (x.p 1 1))
      (d.outCtrl i .whole v).ok id [])) s

/-! ## Learning -/

/-- Assembled learning words. -/
def lrnWords (l : List LrnOp) : List Nat := l.map LrnOp.encode

/-- The words of a library rule with its constants K0 to K3 (R183). DEDUCED, log entry 19. -/
def libraryRule (rule k0 k1 k2 k3 : Nat) : List Nat :=
  let k := fun n => BitVec.ofNat 16 n
  match rule with
  | 0 => lrnWords [.mulk 3 4 (k k0) 2, .add 0 0 3 0 2, .mulk 3 5 (k k1) 1, .sub 0 0 3 0 1, .fin 0]
  | 1 => lrnWords [.mulk 1 1 (k k2) 0, .mulk 3 4 (k k0) 2, .add 1 1 3 0 2, .mulk 3 5 (k k1) 1, .sub 1 1 3 0 1,
      .mul 3 1 6 0 0, .shr 3 3 (k k3) 0, .add 0 0 3 0 0, .fin 0]
  | _ => lrnWords [.add 3 3 7 1 1, .sub 3 3 7 1 2, .cmpge 4 7 (k k0) 0, .max 3 3 7 0 7, .add 2 2 3 0 0, .fin 0]

/-- Whether the constant of a learning op is one that its fields use: all of it where a source selects K or the op is MULK, its low four
bits in SHR and SRND, else zero (R87, R180, R182). -/
def LrnOp.constOk : LrnOp → Bool
  | .add _ a b k _ | .sub _ a b k _ | .mul _ a b k _ | .min _ a b k _ | .max _ a b k _ | .sel _ a b k _ => k == 0 || a == 7 || b == 7
  | .cmpge a b k _ | .cmplt a b k _ => k == 0 || a == 7 || b == 7
  | .mov _ a k _ => k == 0 || a == 7
  | .shr _ _ k _ | .srnd _ _ k _ => decide (k.toNat < 16)
  | .mulk _ _ _ _ => true
  | .fin _ => true

/-- The first word of a user rule that breaks a limit; none for a rule that R182's checks accept. DEDUCED, log entry 19. -/
def ruleFlaw : Nat → List Nat → Option Nat
  | i, [] => some (i - 1)
  | i, w :: r =>
    match lrnDecode w with
    | none => some i
    | some o => if LrnOp.encode o ≠ w ∨ !(LrnOp.constOk o) then some i else match o with
      | .fin _ => none
      | _ => ruleFlaw (i + 1) r

/-- A rule slot of a context in a tile, with what else LEARN_CONFIG sets there (R385). -/
def Dev.learnTile (d : Dev) (x : Cmd) (words : Option (List Nat)) (t : Nat) : Dev :=
  let c := x.ctx
  let i := t * 8 + c
  let r := x.p 0 1
  let d := match words with
    | none => d
    | some ws => (List.range 16).foldl (fun d w => d.st (ruleAddr t c r w) 4 (ws.getD w 0)) d
  let ch := x.p 22 1 % 4
  let mods := x.p 3 1 % 2
  let d := d.setBitF TUM_CFG i TUM_CFG_RULE_VALID r words.isSome
  let m := d.fld TUM_CFG i TUM_CFG_MODSEL
  let d := d.setF TUM_CFG i TUM_CFG_MODSEL (m - m / 4 ^ r % 4 * 4 ^ r + x.p 2 1 * 4 ^ r)
  let d := d.wr TUM_TRACE i (BitVec.ofNat 64 (x.p 16 4))
  let d := (d.setF TUM_HOMEO i TUM_HOMEO_BAND (x.p 20 1)).setF TUM_HOMEO i TUM_HOMEO_Y_TARGET (x.p 21 1)
  if mods = 1 then (d.setF TUM_MOD_KEY (i * 4 + ch) TUM_MOD_KEY_KEY (x.p 24 4)).setBitF TUM_CFG i TUM_CFG_MOD_VALID ch true else d

/-- Tiles in which a context has a population. -/
def Dev.tilesOf (d : Dev) (c : Nat) : List Nat := (List.range 32).filter (fun t => !(d.engsOf t c).isEmpty)

/-- A setting is written to the registers of every tile and armed (R173, R385). -/
def Dev.armAll (d : Dev) (c len mode base : Nat) : Dev :=
  (List.range 32).foldl (fun d t =>
    let i := t * 8 + c
    let d := (d.setF TUM_EPOCH_LEN i TUM_EPOCH_LEN_LEN len).setF TUM_EPOCH_LEN i TUM_EPOCH_LEN_MODE mode
    (d.setF TUM_EPOCH_BASE i TUM_EPOCH_BASE_BASE base).armEpoch t c) d

/-- The epoch pair that tile `t` holds for a context is written to every tile that holds another, and armed there (R173).
DEDUCED, log entry 19. -/
def Dev.samePair (d : Dev) (c t : Nat) : Dev :=
  let e := d.rd TUM_EPOCH_LEN (t * 8 + c)
  let b := d.rd TUM_EPOCH_BASE (t * 8 + c)
  (List.range 32).foldl (fun (d : Dev) u =>
    let i := u * 8 + c
    if d.rd TUM_EPOCH_LEN i = e ∧ d.rd TUM_EPOCH_BASE i = b then d
    else ((d.wr TUM_EPOCH_LEN i e).wr TUM_EPOCH_BASE i b).armEpoch u c) d

/-- LEARN_CONFIG: a rule slot in every tile that holds the context, between sweeps (R183, R385). DEDUCED, log entry 19. -/
def execLearnConfig (id : Nat) (data : Option (List Byte)) (s : State) : Host.Outcome State Fault Refusal :=
  run (fun d => d.ctxCommand id 0x30 .feeds [] (fun x d =>
    let c := x.ctx
    let rule := x.p 1 1
    let ts := d.tilesOf c
    let put := fun (d : Dev) (ws : Option (List Nat)) => ((ts.foldl (fun d t => d.learnTile x ws t) d).samePair c (ts.headD 0)).ok id []
    if x.p 0 1 > 3 then d.outOfRange id 0
    else if !(List.contains [0, 1, 2, 0x80, 0xFF] rule) then d.outOfRange id 1
    else if x.p 2 1 > 3 then d.outOfRange id 2
    else if (x.p 3 1).testBit 0 ∧ x.p 22 1 > 3 then d.outOfRange id 22
    else d.ctxAwake id c (fun d =>
      if ts.any (fun t => (d.tum t).sweep.isSome) then d.decline id
      else if rule = 0xFF then put d none
      else if rule ≠ 0x80 then put d (some (libraryRule rule (x.p 4 1) (x.p 5 1) (x.p 6 1) (x.p 7 1)))
      else d.withData x 8 64 data (fun bs =>
        let ws := (List.range 16).map (fun k => at_ bs (4 * k) 4)
        match ruleFlaw 0 ws with
        | some k => d.finish id 0x0301 0x010D (leBytes 1 k)
        | none => put d (some ws))))) s

/-- Core cycles T of R188 for a context's sweep of a tile, without stalls. -/
def Dev.sweepCycles (d : Dev) (t c : Nat) : Nat :=
  let es := d.engsOf t c
  let words := fun (e : Nat) => (((d.plasticEntries t e c).map (d.sidx t e)).filter (fun x => rdFmt x == 0 && d.sweptRow t e x)).foldl
    (fun a x => a + rowWords 0 (rdLen x)) 0
  let lines := fun (e : Nat) => (List.range 32).foldl (fun a p =>
    let i := engIx t e * 32 + p
    let n := (d.fld TUM_HPROJ i TUM_HPROJ_NSGRP + 1) * d.proj t e p NE_PROJ_TGRP_COUNT
    let b := d.proj t e p NE_PROJ_SCALE_BASE
    if d.flag TUM_HPROJ i TUM_HPROJ_EN ∧ d.proj t e p NE_PROJ_VALID = 1 ∧ (d.pop t e (d.proj t e p NE_PROJ_TPOP)).ctx = c ∧ n ≠ 0 then
      a + ((b + n - 1) / 32 - b / 32 + 1) else a) 0
  es.zipIdx.foldl (fun a x =>
    a + 8 + (if x.2 + 1 = es.length then words x.1 else max (words x.1) 256) + 2 * lines x.1) 256

/-- The Ringmaster's estimate of a context's Intermission sweep in timebase cycles (R186). DEDUCED, log entry 19. -/
def Dev.sweepEstimate (d : Dev) (c : Nat) : Nat :=
  (d.tilesOf c).foldl (fun a t => max a (cdiv ((d.sweepCycles t c + 17) * 32) (25 * (4 - d.halfStep (halfOf t))))) 0

/-- The tick at which a setting with base `b` takes effect after tick `n` (R173). -/
def TumCtx.effect (x : TumCtx) (n b : Nat) : Nat :=
  let lo := max (n + 1) b
  if x.len = 0 then lo else x.base + cdiv (max lo x.base - x.base) x.len * x.len

/-- The first tick of the next epoch under the present setting, or the next tick when learning is off (R385). -/
def TumCtx.nextBase (x : TumCtx) (n : Nat) : Nat :=
  if x.len = 0 then n + 1 else if n < x.base then x.base else x.base + ((n - x.base) / x.len + 1) * x.len

/-- EPOCH_CONTROL: LEN, MODE and BASE are armed in every tile (R173, R186, R385). DEDUCED, log entry 19. -/
def execEpochControl (id : Nat) (s : State) : Host.Outcome State Fault Refusal :=
  run (fun d => d.ctxCommand id 0x31 .feeds [] (fun x d =>
    let c := x.ctx
    let mode := x.p 2 1
    let max := d.fld CLP_INTERM_MAX c CLP_INTERM_MAX_INTERM_MAX
    if mode > 1 then d.outOfRange id 2
    else d.ctxAwake id c (fun d =>
      if mode = 1 ∧ (max = 0 ∨ max < d.sweepEstimate c) then d.refuse id 0x0104
      else
        let n := d.tickOf c
        let base := if (x.p 3 1).testBit 0 then (d.tc 0 c).nextBase n else x.p 4 6
        let at_ := (d.tc 0 c).effect n base
        (d.armAll c (x.p 0 2) mode base).ok id (leBytes 6 at_)))) s

/-! ## Messages -/

/-- MQ_SEND: a message from agent 0x30 + c or 0x3F; it ends when the message is in the receiver's ring, or acknowledged (R386).
DEDUCED, log entry 19. -/
def execMqSend (id : Nat) (data : Option (List Byte)) (s : State) : Host.Outcome State Fault Refusal :=
  run (fun d => d.command id 0x58 (fun x d =>
    let a := if x.priv then 0x3F else 0x30 + x.ctx
    let hdr := x.p 0 8
    let go := fun (d : Dev) (payload : List Byte) => (d.await id .message).mqSend a hdr payload id
    if x.flags.testBit 1 then
      if mhLen hdr > 248 then d.outOfRange id 0
      else d.withData x 8 (mhLen hdr) data (fun bs => go d bs)
    else go d (x.params.drop 8))) s

end Sys2Proof.Machine
end

