-- ==== Sys2Proof/Machine/Snapshot.lean ====
section
/-! DEFINITION. SNAPSHOT and RESTORE (R193, R383). An image is a 64-byte header (the CRC-32C of the description, PART, the image's
length) and the part's content. -/

namespace Sys2Proof.Machine

/-! ## Content -/

/-- Engines that a context's placement uses, in order. -/
def Dev.enginesOf (d : Dev) (c : Nat) : List Nat := (List.range 288).filter (fun k => d.holds (k / 9) (k % 9) c)

/-- The synapse and scale words of a context in its engines, as (tile, address, bytes). -/
def Dev.weightSegs (d : Dev) (c : Nat) : List (Nat × Nat × Nat) :=
  (d.enginesOf c).flatMap (fun k =>
    let t := k / 9
    let e := k % 9
    match d.bounds t e c with
    | none => []
    | some b =>
      let lo := NE_BOUNDS_SMEM_LO.get b
      let sl := NE_BOUNDS_SCALE_LO.get b
      [(t, engBase t e + 64 * lo, 64 * (NE_BOUNDS_SMEM_HI.get b + 1 - lo)),
       (t, engBase t e + 0x2F0000 + 2 * sl, 2 * (NE_BOUNDS_SCALE_HI.get b + 1 - sl))])

/-- Whether 16 bytes are a valid source-index entry of a context (R97). -/
def sidxMine (c : Nat) (b : List Byte) : Bool :=
  let x : BitVec 128 := BitVec.ofNat 128 (leNat b)
  rdBits x 95 95 == 1 && rdCtx x == c

/-- A context's part of a source-index image: entries that are not its own read zero. -/
def Dev.sidxImage (d : Dev) (c k : Nat) : List Byte :=
  (List.range 8192).flatMap (fun i =>
    let b := d.ldBytes (d.imageOf (k / 9) (engBase (k / 9) (k % 9) + 0x280000 + 16 * i)) 16
    if sidxMine c b then b else List.replicate 16 0)

/-- Records, slot region, touch planes and post-traces of a context's blocks, as (address, bytes). -/
def Dev.stateSegs (d : Dev) (c : Nat) : List (Nat × Nat) :=
  (Tab.get [] d.blocks c).flatMap (fun b =>
    let depth := ((recFind (d.recs c) 1 b.pop).map popDepth).getD 1
    [(recAddr b.tile b.eng b.base, 16 * b.size), (engBase b.tile b.eng + 0x200000 + b.slotBase * 2, blockSpan b * depth * 2)]
    ++ (List.range depth).map (fun k => (engBase b.tile b.eng + 0x2E0000 + (k * 8192 + b.base) / 8, blockSpan b / 8))
    ++ [(traceAddr b.tile b.eng b.base, b.size)])

/-- One item of a placement image: kind, key and two values, 8 bytes each. -/
structure Item where
  kind : Nat
  key : Nat
  v0 : Nat
  v1 : Nat
  deriving DecidableEq, Repr

/-- An item's bytes. -/
def Item.bytes (x : Item) : List Byte := leBytes 8 x.kind ++ leBytes 8 x.key ++ leBytes 8 x.v0 ++ leBytes 8 x.v1

/-- An item read from 32 bytes. -/
def itemAt (b : List Byte) (i : Nat) : Item := ⟨at_ b (32 * i) 8, at_ b (32 * i + 8) 8, at_ b (32 * i + 16) 8, at_ b (32 * i + 24) 8⟩

/-- A block as an item of kind 1. -/
def blockItem (b : Block) : Item :=
  ⟨1, b.pop % 65536 + b.first * 65536,
   b.size % 65536 + b.tile % 256 * 2 ^ 16 + b.eng % 256 * 2 ^ 24 + b.desc % 256 * 2 ^ 32 + b.routine % 256 * 2 ^ 40,
   b.base % 65536 + b.slotBase % 2 ^ 24 * 2 ^ 16 + (b.dtab.zipIdx.map (fun x => x.1 % 16 * 16 ^ x.2)).sum % 65536 * 2 ^ 40⟩

/-- The block of an item. -/
def Item.block (x : Item) : Block :=
  { pop := x.key % 65536, first := x.key / 65536, size := bits x.v0 15 0, tile := bits x.v0 23 16, eng := bits x.v0 31 24
    desc := bits x.v0 39 32, routine := bits x.v0 47 40, base := bits x.v1 15 0, slotBase := bits x.v1 39 16
    dtab := (List.range 4).map (fun k => bits x.v1 (43 + 4 * k) (40 + 4 * k)) }

/-- Registers of a context's placement in an engine: bounds, projections that target it, its populations' decay tables, home image,
plastic region. -/
def Dev.placeRegs (d : Dev) (c k : Nat) : List (Reg × Nat) :=
  let t := k / 9
  let e := k % 9
  let pops := (List.range 64).filter (fun n => let p := d.popCommitted t e n; p.valid && p.ctx == c)
  let tabs := (pops.flatMap (fun n =>
    let p := d.popCommitted t e n
    [p.l NE_POP_LO_DTAB0, p.l NE_POP_LO_DTAB1, p.l NE_POP_LO_DTAB2, p.l NE_POP_LO_DTAB3])).eraseDups
  ((List.range 4).filter (fun j => d.fld NE_BOUNDS (k * 4 + j) NE_BOUNDS_CTX == c && d.flag NE_BOUNDS (k * 4 + j) NE_BOUNDS_VALID)).map (fun j => (NE_BOUNDS, k * 4 + j))
  ++ (pops.flatMap (fun n => d.projsTo t e n)).map (fun p => (NE_PROJ, k * 32 + p))
  ++ tabs.flatMap (fun x => (NE_DECAY_REST, k * 16 + x) :: (List.range 64).map (fun j => (NE_DECAY, (k * 16 + x) * 64 + j)))
  ++ [(NE_HOME_BASE, k), (TUM_PL, k), (TUM_PLASTIC_PROJ, k)]

/-- The items of a context's placement: blocks, registers (kind 2), PROJ records (3), fan-out entries (4) and rim entries (5) of the
selected versions. -/
def Dev.placeItems (d : Dev) (c : Nat) : List Item :=
  let regs := (d.enginesOf c).flatMap (fun k => d.placeRegs c k)
  (Tab.get [] d.blocks c).map blockItem
  ++ regs.map (fun x => ⟨2, x.1.key x.2, (d.rd x.1 x.2).toNat, 0⟩)
  ++ (regs.filter (fun x => x.1.id == NE_PROJ.id)).map (fun x => ⟨3, x.2, Tab.get 0 d.projRec x.2, 0⟩)
  ++ (List.range 32).flatMap (fun t =>
    let b := d.fld MID_FT_REGION (t * 8 + c) MID_FT_REGION_BASE
    (List.range (d.fld MID_FT_REGION (t * 8 + c) MID_FT_REGION_COUNT)).map (fun i =>
      let v := d.ld (ftAddr t (d.midVer t c) (b + i)) 16
      ⟨4, t * 65536 + b + i, v % 2 ^ 64, v / 2 ^ 64⟩))
  ++ (List.range (d.fld RIM_TAB_REGION c RIM_TAB_REGION_COUNT)).map (fun i =>
    let j := d.fld RIM_TAB_REGION c RIM_TAB_REGION_BASE + i
    let v := Tab.get 0 d.rimTab (d.rimVer c * 16384 + j)
    ⟨5, j, v % 2 ^ 64, v / 2 ^ 64⟩)

/-- Content of a part. DESIGN CHOICE, log entry 20. -/
def Dev.partBytes (d : Dev) (c part : Nat) : List Byte :=
  match part with
  | 0 => (d.weightSegs c).flatMap (fun x => (List.range x.2.2).map (fun k => d.ldB (d.imageOf x.1 (x.2.1 + k))))
      ++ (d.enginesOf c).flatMap (fun k => d.sidxImage c k)
  | 1 => (d.stateSegs c).flatMap (fun x => d.ldBytes x.1 x.2)
  | _ => (d.placeItems c).flatMap Item.bytes

/-- The CRC that names a context's description in an image. -/
def Dev.descCrc (d : Dev) (c : Nat) : Nat := crc32c (Tab.get [] d.descs c)

/-- An image of a part. DESIGN CHOICE, log entry 20. -/
def Dev.image (d : Dev) (c part : Nat) : List Byte :=
  let b := d.partBytes c part
  leBytes 4 (d.descCrc c) ++ leBytes 4 part ++ leBytes 8 (64 + b.length) ++ List.replicate 48 0 ++ b

/-- The lowest TUM_WT_c over the tiles that hold a context. -/
def Dev.lowestWt (d : Dev) (c : Nat) : Nat :=
  match (d.tilesOf c).map (fun t => d.fld TUM_WT (t * 8 + c) TUM_WT_EPOCH) with
  | [] => 0
  | x :: r => r.foldl min x

/-- The checks of PART and LENGTH that SNAPSHOT and RESTORE share (R382). -/
def Cmd.partOk (x : Cmd) : Option Nat :=
  if x.p 24 1 > 2 then some 24 else if x.p 16 8 % 64 ≠ 0 then some 16 else none

/-- SNAPSHOT: LENGTH bytes of a part's image from OFFSET, none past its end; zeros of a confidential context for the physical function
(R193, R383, R389, R440). DESIGN CHOICE, log entry 20. -/
def execSnapshot (id : Nat) (ok : Bool) (s : State) : Host.Outcome State Fault Refusal :=
  run (fun d => d.ctxCommand id 0x16 .usual [] (fun x d =>
    let c := x.ctx
    let part := x.p 24 1
    match x.partOk with
    | some off => d.outOfRange id off
    | none =>
      if part = 1 ∧ (d.gen c).running then d.refuse id 0x0101
      else
        let go := fun (d : Dev) =>
          let img := d.image c part
          let shut := x.priv && d.confidential c
          let bs := (slice img (x.p 8 8) (x.p 16 8)).map (fun b => if shut then 0 else b)
          let d := if shut then d.violation 0 5 0x16 else d
          let res := if shut then [] else leBytes 8 img.length ++ leBytes 6 (d.lowestWt c)
          if bs.isEmpty then d.ok id res else d.writeData x 0 bs ok (fun d => d.ok id res)
        if part = 1 then d.ctxAwake id c go else go d)) s

/-! ## Restoring -/

/-- Bytes of an image put back in order into the segments that they came from. -/
def Dev.putSegs (d : Dev) (segs : List (Nat × Nat)) (b : List Byte) : Dev :=
  (segs.foldl (fun (acc : Dev × List Byte) x => (acc.1.stBytes x.1 (acc.2.take x.2), acc.2.drop x.2)) (d, b)).1

/-- Counts, eligibility and modulator accumulators of a context start at 0, with its post-traces unless they are restored (R193). -/
def Dev.clearLearning (d : Dev) (c : Nat) (traces : Bool) : Dev :=
  let d := (d.enginesOf c).foldl (fun d k =>
    let t := k / 9
    let e := k % 9
    let d := (d.popsOf t e c).foldl (fun d n =>
      let p := d.pop t e n
      let d := d.clear (traceAddr t e (8192 + p.base)) p.size
      if traces then d.clear (traceAddr t e p.base) p.size else d) d
    (d.sidxOf t e c).foldl (fun d i =>
      let y := d.sidx t e i
      let d := d.clear (preAddr t e i) 1
      if d.sweptRow t e y then
        d.clear (traceAddr t e (16384 + (rdAddr y - d.fld TUM_PL k TUM_PL_BASE) * 16)) (16 * rowWords 0 (rdLen y))
      else d) d) d
  (List.range 32).foldl (fun d t =>
    let g := d.tum t
    d.setTum t { g with acc := g.acc.filter (fun x => x.1 / 8 != c) }) d

/-- PART 0 put back: images and on-die words of the context's bounds, and its source-index entries. -/
def Dev.restoreWeights (d : Dev) (c : Nat) (b : List Byte) : Dev :=
  let segs := d.weightSegs c
  let n := (segs.map (fun x => x.2.2)).sum
  let d := d.putSegs (segs.map (fun x => (x.2.1, x.2.2))) b
  let d := d.putSegs (segs.map (fun x => (d.imageOf x.1 x.2.1, x.2.2))) b
  let es := d.enginesOf c
  es.zipIdx.foldl (fun d y =>
    let t := y.1 / 9
    let e := y.1 % 9
    let d := (d.sidxOf t e c).foldl (fun d i => d.sidxDrop t e i) d
    (List.range 8192).foldl (fun d i =>
      let x := slice b (n + y.2 * 131072 + 16 * i) 16
      if sidxMine c x ∧ rdBits (d.sidx t e i) 95 95 = 0 then d.setSidx t e i (leNat x) else d) d) d

/-- PART 2 put back: the context's engines are freed, then blocks, registers and tables are as the image has them, and its flows are
scheduled; the versions flip. None when a block does not fit its engine any more. -/
def Dev.restorePlace (d : Dev) (c : Nat) (b : List Byte) : Option Dev :=
  let rs := d.recs c
  let items := (List.range (b.length / 32)).map (itemAt b)
  let kind := fun k => items.filter (fun (x : Item) => x.kind == k)
  let bs := (kind 1).map Item.block
  if !(bs.all (fun y => (recFind rs 1 y.pop).isSome && d.placeable y.tile y.eng && d.blockFits rs c true y) && blocksApart rs bs) then none
  else
    let d := (List.range 288).foldl (fun d k => d.freeEngine c (k / 9) (k % 9)) d
    let mine := fun (i : Nat) => bs.any (fun y => engIx y.tile y.eng == i)
    let d := (kind 2).foldl (fun (d : Dev) (x : Item) =>
      let i := x.key % 2 ^ 20
      let w := BitVec.ofNat 64 x.v0
      match x.key / 2 ^ 20 with
      | n =>
        if n = NE_BOUNDS.id ∧ mine (i / 4) then d.store NE_BOUNDS i .whole w
        else if n = NE_PROJ.id ∧ mine (i / 32) then d.store NE_PROJ i .whole w
        else if n = NE_DECAY_REST.id ∧ mine (i / 16) then d.store NE_DECAY_REST i .whole w
        else if n = NE_DECAY.id ∧ mine (i / 1024) then d.store NE_DECAY i .whole w
        else if n = NE_HOME_BASE.id ∧ mine i then d.store NE_HOME_BASE i .whole w
        else if n = TUM_PL.id ∧ mine i then d.tumPl (i / 9) (i % 9) w
        else if n = TUM_PLASTIC_PROJ.id ∧ mine i then d.store TUM_PLASTIC_PROJ i .whole w
        else d) d
    let d := (kind 3).foldl (fun (d : Dev) (x : Item) => if mine (x.key / 32) then { d with projRec := Tab.set 0 d.projRec x.key x.v0 } else d) d
    let d := bs.foldl (fun d y => (d.putBlock c rs true y).setSpillMax y.tile y.eng) d
    let d := { d with blocks := Tab.set [] d.blocks c bs }
    let fan := (kind 4).map (fun (x : Item) => (x.key / 65536, x.key % 65536, x.v0 + x.v1 * 2 ^ 64))
    let rim := (kind 5).map (fun (x : Item) => (x.key, x.v0 + x.v1 * 2 ^ 64))
    let v := fun t => 1 - d.midVer t c
    if !(d.planTables c { fan := fan, rim := rim }) then none
    else match ((d.putTables c { fan := fan, rim := rim }).clearFlows c v).scheduleCtx c rs bs with
      | (.inl _, _) => none
      | (.inr fs, d) => some (({ d with flows := Tab.set [] d.flows c fs, newFlows := Tab.set [] d.newFlows c [] }.flipTables c).setPolicers c fs)

/-- A RESTORE image takes effect: its measurement is extended (R383, R452). None when the image does not match.
DESIGN CHOICE, log entry 20. -/
def Dev.restoreCommit (d : Dev) (c part : Nat) (img : List Byte) : Option Dev :=
  if at_ img 0 4 ≠ d.descCrc c ∨ at_ img 4 4 ≠ part then none
  else
    let b := slice img 64 (at_ img 8 8 - 64)
    let d' := match part with
      | 0 => some ((d.restoreWeights c b).clearLearning c true)
      | 1 => some ((d.clearLearning c false).putSegs (d.stateSegs c) b)
      | _ => (d.restorePlace c b).map (fun (d : Dev) => d.clearLearning c true)
    d'.map (fun (d : Dev) => d.extendMeas (6 + c) (shake256 img))

/-- The bytes gathered for a part, in order from 0. -/
def chunkBytes (t : Tab Byte) : List Byte :=
  match t.getLast? with
  | none => []
  | some (k, _) => (List.range (max 64 (k + 1))).map (fun i => Tab.get 0 t i)

/-- RESTORE: chunks are gathered and take effect together at LAST, for a stopped, placed context (R383, R389).
DESIGN CHOICE, log entry 20. -/
def execRestore (id : Nat) (data : Option (List Byte)) (s : State) : Host.Outcome State Fault Refusal :=
  run (fun d => d.ctxCommand id 0x17 .feeds [] (fun x d =>
    let c := x.ctx
    let part := x.p 24 1
    let k := c * 4 + part
    let last := (x.p 25 1).testBit 0
    match x.partOk with
    | some off => d.outOfRange id off
    | none =>
      if (d.gen c).running then d.refuse id 0x0101
      else if !(d.flag USH_STATUS c USH_STATUS_PLACED) then d.refuse id 0x0103
      else if part = 2 ∧ last ∧ !(d.tablesFree c) then d.busy id
      else d.ctxAwake id c (fun d =>
        let commit := fun (d : Dev) =>
          if !last then d.ok id []
          else
            let img := chunkBytes (Tab.get [] d.restore k)
            let d := { d with restore := Tab.set [] d.restore k [] }
            match d.restoreCommit c part img with
            | some d => d.ok id []
            | none => d.refuse id 0x010A
        if x.p 16 8 = 0 then commit d
        else d.withData x 0 (x.p 16 8) data (fun bs =>
          let t := bs.zipIdx.foldl (fun t y =>
            let i := x.p 8 8 + y.2
            t.filter (fun z => z.1 < i) ++ (i, y.1) :: t.filter (fun z => i < z.1)) (Tab.get ([] : Tab Byte) d.restore k)
          commit { d with restore := Tab.set [] d.restore k t })))) s

end Sys2Proof.Machine
end

