-- ==== Sys2Proof/Machine/Dispatch.lean ====
section
/-! DEFINITION. One arm per command: a direct call of its meaning, or a refusal by name. -/

namespace Sys2Proof.Machine

open Sys2Proof

def exec (i : Instr) (s : State) : Host.Outcome State Fault Refusal :=
  match i with
  | .registerWrite who off bytes v poisoned now x => Sys2Proof.Machine.execRegisterWrite who off bytes v poisoned now x s
  | .lowHalfRead who off bytes => Sys2Proof.Machine.execLowHalfRead who off bytes s
  | .highHalfRead who off => Sys2Proof.Machine.execHighHalfRead who off s
  | .tickDue c now => Sys2Proof.Machine.execTickDue c now s
  | .tickStart c now => Sys2Proof.Machine.execTickStart c now s
  | .updatePhaseBegin t e bad touchBad idle => Sys2Proof.Machine.execUpdatePhaseBegin t e bad touchBad idle s
  | .ld t e dst pred sbe bad => Sys2Proof.Machine.execLd t e dst pred sbe bad s
  | .st t e dst pred => Sys2Proof.Machine.execSt t e dst pred s
  | .add t e dst a b k pred => Sys2Proof.Machine.execAdd t e dst a b k pred s
  | .sub t e dst a b k pred => Sys2Proof.Machine.execSub t e dst a b k pred s
  | .mulk t e dst a k pred => Sys2Proof.Machine.execMulk t e dst a k pred s
  | .shr t e dst a k pred => Sys2Proof.Machine.execShr t e dst a k pred s
  | .decay t e dst a k pred => Sys2Proof.Machine.execDecay t e dst a k pred s
  | .slot t e pred bad hold => Sys2Proof.Machine.execSlot t e pred bad hold s
  | .cmpge t e a b k pred => Sys2Proof.Machine.execCmpge t e a b k pred s
  | .cmplt t e a b k pred => Sys2Proof.Machine.execCmplt t e a b k pred s
  | .sel t e dst a b k pred => Sys2Proof.Machine.execSel t e dst a b k pred s
  | .clr t e dst k pred => Sys2Proof.Machine.execClr t e dst k pred s
  | .noise t e dst a k pred => Sys2Proof.Machine.execNoise t e dst a k pred s
  | .refr t e k pred => Sys2Proof.Machine.execRefr t e k pred s
  | .emit t e a k pred => Sys2Proof.Machine.execEmit t e a k pred s
  | .emitContinue t e stall => Sys2Proof.Machine.execEmitContinue t e stall s
  | .endLine t e pred bad => Sys2Proof.Machine.execEndLine t e pred bad s
  | .runningOrderFault t e damaged bad => Sys2Proof.Machine.execRunningOrderFault t e damaged bad s
  | .stateWriteback t e => Sys2Proof.Machine.execStateWriteback t e s
  | .postCountWrite t e => Sys2Proof.Machine.execPostCountWrite t e s
  | .updateComplete c now => Sys2Proof.Machine.execUpdateComplete c now s
  | .descriptorWrite t e n half v => Sys2Proof.Machine.execDescriptorWrite t e n half v s
  | .descriptorTakeEffect t e => Sys2Proof.Machine.execDescriptorTakeEffect t e s
  | .neNoiseSeedWrite t e v => Sys2Proof.Machine.execNeNoiseSeedWrite t e v s
  | .neSrSeedWrite t e v => Sys2Proof.Machine.execNeSrSeedWrite t e v s
  | .neDbgRecLoRead t e => Sys2Proof.Machine.execNeDbgRecLoRead t e s
  | .neDbgRecHiWrite t e half v => Sys2Proof.Machine.execNeDbgRecHiWrite t e half v s
  | .neDbgRecLoWrite t e half v => Sys2Proof.Machine.execNeDbgRecLoWrite t e half v s
  | .runningOrderWrite t e w half v => Sys2Proof.Machine.execRunningOrderWrite t e w half v s
  | .neProjWrite t e p half v => Sys2Proof.Machine.execNeProjWrite t e p half v s
  | .spillMaxWrite t e v => Sys2Proof.Machine.execSpillMaxWrite t e v s
  | .eventTake t e bad corrected slotBad touchBad stall => Sys2Proof.Machine.execEventTake t e bad corrected slotBad touchBad stall s
  | .gatherFlushIdle t e bad => Sys2Proof.Machine.execGatherFlushIdle t e bad s
  | .gatherFlushAge t e bad => Sys2Proof.Machine.execGatherFlushAge t e bad s
  | .spillRowLand t e k bad => Sys2Proof.Machine.execSpillRowLand t e k bad s
  | .refetchReturn t e ok bad => Sys2Proof.Machine.execRefetchReturn t e ok bad s
  | .clpPeriodWrite c v now => Sys2Proof.Machine.execClpPeriodWrite c v now s
  | .clpPeriodEffect c now => Sys2Proof.Machine.execClpPeriodEffect c now s
  | .clpSyncWrite v now => Sys2Proof.Machine.execClpSyncWrite v now s
  | .clpSyncLoad now => Sys2Proof.Machine.execClpSyncLoad now s
  | .clpStaggerWrite v now => Sys2Proof.Machine.execClpStaggerWrite v now s
  | .clpStepWrite c v => Sys2Proof.Machine.execClpStepWrite c v s
  | .steppedTickDue c now => Sys2Proof.Machine.execSteppedTickDue c now s
  | .stretchFallback c now => Sys2Proof.Machine.execStretchFallback c now s
  | .drainWave now => Sys2Proof.Machine.execDrainWave now s
  | .intermissionRequest c tick work est now => Sys2Proof.Machine.execIntermissionRequest c tick work est now s
  | .intermissionOpen c now => Sys2Proof.Machine.execIntermissionOpen c now s
  | .intermissionDone c now => Sys2Proof.Machine.execIntermissionDone c now s
  | .tickMarkerReceive p now => Sys2Proof.Machine.execTickMarkerReceive p now s
  | .drainTokenSend c p => Sys2Proof.Machine.execDrainTokenSend c p s
  | .drainTokenReceive p => Sys2Proof.Machine.execDrainTokenReceive p s
  | .tumEpochLenWrite t c v => Sys2Proof.Machine.execTumEpochLenWrite t c v s
  | .tumPlWrite t e v => Sys2Proof.Machine.execTumPlWrite t e v s
  | .tumSeedWrite t v => Sys2Proof.Machine.execTumSeedWrite t v s
  | .ruleApertureWrite t c r w v => Sys2Proof.Machine.execRuleApertureWrite t c r w v s
  | .ruleWriteApply t => Sys2Proof.Machine.execRuleWriteApply t s
  | .tumPreRecord t => Sys2Proof.Machine.execTumPreRecord t s
  | .tumModulator t => Sys2Proof.Machine.execTumModulator t s
  | .sweepWordRead t found corrected => Sys2Proof.Machine.execSweepWordRead t found corrected s
  | .lrnAdd t lane dst a b k pred => Sys2Proof.Machine.execLrnAdd t lane dst a b k pred s
  | .lrnSub t lane dst a b k pred => Sys2Proof.Machine.execLrnSub t lane dst a b k pred s
  | .lrnMul t lane dst a b k pred => Sys2Proof.Machine.execLrnMul t lane dst a b k pred s
  | .lrnMulk t lane dst a k pred => Sys2Proof.Machine.execLrnMulk t lane dst a k pred s
  | .lrnShr t lane dst a k pred => Sys2Proof.Machine.execLrnShr t lane dst a k pred s
  | .lrnMin t lane dst a b k pred => Sys2Proof.Machine.execLrnMin t lane dst a b k pred s
  | .lrnMax t lane dst a b k pred => Sys2Proof.Machine.execLrnMax t lane dst a b k pred s
  | .lrnCmpge t lane a b k pred => Sys2Proof.Machine.execLrnCmpge t lane a b k pred s
  | .lrnCmplt t lane a b k pred => Sys2Proof.Machine.execLrnCmplt t lane a b k pred s
  | .lrnSel t lane dst a b k pred => Sys2Proof.Machine.execLrnSel t lane dst a b k pred s
  | .lrnSrnd t lane dst a k pred => Sys2Proof.Machine.execLrnSrnd t lane dst a k pred s
  | .lrnMov t lane dst a k pred => Sys2Proof.Machine.execLrnMov t lane dst a k pred s
  | .lrnEnd t lane pred => Sys2Proof.Machine.execLrnEnd t lane pred s
  | .sweepWordWrite t => Sys2Proof.Machine.execSweepWordWrite t s
  | .sweepEnd t cycles hold wait => Sys2Proof.Machine.execSweepEnd t cycles hold wait s
  | .writeThroughComplete t packets => Sys2Proof.Machine.execWriteThroughComplete t packets s
  | .loadDescription id data => Sys2Proof.Machine.execLoadDescription id data s
  | .place id plan => Sys2Proof.Machine.execPlace id plan s
  | .pinHint id => Sys2Proof.Machine.execPinHint id s
  | .rebalancePeriod moves promotions demotions => Sys2Proof.Machine.execRebalancePeriod moves promotions demotions s
  | .backgroundCopyDone c ok est now moves => Sys2Proof.Machine.execBackgroundCopyDone c ok est now moves s
  | .holdOverEnd c now own moves => Sys2Proof.Machine.execHoldOverEnd c now own moves s
  | .demoteFree => Sys2Proof.Machine.execDemoteFree s
  | .scheduleRebuild c est now => Sys2Proof.Machine.execScheduleRebuild c est now s
  | .loadSummaryExchange q payload => Sys2Proof.Machine.execLoadSummaryExchange q payload s
  | .fabricIntermissionAnnounce c tick dist est now chips q payload => Sys2Proof.Machine.execFabricIntermissionAnnounce c tick dist est now chips q payload s
  | .fabricIntermissionDone c late lead q payload => Sys2Proof.Machine.execFabricIntermissionDone c late lead q payload s
  | .fabricIntermissionGo c chips q payload => Sys2Proof.Machine.execFabricIntermissionGo c chips q payload s
  | .fanoutLookup t w bad => Sys2Proof.Machine.execFanoutLookup t w bad s
  | .policerRefill h => Sys2Proof.Machine.execPolicerRefill h s
  | .gatewayEntry g w bad => Sys2Proof.Machine.execGatewayEntry g w bad s
  | .flitRoute t inp found wake entryBad => Sys2Proof.Machine.execFlitRoute t inp found wake entryBad s
  | .outputGrant t out cycles badSlot => Sys2Proof.Machine.execOutputGrant t out cycles badSlot s
  | .creditReturn t out cls => Sys2Proof.Machine.execCreditReturn t out cls s
  | .combineRelease t k bad => Sys2Proof.Machine.execCombineRelease t k bad s
  | .localPortPresent t cls => Sys2Proof.Machine.execLocalPortPresent t cls s
  | .midFtLoRead t => Sys2Proof.Machine.execMidFtLoRead t s
  | .midFtHiWrite t half v => Sys2Proof.Machine.execMidFtHiWrite t half v s
  | .midFtLoWrite who t half v => Sys2Proof.Machine.execMidFtLoWrite who t half v s
  | .slotTableWrite t ver p sl v => Sys2Proof.Machine.execSlotTableWrite t ver p sl v s
  | .midFtRegionWrite t c v => Sys2Proof.Machine.execMidFtRegionWrite t c v s
  | .midCombWrite t v => Sys2Proof.Machine.execMidCombWrite t v s
  | .midC0polWrite t ix v => Sys2Proof.Machine.execMidC0polWrite t ix v s
  | .fanoutEntryRewrite t ver ix => Sys2Proof.Machine.execFanoutEntryRewrite t ver ix s
  | .tableUpdate id data => Sys2Proof.Machine.execTableUpdate id data s
  | .tableSwitch id est now => Sys2Proof.Machine.execTableSwitch id est now s
  | .elkCtrlWrite p v => Sys2Proof.Machine.execElkCtrlWrite p v s
  | .elkRetrain p => Sys2Proof.Machine.execElkRetrain p s
  | .laneTrainingDone p lane => Sys2Proof.Machine.execLaneTrainingDone p lane s
  | .trainTimeout p => Sys2Proof.Machine.execTrainTimeout p s
  | .codewordReceive p lane0 lane1 ms => Sys2Proof.Machine.execCodewordReceive p lane0 lane1 ms s
  | .frameReceive p => Sys2Proof.Machine.execFrameReceive p s
  | .frameTransmit p prefer stall => Sys2Proof.Machine.execFrameTransmit p prefer stall s
  | .replayTimeout p => Sys2Proof.Machine.execReplayTimeout p s
  | .linkDown p => Sys2Proof.Machine.execLinkDown p s
  | .laneFail p lane => Sys2Proof.Machine.execLaneFail p lane s
  | .rimLookup src found joins entryBad => Sys2Proof.Machine.execRimLookup src found joins entryBad s
  | .rimGatewayIngress g found => Sys2Proof.Machine.execRimGatewayIngress g found s
  | .outputRingTimer c j => Sys2Proof.Machine.execOutputRingTimer c j s
  | .aeroSend ackLow => Sys2Proof.Machine.execAeroSend ackLow s
  | .aeroAckRise => Sys2Proof.Machine.execAeroAckRise s
  | .aeroHsTimeout => Sys2Proof.Machine.execAeroHsTimeout s
  | .aeroStuck => Sys2Proof.Machine.execAeroStuck s
  | .xptRetransmit chip c cls tseq => Sys2Proof.Machine.execXptRetransmit chip c cls tseq s
  | .xptReceiveBulk => Sys2Proof.Machine.execXptReceiveBulk s
  | .bulkWrite loc => Sys2Proof.Machine.execBulkWrite loc s
  | .xptReceiveMessage => Sys2Proof.Machine.execXptReceiveMessage s
  | .xptSkip chip c => Sys2Proof.Machine.execXptSkip chip c s
  | .ackSend chip c cls => Sys2Proof.Machine.execAckSend chip c cls s
  | .ackReceive => Sys2Proof.Machine.execAckReceive s
  | .rimReset => Sys2Proof.Machine.execRimReset s
  | .rimTabLoRead => Sys2Proof.Machine.execRimTabLoRead s
  | .rimTabHiWrite half v => Sys2Proof.Machine.execRimTabHiWrite half v s
  | .rimTabLoWrite who half v => Sys2Proof.Machine.execRimTabLoWrite who half v s
  | .rimTabRegionWrite c v => Sys2Proof.Machine.execRimTabRegionWrite c v s
  | .rimTableRewrite ver ix => Sys2Proof.Machine.execRimTableRewrite ver ix s
  | .csiPacketReceive n hdr bytes nows => Sys2Proof.Machine.execCsiPacketReceive n hdr bytes nows s
  | .aeriReqRise ix a now => Sys2Proof.Machine.execAeriReqRise ix a now s
  | .aeriAckRaise ix now => Sys2Proof.Machine.execAeriAckRaise ix now s
  | .aeriReqFall ix => Sys2Proof.Machine.execAeriReqFall ix s
  | .aeriHsTimeout ix => Sys2Proof.Machine.execAeriHsTimeout ix s
  | .pixelScan now => Sys2Proof.Machine.execPixelScan now s
  | .snsInCfgWrite ix half v => Sys2Proof.Machine.execSnsInCfgWrite ix half v s
  | .snsCsiCtrlWrite n v => Sys2Proof.Machine.execSnsCsiCtrlWrite n v s
  | .crcParamWrite n half v => Sys2Proof.Machine.execCrcParamWrite n half v s
  | .crcCfgWrite n half v => Sys2Proof.Machine.execCrcCfgWrite n half v s
  | .perstAssert => Sys2Proof.Machine.execPerstAssert s
  | .perstDeassert x => Sys2Proof.Machine.execPerstDeassert x s
  | .hotReset x => Sys2Proof.Machine.execHotReset x s
  | .pfFlr x => Sys2Proof.Machine.execPfFlr x s
  | .vfFlr c => Sys2Proof.Machine.execVfFlr c s
  | .injTailWrite c v => Sys2Proof.Machine.execInjTailWrite c v s
  | .injCtrlWrite c v => Sys2Proof.Machine.execInjCtrlWrite c v s
  | .injFetch c => Sys2Proof.Machine.execInjFetch c s
  | .injFetchComplete c data => Sys2Proof.Machine.execInjFetchComplete c data s
  | .outHeadWrite c j v => Sys2Proof.Machine.execOutHeadWrite c j v s
  | .outCtrlWrite c j half v => Sys2Proof.Machine.execOutCtrlWrite c j half v s
  | .smbStatusRead pec => Sys2Proof.Machine.execSmbStatusRead pec s
  | .smbHottestRead pec => Sys2Proof.Machine.execSmbHottestRead pec s
  | .smbSensorRead n pec => Sys2Proof.Machine.execSmbSensorRead n pec s
  | .smbPowerRead pec => Sys2Proof.Machine.execSmbPowerRead pec s
  | .smbRailRead k pec => Sys2Proof.Machine.execSmbRailRead k pec s
  | .smbRecordsRead pec => Sys2Proof.Machine.execSmbRecordsRead pec s
  | .smbSerialRead pec => Sys2Proof.Machine.execSmbSerialRead pec s
  | .smbFwVersionRead pec => Sys2Proof.Machine.execSmbFwVersionRead pec s
  | .smbClearAlert pec => Sys2Proof.Machine.execSmbClearAlert pec s
  | .smbUnknownCode code => Sys2Proof.Machine.execSmbUnknownCode code s
  | .smbClockLowTimeout => Sys2Proof.Machine.execSmbClockLowTimeout s
  | .extest resetLow => Sys2Proof.Machine.execExtest resetLow s
  | .samplePreload sampled shifted => Sys2Proof.Machine.execSamplePreload sampled shifted s
  | .idcode => Sys2Proof.Machine.execIdcode s
  | .clamp resetLow => Sys2Proof.Machine.execClamp resetLow s
  | .highz resetLow => Sys2Proof.Machine.execHighz resetLow s
  | .extestPulse resetLow => Sys2Proof.Machine.execExtestPulse resetLow s
  | .extestTrain resetLow => Sys2Proof.Machine.execExtestTrain resetLow s
  | .bypass => Sys2Proof.Machine.execBypass s
  | .privateTapInstruction code => Sys2Proof.Machine.execPrivateTapInstruction code s
  | .tapReset => Sys2Proof.Machine.execTapReset s
  | .sqTailWrite q v => Sys2Proof.Machine.execSqTailWrite q v s
  | .sqCtrlWrite q v => Sys2Proof.Machine.execSqCtrlWrite q v s
  | .cqCtrlWrite n half v => Sys2Proof.Machine.execCqCtrlWrite n half v s
  | .cqHeadWrite n v => Sys2Proof.Machine.execCqHeadWrite n v s
  | .commandTake q packet => Sys2Proof.Machine.execCommandTake q packet s
  | .cqRecordWrite q ok => Sys2Proof.Machine.execCqRecordWrite q ok s
  | .cqSignalTimer n => Sys2Proof.Machine.execCqSignalTimer n s
  | .remoteCommand => Sys2Proof.Machine.execRemoteCommand s
  | .nopCmd id => Sys2Proof.Machine.execNopCmd id s
  | .identify id => Sys2Proof.Machine.execIdentify id s
  | .readReg id => Sys2Proof.Machine.execReadReg id s
  | .writeReg id now x => Sys2Proof.Machine.execWriteReg id now x s
  | .readCounters id now ok => Sys2Proof.Machine.execReadCounters id now ok s
  | .startContext id now => Sys2Proof.Machine.execStartContext id now s
  | .stopContext id => Sys2Proof.Machine.execStopContext id s
  | .setTickPeriod id now => Sys2Proof.Machine.execSetTickPeriod id now s
  | .step id => Sys2Proof.Machine.execStep id s
  | .snapshot id ok => Sys2Proof.Machine.execSnapshot id ok s
  | .restore id data => Sys2Proof.Machine.execRestore id data s
  | .injectEvents id data => Sys2Proof.Machine.execInjectEvents id data s
  | .attachOutput id => Sys2Proof.Machine.execAttachOutput id s
  | .retireUnit id spare moves => Sys2Proof.Machine.execRetireUnit id spare moves s
  | .reinstateUnit id => Sys2Proof.Machine.execReinstateUnit id s
  | .learnConfig id data => Sys2Proof.Machine.execLearnConfig id data s
  | .epochControl id => Sys2Proof.Machine.execEpochControl id s
  | .powerState id wake => Sys2Proof.Machine.execPowerState id wake s
  | .fwStage id data => Sys2Proof.Machine.execFwStage id data s
  | .fwActivate id x => Sys2Proof.Machine.execFwActivate id x s
  | .licenceInstall id data => Sys2Proof.Machine.execLicenceInstall id data s
  | .attest id ok => Sys2Proof.Machine.execAttest id ok s
  | .calRead id ok => Sys2Proof.Machine.execCalRead id ok s
  | .calWrite id data => Sys2Proof.Machine.execCalWrite id data s
  | .recorderRead id ok => Sys2Proof.Machine.execRecorderRead id ok s
  | .recorderClear id => Sys2Proof.Machine.execRecorderClear id s
  | .mqSend id data => Sys2Proof.Machine.execMqSend id data s
  | .firmwareSend a hdr payload => Sys2Proof.Machine.execFirmwareSend a hdr payload s
  | .messageArrive loc bad => Sys2Proof.Machine.execMessageArrive loc bad s
  | .stagedMessageWrite a k => Sys2Proof.Machine.execStagedMessageWrite a k s
  | .stallTimeout a k => Sys2Proof.Machine.execStallTimeout a k s
  | .mqDataRead who a q bad => Sys2Proof.Machine.execMqDataRead who a q bad s
  | .mqCfgWrite who a q v => Sys2Proof.Machine.execMqCfgWrite who a q v s
  | .engineWatchdog t e moves => Sys2Proof.Machine.execEngineWatchdog t e moves s
  | .tcWatchdog t => Sys2Proof.Machine.execTcWatchdog t s
  | .rmWatchdog => Sys2Proof.Machine.execRmWatchdog s
  | .lpddrReadTimeout addr row => Sys2Proof.Machine.execLpddrReadTimeout addr row s
  | .engineReset t e => Sys2Proof.Machine.execEngineReset t e s
  | .engineResetEnd t e => Sys2Proof.Machine.execEngineResetEnd t e s
  | .tileReset t => Sys2Proof.Machine.execTileReset t s
  | .ringmasterRestartEnd outcome => Sys2Proof.Machine.execRingmasterRestartEnd outcome s
  | .contextResetWindowEnd c => Sys2Proof.Machine.execContextResetWindowEnd c s
  | .scrubComplete c => Sys2Proof.Machine.execScrubComplete c s
  | .unitTestComplete type index pass => Sys2Proof.Machine.execUnitTestComplete type index pass s
  | .roustaboutRegionTest r rows spare => Sys2Proof.Machine.execRoustaboutRegionTest r rows spare s
  | .runningOrderRewrite t e w => Sys2Proof.Machine.execRunningOrderRewrite t e w s
  | .pageCopyDone page => Sys2Proof.Machine.execPageCopyDone page s
  | .secCtxCnfWrite c v => Sys2Proof.Machine.execSecCtxCnfWrite c v s
  | .secDbgLock v => Sys2Proof.Machine.execSecDbgLock v s
  | .debugRawAccess addr n data => Sys2Proof.Machine.execDebugRawAccess addr n data s
  | .debugHalt tile => Sys2Proof.Machine.execDebugHalt tile s
  | .powerOnReset => Sys2Proof.Machine.execPowerOnReset s
  | .coldReset x => Sys2Proof.Machine.execColdReset x s
  | .warmReset x => Sys2Proof.Machine.execWarmReset x s
  | .netBootServe image => Sys2Proof.Machine.execNetBootServe image s
  | .netBootTimeout => Sys2Proof.Machine.execNetBootTimeout s
  | .netBootSlotWrite => Sys2Proof.Machine.execNetBootSlotWrite s
  | .portWaitEnd silent waited ms x => Sys2Proof.Machine.execPortWaitEnd silent waited ms x s
  | .keepFRegisterWrite topo v => Sys2Proof.Machine.execKeepFRegisterWrite topo v s
  | .referenceClockLoss k => Sys2Proof.Machine.execReferenceClockLoss k s
  | .sysclkRecovery x => Sys2Proof.Machine.execSysclkRecovery x s
  | .tileClockGate t => Sys2Proof.Machine.execTileClockGate t s
  | .wakeEvent w x => Sys2Proof.Machine.execWakeEvent w x s
  | .padRelease v => Sys2Proof.Machine.execPadRelease v s
  | .thermalSensorRead raw power rails => Sys2Proof.Machine.execThermalSensorRead raw power rails s
  | .thermalTripRelease x => Sys2Proof.Machine.execThermalTripRelease x s
  | .thermAlertClear => Sys2Proof.Machine.execThermAlertClear s
  | .pkgPowerRead => Sys2Proof.Machine.execPkgPowerRead s
  | .timerStep x => Sys2Proof.Machine.execTimerStep x s
  | .tmrPeriodWrite n v => Sys2Proof.Machine.execTmrPeriodWrite n v s
  | .tmrCountWrite n v => Sys2Proof.Machine.execTmrCountWrite n v s
  | .tmrCmpWrite n v => Sys2Proof.Machine.execTmrCmpWrite n v s
  | .tmrCmpRelWrite n v => Sys2Proof.Machine.execTmrCmpRelWrite n v s
  | .tmrSyncWrite v => Sys2Proof.Machine.execTmrSyncWrite v s
  | .tmrStaggerWrite v => Sys2Proof.Machine.execTmrStaggerWrite v s
  | .headcountFreeze now => Sys2Proof.Machine.execHeadcountFreeze now s
  | .hcNowWrite v now => Sys2Proof.Machine.execHcNowWrite v now s
  | .headcountDumpComplete ok => Sys2Proof.Machine.execHeadcountDumpComplete ok s
  | .hcChainWrite v => Sys2Proof.Machine.execHcChainWrite v s
  | .barkerProgram => Sys2Proof.Machine.execBarkerProgram s
  | .optimeAdvance => Sys2Proof.Machine.execOptimeAdvance s
  | .optimeSave => Sys2Proof.Machine.execOptimeSave s
  | .mirrorPacketSend place h => Sys2Proof.Machine.execMirrorPacketSend place h s
  | .homSessWrite h half v => Sys2Proof.Machine.execHomSessWrite h half v s
  | .memCtxWrite c half v => Sys2Proof.Machine.execMemCtxWrite c half v s
  | .memRetWrite v => Sys2Proof.Machine.execMemRetWrite v s
  | .apertureAccess who off n data found poisoned => Sys2Proof.Machine.execApertureAccess who off n data found poisoned s
  | .flashWrite off bytes => Sys2Proof.Machine.execFlashWrite off bytes s
  | .flashErase v => Sys2Proof.Machine.execFlashErase v s
  | .flashBusyEnd => Sys2Proof.Machine.execFlashBusyEnd s
  | .pwrGoodRise sel x => Sys2Proof.Machine.execPwrGoodRise sel x s
  | .powerLoss => Sys2Proof.Machine.execPowerLoss s
  | .referenceClockReturn k => Sys2Proof.Machine.execReferenceClockReturn k s
  | .pcieLinkDown => Sys2Proof.Machine.execPcieLinkDown s
  | .pcieLinkUp vfs busMaster d3hot msix masked => Sys2Proof.Machine.execPcieLinkUp vfs busMaster d3hot msix masked s
  | .tileControllerRestartEnd t => Sys2Proof.Machine.execTileControllerRestartEnd t s
  | .debugHaltRelease tile => Sys2Proof.Machine.execDebugHaltRelease tile s
  | .slotTableRewrite t ver p sl => Sys2Proof.Machine.execSlotTableRewrite t ver p sl s

end Sys2Proof.Machine
end

