-- ==== Sys2Proof/Safety.lean ====
section
/-! DEFINITION. The terms in which claims about the machine are stated: a command that completes, what it keeps, what a host command's
record says, a micro-op that the sequencer issues, and the invariants. -/

namespace Sys2Proof.Machine

/-! ## Completion and frames -/

/-- A command completes: it answers a next state whose device meets `P`, with the fuse record and the waiting commands as they were. -/
def Completes (i : Instr) (s : State) (P : Dev → Prop) : Prop :=
  ∃ t, exec i s = .next t ∧ t.fuses = s.fuses ∧ t.pending = s.pending ∧ P t.dev

/-- Every byte of the device physical map reads as before. -/
def KeepsMemory (d d' : Dev) : Prop := ∀ a, d'.ldB a = d.ldB a

/-- Every byte outside `n` bytes at `a` reads as before. -/
def KeepsMemoryBut (a n : Nat) (d d' : Dev) : Prop := ∀ j, j < a ∨ a + n ≤ j → d'.ldB j = d.ldB j

/-- Every register holds what it held. -/
def KeepsRegs (d d' : Dev) : Prop := ∀ (r : Reg) (i : Nat), d'.rd r i = d.rd r i

/-- Every register but those with the listed keys holds what it held. -/
def KeepsRegsBut (keys : List Nat) (d d' : Dev) : Prop := ∀ (r : Reg) (i : Nat), r.key i ∉ keys → d'.rd r i = d.rd r i

/-- A counter has gone up by `n`, wrapping at 48 bits (R512). -/
def Counted (r : Reg) (i n : Nat) (d d' : Dev) : Prop := (d'.rd r i).toNat = ((d.rd r i).toNat % 2 ^ 48 + n) % 2 ^ 48

/-- Every generator but that of context `c` is as it was. -/
def KeepsGensBut (c : Nat) (d d' : Dev) : Prop := ∀ k, k ≠ c → d'.gen k = d.gen k

/-! ## Host commands -/

/-- A command that the Box Office holds. -/
def Dev.cmdOf (d : Dev) (id : Nat) : Option Cmd := d.cmds.find? (fun c => c.id == id)

/-- STATUS, DETAIL and RESULT of a command that has ended. -/
def Dev.recordOf (d : Dev) (id : Nat) : Option (Nat × Nat × List Byte) :=
  match d.cmdOf id with
  | some c => if c.stage = 2 then some (c.status, c.detail, c.result) else none
  | none => none

/-- What a command that runs waits for. -/
def Dev.waitOf (d : Dev) (id : Nat) : Option CmdWait := (d.cmdOf id).map (fun c => c.wait)

/-- A taken command of an opcode may start (R377 to R381). -/
def Ready (d : Dev) (id op : Nat) (x : Cmd) : Prop := d.cmdOf id = some x ∧ x.opcode = op ∧ d.mayRun x = true

/-- A taken context command may act on its context: CONTEXT is in range and a physical-function command is not shut out (R375,
R440). -/
def ReadyCtx (d : Dev) (id op : Nat) (x : Cmd) : Prop :=
  Ready d id op x ∧ x.ctx ≤ 7 ∧ (x.priv = true → d.confidential x.ctx = false)

/-- A host command completes with its record: STATUS, DETAIL and RESULT of command `id` are settled, no other taken command
changes, and the device meets `P`. -/
def Records (i : Instr) (id : Nat) (s : State) (status detail : Nat) (result : List Byte) (P : Dev → Prop) : Prop :=
  Completes i s (fun d => d.recordOf id = some (status, detail, result) ∧ (∀ k, k ≠ id → d.cmdOf k = s.dev.cmdOf k) ∧ P d)

/-- The host's memory supplies `bs` for a command's read of `n` bytes at its ADDR, held at parameter byte `pos` (R348, R382). -/
def Supplies (d : Dev) (x : Cmd) (pos n : Nat) (data : Option (List Byte)) (bs : List Byte) : Prop :=
  x.remote = none ∧ d.dmaOk x.fn = true ∧ x.p pos 8 % 8 = 0 ∧ data = some bs ∧ bs.length = n

/-- A plan's engine parts name indices that the die has. -/
def PlanInRange (p : Plan) : Prop :=
  (∀ x ∈ p.projs, x.1 < 32 ∧ x.2.1 < 9 ∧ x.2.2.1 < 32) ∧ (∀ x ∈ p.decays, x.1 < 32 ∧ x.2.1 < 9 ∧ x.2.2.1 < 16)
  ∧ (∀ x ∈ p.bounds, x.1 < 32 ∧ x.2.1 < 9 ∧ x.2.2.1 < 4) ∧ (∀ x ∈ p.homes, x.1 < 32 ∧ x.2.1 < 9)
  ∧ (∀ x ∈ p.plastic, x.1 < 32 ∧ x.2.1 < 9)

/-- The schedule that waits for a context's flip, if one does, names policers that the tiles have. -/
def PolsInRange (d : Dev) (c : Nat) : Prop :=
  ∀ f ∈ (d.newFlows.lookup c).getD [], ∀ y ∈ f.pols, y.1 < 32 ∧ y.2 < 16

/-- The device is not in Nap. -/
def Awake (d : Dev) : Prop := d.fld PWR_STATUS 0 PWR_STATUS_STATE ≠ 2

/-! ## Micro-ops -/

/-- The sequencer of an engine has a micro-op as the next word of the line that it runs (R63, R75, R82). -/
def Issues (d : Dev) (t e : Nat) (op : MicroOp) (ln : Line) : Prop :=
  (d.eng t e).line = some ln ∧ ln.held = 0 ∧ microDecode (d.lineWord t e ln) = some op ∧ ln.word < 63

/-- The line that an engine runs is `ln` one word on, with lane `l` of it as `f` gives (R69, R73). -/
def LaneStep (d' : Dev) (t e : Nat) (ln : Line) (f : Nat → Lane → Lane) : Prop :=
  ∃ ln', (d'.eng t e).line = some ln' ∧ ln'.word = ln.word + 1 ∧ ln'.job = ln.job ∧
    ∀ l x, ln.lanes[l]? = some x → ln'.lanes[l]? = some (f l x)

/-- A micro-op that computes a lane register and nothing else: in each enabled lane of the mask it does `f`, other lanes, memory and
registers stay (R60, R69, R71). -/
def LaneOp (t : Tile) (e : Eng) (i : Instr) (op : MicroOp) (pred : Fin 4) (f : Lane → Lane) : Prop :=
  ∀ s ln, Issues s.dev t e op ln → Completes i s (fun d =>
    LaneStep d t e ln (fun l x => if ln.acts pred l then f x else x) ∧ KeepsMemory s.dev d ∧ KeepsRegs s.dev d)

/-- A lane of a sweep has a learning op as its next word (R178, R182). -/
def Learns (d : Dev) (t lane : Nat) (op : LrnOp) (sw : Sweep) (a : Nat) (ls : List LrnLane) (l : LrnLane) : Prop :=
  (d.tum t).sweep = some sw ∧ sw.word = some (a, ls) ∧ ls[lane]? = some l ∧ l.done = false
  ∧ lrnDecode (d.ld (ruleAddr t sw.ctx l.rule l.pc) 4) = some op

/-- The lane of the word in a tile's sweep. -/
def Dev.lrnLane (d : Dev) (t lane : Nat) : Option LrnLane :=
  match (d.tum t).sweep with
  | none => none
  | some sw => match sw.word with
    | none => none
    | some w => w.2[lane]?

/-- PRED of a learning op. -/
def lrnPred : LrnOp → Nat
  | .add _ _ _ _ p | .sub _ _ _ _ p | .mul _ _ _ _ p | .min _ _ _ _ p | .max _ _ _ _ p | .sel _ _ _ _ p => p
  | .mulk _ _ _ p | .shr _ _ _ p | .srnd _ _ _ p | .mov _ _ _ p | .cmpge _ _ _ p | .cmplt _ _ _ p => p
  | .fin p => p

/-- A learning op that computes a register: in the lane, when PRED enables it, `v` goes to the destination (R179, R180). -/
def LearnOp (t : Tile) (lane : Fin 16) (i : Instr) (op : LrnOp) (pred : Fin 8) (dst : Fin 4) (v : LrnLane → Int) : Prop :=
  ∀ s sw a ls l, Learns s.dev t lane op sw a ls l → Completes i s (fun d =>
    d.lrnLane t lane = some { (if l.enabled pred then l.put dst (v l) else l) with pc := l.pc + 1 }
    ∧ KeepsMemory s.dev d ∧ KeepsRegs s.dev d)

/-! ## Invariants -/

/-- The device physical memory has its canonical form. -/
def State.memoryCanonical (s : State) : Prop := Memory.wf s.dev.mem = true

end Sys2Proof.Machine
end

