-- ==== Sys2Proof/Certificates/Slice0/Obligations.lean ====
section
/-! DEFINITION. The statements for the provers. -/

open Sys2Proof Sys2Proof.Machine

/-! ## The neuron pipeline (chapter 2) -/

/-- R60, R67 to R69, R71: the micro-ops that compute one register of each lane. -/
def Obligations.LaneMicroOpsCompute : Prop :=
  ∀ (t : Tile) (e : Eng) (dst : Fin 4) (a b : Fin 8) (k : S24) (pred : Fin 4),
    LaneOp t e (.add t e dst a b k pred) (.add dst a b k pred) pred (fun l => l.put dst (sat24 (l.src k a + l.src k b)))
    ∧ LaneOp t e (.sub t e dst a b k pred) (.sub dst a b k pred) pred (fun l => l.put dst (sat24 (l.src k a - l.src k b)))
    ∧ LaneOp t e (.mulk t e dst a k pred) (.mulk dst a k pred) pred
        (fun l => l.put dst (sat24 (rha (l.src k a * k.toInt) 65536)))
    ∧ LaneOp t e (.shr t e dst a k pred) (.shr dst a k pred) pred
        (fun l => l.put dst (sat24 (l.src k a / ((2 ^ (k.toNat % 32) : Nat) : Int))))
    ∧ LaneOp t e (.sel t e dst a b k pred) (.sel dst a b k pred) pred
        (fun l => l.put dst (sat24 (if l.p then l.src k a else l.src k b)))
    ∧ LaneOp t e (.clr t e dst k pred) (.clr dst k pred) pred (fun l => l.put dst k)
    ∧ LaneOp t e (.st t e dst pred) (.st dst pred) pred (fun l => l.putSt dst (l.reg dst))
    ∧ LaneOp t e (.cmpge t e a b k pred) (.cmpge a b k pred) 0
        (fun l => { l with p := l.enabled pred && decide (l.src k a ≥ l.src k b) })
    ∧ LaneOp t e (.cmplt t e a b k pred) (.cmplt a b k pred) 0
        (fun l => { l with p := l.enabled pred && decide (l.src k a < l.src k b) })

/-- R71, R72, R74, R75, R77, R79: the micro-ops that read the record, the slot, a decay table, a generator or the refractory count. -/
def Obligations.StateMicroOpsRead : Prop :=
  ∀ (t : Tile) (e : Eng) (dst : Fin 4) (a : Fin 8) (k : S24) (pred : Fin 4) (s : State) (ln : Line),
    (∀ sbe, Issues s.dev t e (.ld dst pred) ln → Completes (.ld t e dst pred sbe 0) s (fun d =>
      LaneStep d t e ln (fun l x => if ln.acts pred l then x.put dst ((x.stored dst).getD
        (BitVec.ofNat 24 (s.dev.ld (recAddr t e (ln.job.line * 32 + l) + varOff dst) 3))) else x)
      ∧ KeepsMemory s.dev d ∧ (sbe = 0 → KeepsRegs s.dev d)))
    ∧ (∀ c n hold, Issues s.dev t e (.slot pred) ln → (s.dev.eng t e).phase = some (c, n) →
        (∀ l < 32, s.dev.slotAliased t e (s.dev.pop t e ln.job.pop) (ln.job.line * 32 + l) n = false) →
        Completes (.slot t e pred 0 hold) s (fun d =>
          LaneStep d t e ln (fun l x => if ln.acts pred l then
            { x with t := slotVal (s.dev.slot t e (s.dev.pop t e ln.job.pop) (ln.job.line * 32 + l) n)
                            ((s.dev.pop t e ln.job.pop).l NE_POP_LO_SLOT_SHIFT) } else x)
          ∧ KeepsRegsBut [NE_NPCNT.key (engIx t e * 12 + 3)] s.dev d))
    ∧ (Issues s.dev t e (.decay dst a k pred) ln → Completes (.decay t e dst a k pred) s (fun d =>
        let p := s.dev.pop t e ln.job.pop
        let tab := p.dtab k.toNat
        LaneStep d t e ln (fun l x => if ln.acts pred l then
          x.put dst (decayVal (x.src k a) (sgn 24 (s.dev.fld NE_DECAY_REST (engIx t e * 16 + tab) NE_DECAY_REST_REST))
            (s.dev.decayFactor t e tab) x.dt.toNat (p.l NE_POP_LO_EXACT_LONG != 0)) else x)
        ∧ KeepsMemory s.dev d))
    ∧ (Issues s.dev t e (.noise dst a k pred) ln → Completes (.noise t e dst a k pred) s (fun d =>
        LaneStep d t e ln (fun l x => if ln.acts pred l then
          x.put dst (noiseVal (x.src k a) ((s.dev.eng t e).noise.getD l 0) k.toNat) else x)
        ∧ (∀ (l : Nat) (w : W32), (s.dev.eng t e).noise[l]? = some w →
            (d.eng t e).noise[l]? = some (if ln.acts pred l then lfsrStep 0x80200003 w else w))
        ∧ KeepsMemory s.dev d ∧ KeepsRegs s.dev d))
    ∧ (Issues s.dev t e (.refr k pred) ln → Completes (.refr t e k pred) s (fun d =>
        LaneStep d t e ln (fun l x => if ln.acts pred l then
          (if k.getLsbD 23 then
            { x with refr := BitVec.ofNat 8 (x.refr.toNat - x.dt.toNat), q := decide (x.refr.toNat - x.dt.toNat > 0) }
          else { x with refr := BitVec.ofNat 8 k.toNat, q := decide (k.toNat % 256 > 0) }) else x)
        ∧ KeepsRegs s.dev d))

/-- R37, R81, R82: emission of a binary spike. -/
def Obligations.EmitQueuesTheEvent : Prop :=
  ∀ (t : Tile) (e : Eng) (a : Fin 8) (k : S24) (pred : Fin 4) (l : Fin 32) (s : State) (ln : Line) (c n : Nat),
    let p := s.dev.pop t e ln.job.pop
    let w := evWord 1 n (p.keyBase + (ln.job.line * 32 + l.val - p.base)) 0
    (s.dev.eng t e).phase = some (c, n) → p.l NE_POP_LO_GRADED = 0 → p.express = false →
    (ln.lanes.getD l.val {}).emitted = false → (s.dev.eng t e).emitO.length < 112 → (s.dev.tc t c).epoch n = none →
    (Issues s.dev t e (.emit a k pred) ln → ln.mask pred = 2 ^ l.val →
      Completes (.emit t e a k pred) s (fun d =>
        (d.eng t e).emitO = (s.dev.eng t e).emitO ++ [⟨w, c, false⟩]
        ∧ (∃ ln', (d.eng t e).line = some ln' ∧ ln'.word = ln.word + 1) ∧ KeepsMemory s.dev d))
    ∧ (∀ stall, (s.dev.eng t e).line = some ln → ln.held.toNat = 2 ^ l.val →
        microDecode (s.dev.lineWord t e ln) = some (.emit a k pred) →
      Completes (.emitContinue t e stall) s (fun d =>
        (d.eng t e).emitO = (s.dev.eng t e).emitO ++ [⟨w, c, false⟩]
        ∧ (∃ ln', (d.eng t e).line = some ln' ∧ ln'.word = ln.word + 1 ∧ ln'.held = 0) ∧ KeepsMemory s.dev d))

/-- R58, R63, R71, R75, R142, R146: the bounds of an update phase. -/
def Obligations.PhasesBeginAndEnd : Prop :=
  ∀ (t : Tile) (e : Eng) (pred : Fin 4) (bad : W32) (touchBad : List (Fin 8192)) (idle : Nat) (s : State) (ln : Line) (c n : Nat)
    (q : List (Nat × Nat)),
    ((s.dev.eng t e).resetting = false → (s.dev.eng t e).phase = none → (s.dev.eng t e).startQ = (c, n) :: q →
      Completes (.updatePhaseBegin t e bad touchBad idle) s (fun d => Tab.get 0 (d.eng t e).u c = n ∧ (d.eng t e).startQ = q))
    ∧ ((s.dev.eng t e).line = some ln → (s.dev.eng t e).phase = some (c, n) → ln.held = 0 → (s.dev.eng t e).jobs = [] →
        (microDecode (s.dev.lineWord t e ln) = some (.fin pred) →
          Completes (.endLine t e pred bad) s (fun d => (d.eng t e).line = none ∧ (d.eng t e).phase = none
            ∧ Tab.get 0 (d.eng t e).updDone c = n))
        ∧ (microDecode (s.dev.lineWord t e ln) = none →
          Completes (.runningOrderFault t e false bad) s (fun d => (d.eng t e).line = none ∧ (d.eng t e).phase = none
            ∧ Tab.get 0 (d.eng t e).updDone c = n))
        ∧ Completes (.runningOrderFault t e true bad) s (fun d => (d.eng t e).line = none ∧ (d.eng t e).phase = none
            ∧ Tab.get 0 (d.eng t e).updDone c = n))

/-- R84, R91, R142, R174: single-cycle bookkeeping of the engine. -/
def Obligations.EngineBookkeepingSteps : Prop :=
  ∀ (t : Tile) (e : Eng) (s : State),
    (∀ n, (s.dev.eng t e).writeback = n + 1 → s.dev.chained 12 0 1 = false →
      Completes (.stateWriteback t e) s (fun d => (d.eng t e).writeback = n ∧ Counted NE_NPCNT (engIx t e * 12 + 3) 32 s.dev d
        ∧ KeepsRegsBut [NE_NPCNT.key (engIx t e * 12 + 3)] s.dev d ∧ KeepsMemory s.dev d))
    ∧ (∀ p q, (s.dev.eng t e).postQ = p :: q →
      Completes (.postCountWrite t e) s (fun d => (d.eng t e).postQ = q
        ∧ KeepsMemoryBut (traceAddr t e (8192 + p.neuron)) 1 s.dev d ∧ KeepsRegs s.dev d))
    ∧ (∀ (c : Ctx) (now : Nat), (s.dev.gen c).upd = false → s.dev.updateComplete c (s.dev.tickOf c) = true →
      Completes (.updateComplete c now) s (fun d => (d.gen c).upd = true ∧ (d.gen c).updEdge = now
        ∧ KeepsMemory s.dev d ∧ KeepsRegs s.dev d))

/-- R18, R56, R57: writes of a population descriptor. -/
def Obligations.DescriptorsCommitOrReject : Prop :=
  ∀ (t : Tile) (e : Eng) (n : Fin 64) (v : W64) (s : State),
    let old := s.dev.popCommitted t e n
    let new : Desc := ⟨NE_POP_LO.written (Tab.get old.lo (s.dev.eng t e).popLow n) v (halfCover .whole),
      Tab.get old.hi (s.dev.eng t e).popHeld n⟩
    (descBad new = false → (s.dev.eng t e).phase = none → (s.dev.eng t e).popEff = [] →
      Completes (.descriptorWrite t e n .whole v) s (fun d => d.popCommitted t e n = new ∧ d.pop t e n = new ∧ KeepsMemory s.dev d
        ∧ KeepsRegsBut [NE_POP_LO.key (engIx t e * 64 + n), NE_POP_HI.key (engIx t e * 64 + n)] s.dev d))
    ∧ (descBad new = true →
      Completes (.descriptorWrite t e n .whole v) s (fun d => d.popCommitted t e n = old
        ∧ d.fld NE_STATUS (engIx t e) NE_STATUS_DESC_ERR = 1 ∧ d.fld NE_STATUS (engIx t e) NE_STATUS_DESC_ERR_IDX = n.val
        ∧ KeepsMemory s.dev d ∧ KeepsRegsBut [NE_STATUS.key (engIx t e)] s.dev d))
    ∧ ((s.dev.eng t e).phase = none → Completes (.descriptorTakeEffect t e) s (fun d =>
        (∀ k, d.pop t e k = d.popCommitted t e k) ∧ KeepsMemory s.dev d ∧ KeepsRegs s.dev d))

/-- R72, R111: the seeds of the lane generators. -/
def Obligations.SeedsReachEveryLane : Prop :=
  ∀ (t : Tile) (e : Eng) (v : W32) (s : State),
    Completes (.neNoiseSeedWrite t e v) s (fun d => d.fld NE_NOISE_SEED (engIx t e) NE_NOISE_SEED_SEED = v.toNat
      ∧ (∀ l < 32, (d.eng t e).noise[l]? = some (v.rotateLeft (l % 32) ||| 1)) ∧ KeepsMemory s.dev d
      ∧ KeepsRegsBut [NE_NOISE_SEED.key (engIx t e)] s.dev d)
    ∧ Completes (.neSrSeedWrite t e v) s (fun d => d.fld NE_SR_SEED (engIx t e) NE_SR_SEED_SEED = v.toNat
      ∧ (∀ l < 32, (d.eng t e).sr[l]? = some ((v.rotateLeft (l % 32)).setWidth 16 ||| 1)) ∧ KeepsMemory s.dev d
      ∧ KeepsRegsBut [NE_SR_SEED.key (engIx t e)] s.dev d)

/-- R18, R88, R93: the debug record registers and the running-order aperture. -/
def Obligations.DebugRecordAndRunningOrderWrites : Prop :=
  ∀ (t : Tile) (e : Eng) (w : Fin 512) (v : W64) (s : State),
    let nrn := s.dev.fld NE_DBG_IDX (engIx t e) NE_DBG_IDX_NEURON
    let word := s.dev.fld NE_RO_BASE (engIx t e) NE_RO_BASE_PAGE * 512 + w
    (s.dev.neuronClosed t e nrn = false → (s.dev.eng t e).line = none →
      Completes (.neDbgRecLoRead t e) s (fun d =>
        d.rd NE_DBG_REC_LO (engIx t e) = BitVec.ofNat 64 (s.dev.ld (recAddr t e nrn) 8)
        ∧ (d.eng t e).dbgCap = some (BitVec.ofNat 64 (s.dev.ld (recAddr t e nrn + 8) 8))
        ∧ KeepsRegsBut [NE_DBG_REC_LO.key (engIx t e)] s.dev d ∧ KeepsMemory s.dev d))
    ∧ (s.dev.neuronClosed t e nrn = false → (s.dev.eng t e).line.isSome = true →
      Completes (.neDbgRecLoRead t e) s (fun d => (d.eng t e).dbgWant = true ∧ (d.eng t e).dbgCap = (s.dev.eng t e).dbgCap
        ∧ KeepsRegs s.dev d ∧ KeepsMemory s.dev d))
    ∧ (s.dev.neuronClosed t e nrn = false → Completes (.neDbgRecHiWrite t e .whole v) s (fun d =>
        (d.eng t e).dbgHeld = v ∧ KeepsRegs s.dev d ∧ KeepsMemory s.dev d))
    ∧ (s.dev.neuronClosed t e nrn = true → Completes (.neDbgRecHiWrite t e .whole v) s (fun d =>
        (d.eng t e).dbgHeld = (s.dev.eng t e).dbgHeld ∧ KeepsMemory s.dev d))
    ∧ (s.dev.neuronClosed t e nrn = false → (s.dev.eng t e).line = none → (s.dev.eng t e).dbgDue = [] → (s.dev.eng t e).roDue = [] →
        (s.dev.eng t e).dbgWant = false →
        (∀ k < 16, memMaps (recAddr t e nrn + k) = true) →
      Completes (.neDbgRecLoWrite t e .whole v) s (fun d =>
        d.ld (recAddr t e nrn) 8 = v.toNat ∧ d.ld (recAddr t e nrn + 8) 8 = (s.dev.eng t e).dbgHeld.toNat
        ∧ KeepsMemoryBut (recAddr t e nrn) 16 s.dev d ∧ KeepsRegsBut [NE_DBG_REC_LO.key (engIx t e)] s.dev d))
    ∧ ((s.dev.eng t e).line = none → (s.dev.eng t e).dbgDue = [] → (s.dev.eng t e).roDue = [] →
        (s.dev.eng t e).dbgWant = false →
        (∀ k < 8, memMaps (engBase t e + 0x2F8000 + word * 8 + k) = true) →
      Completes (.runningOrderWrite t e w .whole v) s (fun d => d.roWord t e word = v.toNat
        ∧ KeepsMemoryBut (engBase t e + 0x2F8000 + word * 8) 8 s.dev d ∧ KeepsRegs s.dev d))

/-! ## The synapse pipeline (chapter 3) -/

/-- R116, R120, R128, R130: what the synapse pipeline does with events, gather states, spilled rows and refetches. -/
def Obligations.SynapsePipelineAndRegistersAct : Prop :=
  ∀ (t : Tile) (e : Eng) (s : State),
    (∀ (ev : Delivered) (express : Bool) (bad : Option Nat) (slotBad : List (Fin 65536)) (touchBad : List (Fin 8192))
        (stall : SynStall),
        let g := s.dev.eng t e
        let left := if express then { g with qX := g.qX.tail } else { g with qO := g.qO.tail }
        let d := (s.dev.bump NE_SPCNT (engIx t e * 20 + 19) 0).countStall t e stall
        stall.dry = false →
        g.refetch = none → g.resetting = false → g.nextTake = .event ev express → s.dev.eventRoom t e ev = true →
      exec (.eventTake t e bad [] slotBad touchBad stall) s =
        .next { s with dev := ((d.setEng t e left).repairCells t e ev.ctx slotBad touchBad).takeEvent t e ev express bad })
    ∧ (∀ ev q corrected stall, (s.dev.eng t e).refetch = none → (s.dev.eng t e).resetting = false → (s.dev.eng t e).qX = [] →
        (s.dev.eng t e).parked = [] → (s.dev.eng t e).qO = ev :: q → s.dev.lookupRows t e (evKey ev.word) ev.ctx = [] →
        s.dev.eventRoom t e ev = true →
      Completes (.eventTake t e none corrected [] [] stall) s (fun d => (d.eng t e).qO = q ∧ KeepsMemory s.dev d))
    ∧ (∀ h, (s.dev.eng t e).gather = some h → (s.dev.eng t e).refetch = none →
      Completes (.gatherFlushAge t e none) s (fun d => (d.eng t e).gather = none))
    ∧ (∀ h, (s.dev.eng t e).gather = some h → (s.dev.eng t e).refetch = none → (s.dev.eng t e).qX = [] → (s.dev.eng t e).qO = [] →
        (s.dev.eng t e).parked = [] →
      Completes (.gatherFlushIdle t e none) s (fun d => (d.eng t e).gather = none))
    ∧ (∀ k r bad, (s.dev.eng t e).parked[k]? = some r → r.issued = true → r.landed = none → (s.dev.eng t e).refetch = none →
        (s.dev.eng t e).qX ≠ [] → (∀ g ∈ s.dev.engs, ∀ x ∈ g.2.parked, x.issued = true) →
        let a := (s.dev.spillPart (rdCtx r.job.desc)).1 + rdAddr r.job.desc * 64
        let n := rowWords (rdFmt r.job.desc) (rdLen r.job.desc)
        let bad' := (bad.map (fun w => a + 64 * w)).or (s.dev.poisoned a n)
      Completes (.spillRowLand t e k bad) s (fun d =>
        (d.eng t e).parked[k]? = some { r with landed := some (s.dev.ldBytes a (64 * n)), bad := bad' }
        ∧ KeepsMemory s.dev d ∧ KeepsRegs s.dev d))
    ∧ (∀ r bad, (s.dev.eng t e).refetch = some r → r.landed = none → r.rows = some [] → r.flush = false →
        r.alone = false → (s.dev.eng t e).projDue = [] → (s.dev.poisoned (s.dev.goodCopy t e r) 1) = none →
        (∀ k < 64, memMaps (r.unit + k) = true) →
      Completes (.refetchReturn t e true bad) s (fun d => (d.eng t e).refetch = none
        ∧ d.ldBytes r.unit 64 = s.dev.ldBytes (s.dev.goodCopy t e r) 64 ∧ KeepsMemoryBut r.unit 64 s.dev d))
    ∧ (∀ (p : Fin 32) (half : Half) (v : W64), (s.dev.eng t e).gather = none → (s.dev.eng t e).refetch = none →
        (s.dev.eng t e).projDue = [] →
      Completes (.neProjWrite t e p half v) s (fun d =>
        d.rd NE_PROJ (engIx t e * 32 + p) = NE_PROJ.written (s.dev.rd NE_PROJ (engIx t e * 32 + p)) v (halfCover half)
        ∧ KeepsRegsBut [NE_PROJ.key (engIx t e * 32 + p)] s.dev d ∧ KeepsMemory s.dev d))
    ∧ (∀ v : W32, (s.dev.eng t e).parked = [] →
      let w := NE_SYN_CTRL_SPILL_MAX.get (v.setWidth 64)
      Completes (.spillMaxWrite t e v) s (fun d =>
        d.fld NE_SYN_CTRL (engIx t e) NE_SYN_CTRL_SPILL_MAX = s.dev.spillFit t e (min 8 w)
        ∧ (s.dev.spillFit t e (min 8 w) < w → d.fld NE_STATUS (engIx t e) NE_STATUS_SPILL_CLIP = 1)
        ∧ KeepsRegsBut [NE_SYN_CTRL.key (engIx t e), NE_STATUS.key (engIx t e)] s.dev d ∧ KeepsMemory s.dev d))

/-! ## Calliope (chapter 4) -/

/-- R145, R146, R148, R151, R153, R158, R383: due ticks and their start. -/
def Obligations.TicksBecomeDueAndStart : Prop :=
  ∀ (c : Ctx) (now : Nat) (s : State),
    let g := s.dev.gen c
    (g.period ≠ 0 → g.due = none → g.edge + (g.period - g.count) ≤ now →
      Completes (.tickDue c now) s (fun d => (d.gen c).due = some (g.edge + (g.period - g.count)) ∧ (d.gen c).count = 0
        ∧ (d.gen c).stepped = false ∧ (d.gen c).heldUpd = !g.upd ∧ (d.gen c).markHeld = !s.dev.markersIn c (s.dev.tickOf c)
        ∧ d.fld CLP_STATUS c CLP_STATUS_PENDING = 1
        ∧ KeepsGensBut c s.dev d ∧ KeepsRegsBut [CLP_STATUS.key c] s.dev d ∧ KeepsMemory s.dev d))
    ∧ (g.stepRemain ≠ 0 → g.due = none → g.upd = true → g.updEdge < now →
      Completes (.steppedTickDue c now) s (fun d => (d.gen c).due = some now ∧ (d.gen c).stepped = true
        ∧ KeepsGensBut c s.dev d ∧ KeepsRegsBut [CLP_STATUS.key c] s.dev d ∧ KeepsMemory s.dev d))
    ∧ (∀ e, g.due = some e → g.policy = 0 → g.upd = true → g.fallback = false →
        (g.drained = false ∨ s.dev.tokensIn c (s.dev.tickOf c) = false) → s.dev.interAfter c (s.dev.tickOf c) = false →
        s.dev.fld CLP_MAXSTRETCH c CLP_MAXSTRETCH_MAXSTRETCH ≠ 0xFFFFFFFF →
        e + s.dev.fld CLP_MAXSTRETCH c CLP_MAXSTRETCH_MAXSTRETCH ≤ now →
      Completes (.stretchFallback c now) s (fun d => d.gen c = { g with fallback := true, fellAt := e + s.dev.fld CLP_MAXSTRETCH c CLP_MAXSTRETCH_MAXSTRETCH }
        ∧ Counted CLP_CNT (c * 10 + 4) 1 s.dev d ∧ KeepsGensBut c s.dev d
        ∧ KeepsRegsBut [CLP_STATUS.key c, CLP_CNT.key (c * 10 + 4)] s.dev d ∧ KeepsMemory s.dev d))
    ∧ (s.dev.startsAt c now = true → Completes (.tickStart c now) s (fun d =>
      d.tickOf c = (s.dev.tickOf c + 1) % 2 ^ 48 ∧ (d.gen c).due = none ∧ (d.gen c).upd = false ∧ (d.gen c).drained = false
      ∧ (d.gen c).policy = s.dev.fld CLP_CTRL c CLP_CTRL_POLICY ∧ (d.gen c).edge = now ∧ (d.gen c).period = (s.dev.gen c).period
      ∧ Counted CLP_CNT (c * 10) 1 s.dev d ∧ ((∀ k : Tile, (s.dev.tum k).ruleDue = []) → KeepsMemory s.dev d)))

/-- R154 to R158: the generator registers. -/
def Obligations.GeneratorRegistersAct : Prop :=
  ∀ (c : Ctx) (v : W32) (now : Nat) (s : State),
    let g := s.dev.gen c
    Completes (.clpPeriodWrite c v now) s (fun d => d.fld CLP_PERIOD c CLP_PERIOD_PERIOD = v.toNat
      ∧ d.gen c = { g with periodDue := g.periodDue ++ [(now + 4, v.toNat)] } ∧ KeepsGensBut c s.dev d
      ∧ KeepsRegsBut [CLP_PERIOD.key c] s.dev d ∧ KeepsMemory s.dev d)
    ∧ (∀ e p r, g.periodDue = (e, p) :: r → e ≤ now → (∀ x ∈ s.dev.cmds, x.wait ≠ .edge c e) →
      Completes (.clpPeriodEffect c now) s (fun d =>
        (d.gen c).period = (if 1 ≤ p ∧ p < 200 then 200 else p) ∧ (d.gen c).periodDue = r
        ∧ (1 ≤ p → p < 200 → d.fld CLP_STATUS c CLP_STATUS_PERIOD_CLAMP = 1)
        ∧ KeepsGensBut c s.dev d ∧ KeepsRegsBut [CLP_STATUS.key c] s.dev d ∧ KeepsMemory s.dev d))
    ∧ Completes (.clpSyncWrite v now) s (fun d =>
        (∀ k : Ctx, (d.gen k).loadDue = (s.dev.gen k).loadDue ++ (if v.getLsbD k then [now + 4] else []))
        ∧ KeepsRegs s.dev d ∧ KeepsMemory s.dev d)
    ∧ (∀ e r, g.loadDue = e :: r → e ≤ now → g.period ≠ 0 → g.due = none →
      Completes (.clpSyncLoad now) s (fun d =>
        d.gen c = { g with loadDue := r, edge := e,
                           count := (g.period - s.dev.fld CLP_PHASE c CLP_PHASE_PHASE % g.period) % g.period }
        ∧ KeepsRegs s.dev d ∧ KeepsMemory s.dev d))
    ∧ (∀ p, v.getLsbD 8 = true → v.getLsbD c = true → p ≠ 0 → p < 2 ^ 32 →
        (∀ k : Ctx, v.getLsbD k = true → (s.dev.gen k).period = p) →
      Completes (.clpStaggerWrite v now) s (fun d =>
        (∀ k : Ctx, v.getLsbD k = true → d.fld CLP_PHASE k CLP_PHASE_PHASE
          = popc k.val v.toNat * p / popc 8 v.toNat)
        ∧ (∀ k : Ctx, v.getLsbD k = false → d.fld CLP_PHASE k CLP_PHASE_PHASE = s.dev.fld CLP_PHASE k CLP_PHASE_PHASE)
        ∧ (d.gen c).loadDue = g.loadDue ++ [now + 4] ∧ KeepsMemory s.dev d))
    ∧ (s.dev.fld CLP_PERIOD c CLP_PERIOD_PERIOD = 0 → Completes (.clpStepWrite c v) s (fun d =>
        (d.gen c).stepRemain = min 65535 (g.stepRemain + v.toNat % 65536) ∧ KeepsGensBut c s.dev d
        ∧ KeepsRegsBut [CLP_STATUS.key c] s.dev d ∧ KeepsMemory s.dev d))

/-- R144, R161, R302, R304, R305: drain, markers and tokens. -/
def Obligations.DrainMarkersAndTokens : Prop :=
  ∀ (c : Ctx) (p : Port) (now : Nat) (w : W64) (s : State),
    let n := s.dev.tickOf c
    ((s.dev.gen c).upd = true → (s.dev.gen c).drained = false →
        s.dev.flightSum c (n % 2) 0 + s.dev.flightSum c (n % 2) 1 = 0 →
      Completes (.drainWave now) s (fun d => (d.gen c).drained = true ∧ (d.gen c).drainEdge = now ∧ d.tickOf c = n
        ∧ KeepsMemory s.dev d))
    ∧ ((Tab.get [] s.dev.marksIn p).find? (fun x => evKind x.2 == 4) = some (c.val, w) → s.dev.markPort p = true →
      Completes (.tickMarkerReceive p now) s (fun d => Tab.get 0 (d.gen c).marks p = fullTick n (evTick w)
        ∧ (Tab.get [] d.marksIn p).length + 1 = (Tab.get [] s.dev.marksIn p).length
        ∧ KeepsGensBut c s.dev d ∧ KeepsRegsBut [CLP_STATUS.key c] s.dev d ∧ KeepsMemory s.dev d))
    ∧ ((Tab.get [] s.dev.marksIn p).find? (fun x => evKind x.2 == 5) = some (c.val, w) → s.dev.markPort p = true →
      Completes (.drainTokenReceive p) s (fun d => d.fld RIM_DT (c * 6 + p) RIM_DT_TICK = fullTick n (evTick w)
        ∧ (Tab.get [] d.marksIn p).length + 1 = (Tab.get [] s.dev.marksIn p).length
        ∧ KeepsRegsBut [RIM_DT.key (c * 6 + p)] s.dev d ∧ KeepsMemory s.dev d))
    ∧ ((s.dev.markPorts c).contains p.val = true → s.dev.markPort p = true → (s.dev.port p).c0 = [] →
        s.dev.updComplete c (s.dev.tokenNext c p) = true → s.dev.boundForRim c (s.dev.tokenNext c p % 2) = false →
      Completes (.drainTokenSend c p) s (fun d =>
        Tab.get [] (d.port p).q 1 = Tab.get [] (s.dev.port p).q 1 ++ [⟨[s.dev.markFlit 5 c (s.dev.tokenNext c p)], []⟩]
        ∧ Tab.get 0 (d.gen c).tokSent p = s.dev.tokenNext c p ∧ KeepsGensBut c s.dev d ∧ KeepsRegs s.dev d ∧ KeepsMemory s.dev d))


/-! ## Tumbler (chapter 5) -/

/-- R179 to R182: the learning ops. -/
def Obligations.LearningOpsCompute : Prop :=
  ∀ (t : Tile) (lane : Fin 16) (dst : Fin 4) (a b : Fin 8) (k : BitVec 16) (pred : Fin 8),
    LearnOp t lane (.lrnAdd t lane dst a b k pred) (.add dst a b k pred) pred dst (fun l => sat16 (l.src k a + l.src k b))
    ∧ LearnOp t lane (.lrnSub t lane dst a b k pred) (.sub dst a b k pred) pred dst (fun l => sat16 (l.src k a - l.src k b))
    ∧ LearnOp t lane (.lrnMul t lane dst a b k pred) (.mul dst a b k pred) pred dst
        (fun l => sat16 (rha (l.src k a * l.src k b) 256))
    ∧ LearnOp t lane (.lrnMulk t lane dst a k pred) (.mulk dst a k pred) pred dst (fun l => sat16 (rha (l.src k a * k.toInt) 256))
    ∧ LearnOp t lane (.lrnShr t lane dst a k pred) (.shr dst a k pred) pred dst
        (fun l => l.src k a / ((2 ^ (k.toNat % 16) : Nat) : Int))
    ∧ LearnOp t lane (.lrnMin t lane dst a b k pred) (.min dst a b k pred) pred dst (fun l => min (l.src k a) (l.src k b))
    ∧ LearnOp t lane (.lrnMax t lane dst a b k pred) (.max dst a b k pred) pred dst (fun l => max (l.src k a) (l.src k b))
    ∧ LearnOp t lane (.lrnSel t lane dst a b k pred) (.sel dst a b k pred) pred dst
        (fun l => if l.p then l.src k a else l.src k b)
    ∧ LearnOp t lane (.lrnMov t lane dst a k pred) (.mov dst a k pred) pred dst (fun l => l.src k a)
    ∧ (∀ (s : State) (sw : Sweep) (w : Nat) (ls : List LrnLane) (l : LrnLane),
        (Learns s.dev t lane (.cmpge a b k pred) sw w ls l → Completes (.lrnCmpge t lane a b k pred) s (fun d =>
          d.lrnLane t lane = some { l with p := l.enabled pred && decide (l.src k a ≥ l.src k b), pc := l.pc + 1 }
          ∧ KeepsMemory s.dev d ∧ KeepsRegs s.dev d))
        ∧ (Learns s.dev t lane (.cmplt a b k pred) sw w ls l → Completes (.lrnCmplt t lane a b k pred) s (fun d =>
          d.lrnLane t lane = some { l with p := l.enabled pred && decide (l.src k a < l.src k b), pc := l.pc + 1 }
          ∧ KeepsMemory s.dev d ∧ KeepsRegs s.dev d))
        ∧ (∀ r : W16, Learns s.dev t lane (.srnd dst a k pred) sw w ls l → (s.dev.tum t).lfsr[lane.val]? = some r →
          Completes (.lrnSrnd t lane dst a k pred) s (fun d =>
            d.lrnLane t lane = some { (if l.enabled pred then l.put dst (sat16 ((l.src k a
              + ((r.toNat % 2 ^ (k.toNat % 16) : Nat) : Int)) / ((2 ^ (k.toNat % 16) : Nat) : Int))) else l) with pc := l.pc + 1 }
            ∧ (d.tum t).lfsr[lane.val]? = some (if l.enabled pred then lfsrStep 0xB400 r else r)
            ∧ KeepsMemory s.dev d ∧ KeepsRegs s.dev d))
        ∧ (Learns s.dev t lane (.fin pred) sw w ls l → Completes (.lrnEnd t lane pred) s (fun d =>
          (∃ x, d.lrnLane t lane = some x ∧ x.done = true
            ∧ (l.enabled pred = true → x.rule = l.rule ∧ x.w = max (-128) (min 127 l.w) ∧ x.e = max (-128) (min 127 l.e)
                ∧ x.dl = max 1 (min (l.maxD : Int) (max ((l.oldD : Int) - 1) (min ((l.oldD : Int) + 1) l.dl))))
            ∧ (l.enabled pred = false → x.rule = 4))
          ∧ KeepsMemory s.dev d ∧ KeepsRegs s.dev d)))

/-- R178, R181, R187, R188, R192: words and the end of a sweep. -/
def Obligations.SweepsReadWriteAndEnd : Prop :=
  ∀ (t : Tile) (s : State) (sw : Sweep) (e : Eng), (s.dev.tum t).sweep = some sw →
    (∀ i w, sw.word = none → sw.eng = some e.val → sw.row = some (i, w) →
        w < rowWords 0 (rdLen (s.dev.sidx t e i)) →
      Completes (.sweepWordRead t [] []) s (fun d =>
        let x := s.dev.sidx t e i
        ∃ ls, (d.tum t).sweep = some { sw with row := some (i, w + 1), word := some (rdAddr x + w, ls) }
          ∧ ls.length = min 16 (rdLen x - 16 * w)
          ∧ (∀ j l, ls[j]? = some l →
              l.w = sgn 8 (bits (s.dev.ld (engBase t e + (rdAddr x + w) * 64 + 4 * j) 4) 31 24)
              ∧ l.dl = ((bits (s.dev.ld (engBase t e + (rdAddr x + w) * 64 + 4 * j) 4) 23 18 + 1 : Nat) : Int))
          ∧ KeepsMemory s.dev d))
    ∧ (∀ w ls, sw.word = some (w, ls) → sw.eng = some e.val → (∀ l ∈ ls, l.done = true) → ls.length ≤ 16 → w < 32768 →
        s.dev.fld TUM_PL (t * 9 + e) TUM_PL_BASE ≤ w → w - s.dev.fld TUM_PL (t * 9 + e) TUM_PL_BASE < 7168 →
      Completes (.sweepWordWrite t) s (fun d =>
        let el := traceAddr t e (16384 + (w - s.dev.fld TUM_PL (t * 9 + e) TUM_PL_BASE) * 16)
        let da := dirtyAddr t e (w - s.dev.fld TUM_PL (t * 9 + e) TUM_PL_BASE)
        (d.tum t).sweep = some { sw with word := none }
        ∧ (∀ j l, ls[j]? = some l → l.rule ≠ 4 →
            d.ld (engBase t e + w * 64 + 4 * j) 4 = s.dev.ld (engBase t e + w * 64 + 4 * j) 4 % 2 ^ 18
              + enc 6 (l.dl - 1) * 2 ^ 18 + enc 8 l.w * 2 ^ 24
            ∧ d.ldB (el + j) = BitVec.ofInt 8 l.e)
        ∧ (∀ j l, ls[j]? = some l → l.rule = 4 →
            d.ld (engBase t e + w * 64 + 4 * j) 4 = s.dev.ld (engBase t e + w * 64 + 4 * j) 4)
        ∧ (∀ a, (a < engBase t e + w * 64 ∨ engBase t e + w * 64 + 64 ≤ a) → (a < el ∨ el + 16 ≤ a) → a ≠ da →
            d.ldB a = s.dev.ldB a)))
    ∧ (∀ cycles hold wait, sw.word = none → sw.eng = none → sw.engines = [] → (s.dev.tum t).sweepQ = [] →
        (s.dev.tum t).wt = none → sw.epoch < 2 ^ 32 → sw.ctx < 8 →
      Completes (.sweepEnd t cycles hold wait) s (fun d => (d.tum t).sweep = none
        ∧ (d.tum t).wt = some ((s.dev.tum t).changed, (s.dev.tum t).ended ++ [(sw.ctx, sw.epoch)])
        ∧ d.fld TUM_SWEPT (t * 8 + sw.ctx) TUM_SWEPT_EPOCH = sw.epoch ∧ d.fld TUM_STATUS t TUM_STATUS_SWEEPING = 0
        ∧ Counted TUM_CNT (t * 12) 1 s.dev d
        ∧ KeepsMemory s.dev d))

/-- R174, R175, R184, R192: counts, modulators and write-through. -/
def Obligations.TumblerRecordsAndModulators : Prop :=
  ∀ (t : Tile) (s : State),
    (∀ r q, Tab.get [] s.dev.preQ t = r :: q → (s.dev.tc t r.ctx).stale r.tick = false → r.eng < 9 → r.index < 8192 →
      Completes (.tumPreRecord t) s (fun d => Tab.get [] d.preQ t = q
        ∧ d.ldB (preAddr t r.eng r.index) = countUp (s.dev.ldB (preAddr t r.eng r.index))
            (((r.tick - (s.dev.tc t r.ctx).base) / (s.dev.tc t r.ctx).len) % 2 == 1)
        ∧ KeepsMemoryBut (preAddr t r.eng r.index) 1 s.dev d ∧ Counted TUM_CNT (t * 12 + 10) 1 s.dev d))
    ∧ (∀ ev q (ch : Fin 4), (s.dev.tum t).modQ = ev :: q →
        let x := s.dev.tc t ev.ctx
        let n := fullTick (s.dev.tickOf ev.ctx) (evTick ev.word)
        let key := (ev.ctx * 4 + ch) * 2 + (n - x.base) / x.len % 2
        x.len ≠ 0 → x.stale n = false → (s.dev.fld TUM_CFG (t * 8 + ev.ctx) TUM_CFG_MOD_VALID).testBit ch = true →
        s.dev.fld TUM_MOD_KEY ((t * 8 + ev.ctx) * 4 + ch) TUM_MOD_KEY_KEY = evKey ev.word →
      Completes (.tumModulator t) s (fun d => (d.tum t).modQ = q
        ∧ Tab.get 0 (d.tum t).acc key = sat16 (Tab.get 0 (s.dev.tum t).acc key + sgn 16 (evData ev.word))
        ∧ KeepsMemory s.dev d))
    ∧ (∀ (e : Eng) w epochs packets, let a := engBase t e + 64 * w; let b := s.dev.fld TUM_PL (t * 9 + e) TUM_PL_BASE
        w < 32768 → b ≤ w → w - b < 7168 → 1 ≤ packets →
        (s.dev.tum t).wt = some ([a], epochs) → (∀ k ∈ epochs, k.1 < 8) → (s.dev.tum t).ended = [] → s.dev.chained 10 0 4 = false →
        (∀ k < 64, memMaps (s.dev.imageOf t a + k) = true) →
      Completes (.writeThroughComplete t packets) s (fun d => (d.tum t).wt = none
        ∧ d.ldBytes (s.dev.imageOf t a) 64 = s.dev.ldBytes a 64
        ∧ (∀ x, (x < s.dev.imageOf t a ∨ s.dev.imageOf t a + 64 ≤ x) → x ≠ dirtyAddr t e (w - b) → d.ldB x = s.dev.ldB x)
        ∧ Counted TUM_CNT (t * 12 + 9) 1 s.dev d ∧ d.fld TUM_STATUS t TUM_STATUS_WT_BUSY = 0))

/-- R129, R173, R180, R182, R197: Tumbler's registers. -/
def Obligations.TumblerRegisterWrites : Prop :=
  ∀ (t : Tile) (c : Ctx) (e : Eng) (v : W32) (s : State),
    Completes (.tumEpochLenWrite t c v) s (fun d =>
      (d.tc t c).armed = some (TUM_EPOCH_LEN_LEN.get (v.setWidth 64), s.dev.fld TUM_EPOCH_BASE (t * 8 + c) TUM_EPOCH_BASE_BASE,
        TUM_EPOCH_LEN_MODE.get (v.setWidth 64))
      ∧ (d.tc t c).len = (s.dev.tc t c).len ∧ (d.tc t c).base = (s.dev.tc t c).base
      ∧ KeepsRegsBut [TUM_EPOCH_LEN.key (t * 8 + c)] s.dev d ∧ KeepsMemory s.dev d)
    ∧ (TUM_PL_WORDS.get (v.setWidth 64) ≤ 7168 →
        TUM_PL_BASE.get (v.setWidth 64) + TUM_PL_WORDS.get (v.setWidth 64) ≤ 32768 - 64 * s.dev.spillMax t e →
      Completes (.tumPlWrite t e v) s (fun d => d.fld TUM_PL (t * 9 + e) TUM_PL_BASE = TUM_PL_BASE.get (v.setWidth 64)
        ∧ d.fld TUM_PL (t * 9 + e) TUM_PL_WORDS = TUM_PL_WORDS.get (v.setWidth 64)
        ∧ KeepsRegsBut [TUM_PL.key (t * 9 + e)] s.dev d ∧ KeepsMemory s.dev d))
    ∧ ((TUM_PL_WORDS.get (v.setWidth 64) > 7168 ∨
        TUM_PL_BASE.get (v.setWidth 64) + TUM_PL_WORDS.get (v.setWidth 64) > 32768 - 64 * s.dev.spillMax t e) →
      Completes (.tumPlWrite t e v) s (fun d => d.fld TUM_STATUS t TUM_STATUS_CFG_ERR = 1
        ∧ KeepsRegsBut [TUM_STATUS.key t] s.dev d ∧ KeepsMemory s.dev d))
    ∧ Completes (.tumSeedWrite t v) s (fun d => d.fld TUM_SEED t TUM_SEED_SEED = v.toNat
        ∧ (∀ l < 16, (d.tum t).lfsr[l]? = some ((v.rotateLeft l).setWidth 16 ||| 1))
        ∧ KeepsRegsBut [TUM_SEED.key t] s.dev d ∧ KeepsMemory s.dev d)
    ∧ (∀ (r : Fin 4) (w : Fin 16), Completes (.ruleApertureWrite t c r w v) s (fun d =>
        (d.tum t).ruleDue = (s.dev.tum t).ruleDue ++ [((c.val * 4 + r.val) * 64 + w.val * 4, v)]
        ∧ KeepsRegs s.dev d ∧ KeepsMemory s.dev d))
    ∧ (∀ (r : Fin 4) (w : Fin 16), (s.dev.tum t).sweep = none → (s.dev.tum t).ruleDue = [((c.val * 4 + r.val) * 64 + w.val * 4, v)] →
      Completes (.ruleWriteApply t) s (fun d => (d.tum t).ruleDue = [] ∧ d.ld (ruleAddr t c r w) 4 = v.toNat
        ∧ KeepsMemoryBut (ruleAddr t c r w) 4 s.dev d ∧ KeepsRegs s.dev d))


/-! ## Usher (chapter 6) -/

/-- R206, R382: LOAD_DESCRIPTION. -/
def Obligations.LoadDescriptionTakesOrRefuses : Prop :=
  ∀ (id : Nat) (x : Cmd) (data : Option (List Byte)) (bs : List Byte) (s : State),
    ReadyCtx s.dev id 0x10 x → s.dev.flag SEC_CTX_STATUS x.ctx SEC_CTX_STATUS_SCRUBBING = false →
    (s.dev.gen x.ctx).running = false → Supplies s.dev x 0 (x.p 8 4) data bs →
    (descCheck bs (x.p 8 4) = none → Records (.loadDescription id data) id s 0 0 [] (fun d =>
        Tab.get [] d.descs x.ctx = bs ∧ Tab.get [] d.pins x.ctx = [] ∧ Tab.get [] d.blocks x.ctx = []
        ∧ d.fld USH_STATUS x.ctx USH_STATUS_PLACED = 0))
    ∧ (∀ code r w, descCheck bs (x.p 8 4) = some (code, r, w) →
      Records (.loadDescription id data) id s 0x0301 code (leBytes 2 r ++ leBytes 2 w) (fun d =>
        d.descs = s.dev.descs ∧ d.blocks = s.dev.blocks ∧ KeepsRegs s.dev d ∧ KeepsMemory s.dev d))

/-- R207 to R216, R382: PLACE. The plan that the search ends with is an operand of the model (NOTES.md, log entry 12). -/
def Obligations.PlacePlacesOrIsInfeasible : Prop :=
  ∀ (id : Nat) (x : Cmd) (p : Plan) (s : State),
    let c := x.ctx
    let e := s.dev.started id
    let rs := s.dev.recs c
    let fault := e.planFault c (e.roleOf (x.p 0 2)) rs p
    let after := (e.placed c rs p).committed.placedFault c (fun t => 1 - e.midVer t c) (1 - e.rimVer c) rs p
    let made := e.usherMade (e.placed c rs p).committed c rs p
    let sched := (e.placed c rs p).scheduleCtx c rs p.blocks
    ReadyCtx s.dev id 0x11 x → s.dev.flag SEC_CTX_STATUS c SEC_CTX_STATUS_SCRUBBING = false → (s.dev.gen c).running = false →
    Tab.get [] s.dev.descs c ≠ [] → Awake s.dev → e.tablesFree c = true →
    (∀ r : Reason, r.tile < 32 → r.eng < 16 → r.link < 8 → r.record < 65536 → r.code < 65536 →
      (fault = some r ∨ (fault = none ∧ after = some r) ∨ (fault = none ∧ after = none ∧ made = true ∧ sched.1 = .inl r)) →
      Records (.place id p) id s 0x0302 r.code
        (leBytes 2 r.record ++ leBytes 1 r.tile ++ leBytes 1 r.eng ++ leBytes 1 r.link) (fun d =>
        d.fld USH_REASON c USH_REASON_RECORD = r.record ∧ d.fld USH_REASON c USH_REASON_TILE = r.tile
        ∧ d.fld USH_REASON c USH_REASON_ENGINE = r.eng ∧ d.fld USH_REASON c USH_REASON_LINK = r.link
        ∧ Counted USH_CNT (c * 9 + 1) 1 s.dev d ∧ d.blocks = s.dev.blocks
        ∧ KeepsRegsBut [USH_REASON.key c, USH_STATUS.key c, USH_CNT.key (c * 9 + 1)] s.dev d ∧ KeepsMemory s.dev d))
    ∧ (∀ (fs : List Flow) (d' : Dev), fault = none → after = none → made = true → sched = (.inr fs, d') →
      Completes (.place id p) s (fun d => Tab.get [] d.blocks c = p.blocks ∧ Tab.get [] d.flows c = fs
        ∧ d.fld USH_STATUS c USH_STATUS_PLACED = 1 ∧ d.fld SEC_CTX_STATUS c SEC_CTX_STATUS_PLACED = 1
        ∧ ∃ r, d.recordOf id = some (0, 0, leBytes 4 p.blocks.length ++ leBytes 2 fs.length ++ r)))

/-- R218, R264, R384: pins and table commands. -/
def Obligations.PinAndTableCommands : Prop :=
  ∀ (id : Nat) (x : Cmd) (s : State),
    let c := x.ctx
    (∀ r, ReadyCtx s.dev id 0x22 x → s.dev.flag USH_STATUS c USH_STATUS_PLACED = true →
        recFind (s.dev.recs c) 1 (x.p 0 2) = some r →
        (x.p 4 4 = 0 ∨ (s.dev.started id).pinMeets c (s.dev.recs c) r (x.p 4 4) = true) →
      Records (.pinHint id) id s 0 0 (leBytes 4 ((Tab.get [] s.dev.blocks c).filter
          (fun b => b.pop == x.p 0 2 && x.p 4 4 != 0 && !((x.p 4 4).testBit b.tile))).length) (fun d =>
        (x.p 0 2, x.p 4 4) ∈ Tab.get [] d.pins c ∧ KeepsRegs s.dev d ∧ KeepsMemory s.dev d))
    ∧ (∀ r, ReadyCtx s.dev id 0x22 x → s.dev.flag USH_STATUS c USH_STATUS_PLACED = true →
        recFind (s.dev.recs c) 1 (x.p 0 2) = some r → x.p 4 4 ≠ 0 →
        (s.dev.started id).pinMeets c (s.dev.recs c) r (x.p 4 4) = false →
      Records (.pinHint id) id s 0x0302 0xE (leBytes 2 r.ix ++ [0, 0, 0]) (fun d => d.pins = s.dev.pins
        ∧ Counted USH_CNT (c * 9 + 1) 1 s.dev d
        ∧ KeepsRegsBut [USH_REASON.key c, USH_STATUS.key c, USH_CNT.key (c * 9 + 1)] s.dev d ∧ KeepsMemory s.dev d))
    ∧ (∀ data bs, ReadyCtx s.dev id 0x28 x → x.p 8 1 ≤ 2 → 0 < x.p 12 2 →
        (x.p 8 1 = 1 → s.dev.rimWritable c (1 - s.dev.rimVer c) = true) →
        (x.p 8 1 ≠ 1 → Awake s.dev ∧ x.p 9 1 ≤ 31 ∧ s.dev.midWritable (x.p 9 1) c (1 - s.dev.midVer (x.p 9 1) c) = true) →
        Supplies s.dev x 0 (x.p 12 2 * if x.p 8 1 = 2 then 2 else 16) data bs →
        (∀ k < x.p 12 2, ((s.dev.started id).tableEntry c x.priv (x.p 8 1) (x.p 9 1) (x.p 10 2 + k)
          (slice bs (k * if x.p 8 1 = 2 then 2 else 16) (if x.p 8 1 = 2 then 2 else 16))).any (·.1) = true) →
      Records (.tableUpdate id data) id s 0 0 (leBytes 2 (x.p 12 2)) (fun d =>
        x.p 8 1 = 1 → x.p 12 2 = 1 →
        (s.dev.rimOwners (s.dev.fld RIM_TAB_REGION c RIM_TAB_REGION_BASE + x.p 10 2)).all
          (fun k => s.dev.rimWritable k (1 - s.dev.rimVer c)) = true →
        d.rimEntry (1 - s.dev.rimVer c) (s.dev.fld RIM_TAB_REGION c RIM_TAB_REGION_BASE + x.p 10 2) = leNat bs / 2 ^ 51 * 2 ^ 51
        ∧ KeepsRegs s.dev d ∧ KeepsMemory s.dev d))
    ∧ (∀ est now, ReadyCtx s.dev id 0x29 x → (∀ m ∈ s.dev.migrs, m.ctx ≠ c) → Awake s.dev → (s.dev.gen c).running = false →
        PolsInRange s.dev c →
      Completes (.tableSwitch id est now) s (fun d =>
        d.recordOf id = some (0, 0, leBytes 1 (1 - s.dev.midVer 0 c) ++ leBytes 6 (s.dev.tickOf c))
        ∧ (∀ t : Tile, d.midVer t c = 1 - s.dev.midVer t c) ∧ d.rimVer c = 1 - s.dev.rimVer c ∧ KeepsMemory s.dev d))
    ∧ (∀ est now, ReadyCtx s.dev id 0x29 x → (∀ m ∈ s.dev.migrs, m.ctx ≠ c) → Awake s.dev → (s.dev.gen c).running = true →
        s.dev.fld CLP_INTERM_MAX c CLP_INTERM_MAX_INTERM_MAX = 0 →
      Records (.tableSwitch id est now) id s 0x0301 0x0104 [] (fun d => KeepsRegs s.dev d ∧ KeepsMemory s.dev d))

/-- R217, R221, R222, R224, R226: what Usher does in the background. -/
def Obligations.UsherBackgroundSteps : Prop :=
  ∀ (c : Ctx) (est now : Nat) (moves : List Move) (s : State),
    (∀ m d', s.dev.migrs.find? (fun m => m.ctx == c.val && m.step == 2) = some m → m.copied = false → m.crosses = false →
        s.dev.tablesFree c = true → s.dev.backgroundCopied m = some d' → (d'.gen c).running = true →
        0 < d'.fld CLP_INTERM_MAX c CLP_INTERM_MAX_INTERM_MAX → est ≤ d'.fld CLP_INTERM_MAX c CLP_INTERM_MAX_INTERM_MAX →
        (d'.gen c).interReq = [] → d'.sweepInter c (d'.tickOf c) = false →
      Completes (.backgroundCopyDone c true est now moves) s (fun d =>
        (∃ x ∈ d.migrs, x.ctx = c.val ∧ x.copied = true) ∧ (d.gen c).interReq = [(d'.tickOf c, 0, now)]
        ∧ KeepsGensBut c d' d ∧ KeepsRegs d' d ∧ KeepsMemory d' d))
    ∧ (∀ m own, s.dev.migrs.find? (fun m => m.ctx == c.val && m.step == 4) = some m → s.dev.evacs = [] →
        m.flipAt + 2 * (if s.dev.fld USH_INFLIGHT_MAX c USH_INFLIGHT_MAX_TB = 0 then own
          else s.dev.fld USH_INFLIGHT_MAX c USH_INFLIGHT_MAX_TB) ≤ now →
      Completes (.holdOverEnd c now own []) s (fun d => (∀ x ∈ d.migrs, x.ctx ≠ c.val)
        ∧ (∀ x ∈ s.dev.migrs, x.ctx ≠ c.val → x ∈ d.migrs) ∧ d.fld USH_STATUS c USH_STATUS_MIGRATING = 0))
    ∧ Completes .demoteFree s (fun d => (∀ x, x ∈ d.demoted ↔ x ∈ s.dev.demoted ∧ x.seen ≠ 3)
        ∧ KeepsRegs s.dev d ∧ KeepsMemory s.dev d)
    ∧ (∀ r : RowMove,
        let x := s.dev.sidx r.tile r.eng r.index
        let k := rdCtx x
        let n := rowWords (rdFmt x) (rdLen x)
        s.dev.fld USH_PERIOD 0 USH_PERIOD_MS ≠ 0 → s.dev.fld PWR_STATUS 0 PWR_STATUS_STATE ≤ 1 → r.tile < 32 → r.eng < 9 →
        r.index < 8192 → rdBits x 95 95 = 1 → rdSpill x = true → s.dev.flag USH_CTRL k USH_CTRL_PROMOTE_EN = true →
        s.dev.flag USH_CTRL k USH_CTRL_REBAL_EN = true → s.dev.fetchedOften r.tile r.eng r.index = true → s.dev.wordsFree r.tile r.eng k r.addr n = true →
        s.dev.fld NE_HOME_BASE (engIx r.tile r.eng) NE_HOME_BASE_IMAGE * 64 + 0x300000 ≤ 0x1000000000 →
      Completes (.rebalancePeriod [] [r] []) s (fun d =>
        (d.sidx r.tile r.eng r.index).toNat = rdMoved x false r.addr
        ∧ d.ldBytes (engBase r.tile r.eng + r.addr * 64) (64 * n) = s.dev.ldBytes ((s.dev.spillPart k).1 + rdAddr x * 64) (64 * n)
        ∧ Counted USH_CNT (k * 9 + 5) 1 s.dev d
        ∧ KeepsRegsBut [USH_CNT.key (k * 9 + 5), NE_SYN_CTRL.key (engIx r.tile r.eng), NE_STATUS.key (engIx r.tile r.eng),
            NE_SPCNT.key (engIx r.tile r.eng * 20 + 12), NE_SPCNT.key (engIx r.tile r.eng * 20 + 13)] s.dev d))
    ∧ (∀ fs d', Tab.get [] s.dev.flows c ≠ [] → s.dev.tablesFree c = true → (s.dev.gen c).running = false →
        ((s.dev.copyTables c).clearFlows c (fun t => 1 - s.dev.midVer t c)).admitAll c
          (s.dev.recs c) (Tab.get [] s.dev.blocks c) (flowOrder (s.dev.recs c)) [] = (fs, d') →
        (∀ f ∈ fs, ∀ y ∈ f.pols, y.1 < 32 ∧ y.2 < 16) →
      Completes (.scheduleRebuild c est now) s (fun d => Tab.get [] d.flows c = fs
        ∧ Counted USH_CNT (c * 9 + 8) 1 d' d))

/-- R159, R160, R264: Intermissions. -/
def Obligations.IntermissionsRequestOpenAndEnd : Prop :=
  ∀ (c : Ctx) (now : Nat) (s : State),
    let g := s.dev.gen c
    let n := s.dev.tickOf c
    (∀ (tick : Nat) (work : Fin 3) (est : Nat), g.running = true → 0 < s.dev.fld CLP_INTERM_MAX c CLP_INTERM_MAX_INTERM_MAX →
        est ≤ s.dev.fld CLP_INTERM_MAX c CLP_INTERM_MAX_INTERM_MAX → tickGe tick n = true → (∀ r ∈ g.interReq, r.2.1 ≠ work.val) →
        (work = 0 → s.dev.sweepInter c tick = false ∧ ∃ m ∈ s.dev.migrs, m.ctx = c.val ∧ m.step = 2 ∧ m.copied = true) →
        (work = 1 → (∃ x ∈ s.dev.cmds, x.wait = .flip c) ∨ ∃ x ∈ s.dev.newFlows, x.1 = c.val) →
      Completes (.intermissionRequest c tick work est now) s (fun d =>
        (d.gen c).interReq = g.interReq ++ [(tick % 2 ^ 48, work.val, now)]
        ∧ KeepsGensBut c s.dev d ∧ KeepsRegs s.dev d ∧ KeepsMemory s.dev d))
    ∧ (∀ at_, g.interOpen = false → g.upd = true → g.drained = true → g.interReq.find? (fun r => r.1 == n) = some (n, 1, at_) →
        (∀ (t : Tile) (e : Eng) (h : Gather), (s.dev.eng t e).gather = some h → h.ctx ≠ c.val) → PolsInRange s.dev c →
      Completes (.intermissionOpen c now) s (fun d => (d.gen c).interOpen = true ∧ (d.gen c).interWork = 1
        ∧ (d.gen c).interFrom = max g.drainEdge at_ ∧ (∀ t : Tile, d.midVer t c = 1 - s.dev.midVer t c)
        ∧ d.rimVer c = 1 - s.dev.rimVer c ∧ KeepsGensBut c s.dev d ∧ KeepsMemory s.dev d))
    ∧ (g.interOpen = true → g.interGo = true → g.interWork ≠ 3 →
      Completes (.intermissionDone c now) s (fun d => (d.gen c).interOpen = false
        ∧ Counted CLP_CNT (c * 10 + 5) 1 s.dev d ∧ Counted CLP_CNT (c * 10 + 6) (now - g.interFrom) s.dev d
        ∧ KeepsGensBut c s.dev d ∧ KeepsMemory s.dev d))

/-- R232, R307: messages between chips. -/
def Obligations.FabricMessages : Prop :=
  ∀ (c : Ctx) (q : Fin 16) (payload : List Byte) (chips : List (BitVec 15)) (lead : BitVec 15) (tick dist est now : Nat) (s : State),
    let g := s.dev.gen c
    let lic := (s.dev.fld SEC_LIC 0 SEC_LIC_FEATURES).testBit 2
    (lic = true → s.dev.fld USH_PERIOD 0 USH_PERIOD_MS ≠ 0 → Completes (.loadSummaryExchange q payload) s (fun d =>
        d.pkIn.length = s.dev.pkIn.length + ((List.range 6).filter (fun p => s.dev.portUp p)).length ∧ KeepsMemory s.dev d))
    ∧ (lic = true → tickGe tick (s.dev.tickOf c + 2 * dist) = true → g.running = true → est ≤ s.dev.fld CLP_INTERM_MAX c CLP_INTERM_MAX_INTERM_MAX →
        0 < s.dev.fld CLP_INTERM_MAX c CLP_INTERM_MAX_INTERM_MAX → tickGe tick (s.dev.tickOf c) = true → g.interReq = [] →
      Completes (.fabricIntermissionAnnounce c tick dist est now chips q payload) s (fun d =>
        d.pkIn.length = s.dev.pkIn.length + chips.length ∧ (d.gen c).interReq = [(tick % 2 ^ 48, 2, now)]
        ∧ (d.gen c).reports = (chips.map (·.toNat)).filter (· != s.dev.chipId)
        ∧ KeepsGensBut c s.dev d ∧ KeepsMemory s.dev d))
    ∧ (g.interOpen = true → g.interWork = 2 → Completes (.fabricIntermissionDone c false lead q payload) s (fun d =>
        d.pkIn.length = s.dev.pkIn.length + 1 ∧ d.gens = s.dev.gens ∧ KeepsMemory s.dev d))
    ∧ ((∃ r ∈ g.interReq, r.2.1 = 2 ∧ tickGe r.1 (s.dev.tickOf c) = false) →
      Completes (.fabricIntermissionDone c true lead q payload) s (fun d =>
        d.pkIn.length = s.dev.pkIn.length + 1 ∧ (∀ r ∈ (d.gen c).interReq, r.2.1 ≠ 2) ∧ KeepsGensBut c s.dev d ∧ KeepsMemory s.dev d))
    ∧ (g.interOpen = true → g.interWork = 2 → g.reports = [] → Completes (.fabricIntermissionGo c chips q payload) s (fun d =>
        d.pkIn.length = s.dev.pkIn.length + chips.length ∧ (d.gen c).interGo = true ∧ KeepsGensBut c s.dev d ∧ KeepsMemory s.dev d))


/-! ## Midway (chapter 7) -/

/-- R38, R40, R143, R244, R245: lookups of words. -/
def Obligations.LookupsMakeFlits : Prop :=
  ∀ (t : Tile) (at_ : LookupAt) (i y : Nat) (s : State), bits y 88 87 ≠ 0 → bits y 63 32 ≠ 0 → bits y 31 24 = 0 →
    Tab.get [] (s.dev.router t).arr 4 = [] → Tab.get 0 (s.dev.router t).used 25 < 20 →
    (∀ (e : Eng) (ex : Bool) (x : Emitted) (q : List Emitted), s.dev.nextLookup t at_ = some (e.val, ex) →
        (if ex then (s.dev.eng t e).emitX else (s.dev.eng t e).emitO) = x :: q → x.ctx < 8 →
        s.dev.ftFind t x.ctx (s.dev.midVer t x.ctx) (evKey x.word) = some (i, y) → bits y 85 80 ≠ 0 →
        (s.dev.router t).ftBad.contains (s.dev.midVer t x.ctx * 4096 + i) = false →
      Completes (.fanoutLookup t at_ false) s (fun d => (if ex then (d.eng t e).emitX else (d.eng t e).emitO) = q
        ∧ Tab.get [] (d.router t).arr 4 = [⟨{ hdr := (hdrOf 1 (s.dev.midVer t x.ctx) 1 (bits y 85 80) 0 x.ctx (bits y 63 32) (bits y 86 86)), words := [modWord y x.word] }, 2⟩]
        ∧ Tab.get 0 d.inflight (flightKey t x.ctx (evTick x.word % 2) (s.dev.midVer t x.ctx))
          = Tab.get 0 s.dev.inflight (flightKey t x.ctx (evTick x.word % 2) (s.dev.midVer t x.ctx)) + popc 32 (bits y 63 32)
        ∧ Counted MID_CNT (t * 9) 1 s.dev d ∧ KeepsMemory s.dev d))
    ∧ (∀ (g : Fin 8) (x : Inbound) (q : List Inbound), gwTiles.getD g 0 = t.val → Tab.get [] s.dev.gwIn g = x :: q → x.ctx < 8 →
        (s.dev.gen x.ctx).interOpen = false → s.dev.ftFind t x.ctx x.ver (evKey x.word) = some (i, y) →
        (s.dev.router t).ftBad.contains (x.ver * 4096 + i) = false →
      Completes (.gatewayEntry g at_ false) s (fun d => Tab.get [] d.gwIn g = q
        ∧ Tab.get [] (d.router t).arr 4 = [⟨{ hdr := (hdrOf 1 x.ver 1 x.hops 0 x.ctx (bits y 63 32) (bits y 86 86)), words := [modWord y x.word] }, 2⟩]
        ∧ Tab.get 0 d.inflight (flightKey t x.ctx (evTick x.word % 2) x.ver)
          = Tab.get 0 s.dev.inflight (flightKey t x.ctx (evTick x.word % 2) x.ver) + popc 32 (bits y 63 32) - 1
        ∧ Counted MID_CNT (t * 9) 1 s.dev d ∧ KeepsMemory s.dev d))

/-- R238, R247 to R249, R260, R270: a router's steps. -/
def Obligations.RouterSteps : Prop :=
  ∀ (t : Tile) (s : State),
    let r := s.dev.router t
    (∀ (inp : Fin 6) (a : Arriving) (q : List Arriving) (wake : Nat) (entryBad : Bool), Tab.get [] r.arr inp = a :: q → a.flit.isData = false →
      (a.flit.headerOk = true → a.flit.mask = 2 ^ t.val → a.flit.rim = 0 → s.dev.combinable t a.flit = false →
        Completes (.flitRoute t inp .clean wake entryBad) s (fun d => Tab.get [] (d.router t).arr inp = q
          ∧ (d.router t).wait = r.wait ++ [⟨4, a.flit.rehead a.flit.cls a.flit.nwords (2 ^ t.val) a.flit.aux, inp, a.flit.cls, r.nextSeq⟩]
          ∧ KeepsMemory s.dev d))
      ∧ (Tab.get [] r.feedQ inp = [] → Completes (.flitRoute t inp .badHeader wake entryBad) s (fun d => Tab.get [] (d.router t).arr inp = q
          ∧ d.fld MID_STATUS t MID_STATUS_HDR_LOST = 1
          ∧ Counted MID_DP ((t * 8 + 2) * 32 + a.flit.ctx * 4 + a.flit.cls) 1 s.dev d ∧ KeepsMemory s.dev d)))
    ∧ (∀ (w : Waiting) (cycles : Fin 64) (badSlot : Option (Fin 2)), r.wait = [w] → w.out = 4 → w.flit.cls = 1 →
        w.flit.isData = false → s.dev.pick t 4 1 = some w → Tab.get [] r.local_ 1 = [] →
      Completes (.outputGrant t 4 cycles badSlot) s (fun d => (d.router t).wait = []
        ∧ Tab.get [] (d.router t).local_ 1 = [{ w.flit with cross := none }]
        ∧ Counted MID_PC ((t * 8 + 4) * 8 + 2) 1 s.dev d ∧ KeepsMemory s.dev d))
    ∧ (∀ (out : Fin 6) (cls : Fin 4), (out.val, cls.val) ∈ r.credits → Completes (.creditReturn t out cls) s (fun d =>
        (d.router t).credits = r.credits.erase (out.val, cls.val)
        ∧ Tab.get 0 (d.router t).used (out.val * 4 + cls.val) = Tab.get 0 r.used (out.val * 4 + cls.val) - 1
        ∧ KeepsRegs s.dev d ∧ KeepsMemory s.dev d))
    ∧ (∀ (k : Fin 16) (x : CombEntry), r.comb[k.val]? = some x → x.flit.mask = 2 ^ t.val → x.flit.rim = 0 →
      Completes (.combineRelease t k false) s (fun d => (d.router t).comb = r.comb.eraseIdx k
        ∧ (∃ f, (d.router t).wait = r.wait ++ [⟨4, f, 6, 1, r.nextSeq⟩] ∧ f.cls = 1 ∧ f.held = 1 ∧ f.count = x.flit.count
            ∧ f.words = x.flit.words ∧ f.ctx = x.flit.ctx)
        ∧ Counted MID_CNT (t * 9 + 6) 1 s.dev d ∧ KeepsMemory s.dev d))
    ∧ (∀ (k : Fin 16) (x : CombEntry), r.comb[k.val]? = some x →
      Completes (.combineRelease t k true) s (fun d => (d.router t).comb = r.comb.eraseIdx k ∧ (d.router t).wait = r.wait ∧ KeepsMemory s.dev d))

/-- R41, R42, R184, R250, R254: local ports and policers. -/
def Obligations.LocalPortsAndPolicers : Prop :=
  ∀ (t : Tile) (s : State),
    (∀ (f : Flit) (q : List Flit) (w : W64), Tab.get [] (s.dev.router t).local_ 1 = f :: q → f.cls = 1 → f.words = [w] →
        s.dev.ctxReset.contains f.ctx = false →
      (∀ e : Eng, evKind w = 1 → s.dev.targetsOf t f.ctx = [e.val] → (s.dev.eng t e).resetting = false →
          (s.dev.eng t e).qO.length < 224 →
        Completes (.localPortPresent t 1) s (fun d =>
          (d.eng t e).qO = (s.dev.eng t e).qO ++ [⟨w, f.ctx, 1, f.ver, s.dev.nextCopy⟩]
          ∧ Tab.get [] (d.router t).local_ 1 = q ∧ KeepsMemory s.dev d))
      ∧ (evKind w = 3 → s.dev.tileRst.contains t.val = false → Completes (.localPortPresent t 1) s (fun d =>
          (d.tum t).modQ = (s.dev.tum t).modQ ++ [⟨w, f.ctx, 1, f.ver, s.dev.nextCopy⟩]
          ∧ Tab.get [] (d.router t).local_ 1 = q ∧ KeepsMemory s.dev d)))
    ∧ (∀ (i : Fin 16) (h : Fin 2), s.dev.halfStopped h = false → halfOf t = h.val →
        s.dev.flag MID_C0POL (t * 16 + i) MID_C0POL_EN = true →
      Completes (.policerRefill h) s (fun d =>
        Tab.get 0 (d.router t).tokens i = min (s.dev.polBurst t i)
          (Tab.get 0 (s.dev.router t).tokens i + min 48 (s.dev.fld MID_C0POL (t * 16 + i) MID_C0POL_RATE))
        ∧ KeepsRegs s.dev d ∧ KeepsMemory s.dev d))

/-- R18, R263, R270, R273: the fan-out and slot tables' registers. -/
def Obligations.FanoutAndSlotTableWrites : Prop :=
  ∀ (t : Tile) (who : Requester) (v : W64) (s : State),
    let i := s.dev.fld MID_FT_SEL t MID_FT_SEL_INDEX
    let ver := s.dev.fld MID_FT_SEL t MID_FT_SEL_VERSION
    ((s.dev.ftOwners t i).any s.dev.confidential = false →
      Completes (.midFtLoRead t) s (fun d =>
        (d.rd MID_FT_LO t).toNat + (d.rd MID_FT_HI t).toNat * 2 ^ 64 = s.dev.ld (ftAddr t ver i) 16
        ∧ KeepsRegsBut [MID_FT_LO.key t, MID_FT_HI.key t] s.dev d ∧ KeepsMemory s.dev d)
      ∧ ((s.dev.ftOwners t i).all (fun c => s.dev.midWritable t c ver) = true →
        Completes (.midFtLoWrite who t .whole v) s (fun d =>
          d.ld (ftAddr t ver i) 16 = (v.toNat + (s.dev.router t).ftHeld.toNat * 2 ^ 64) / 2 ^ 24 * 2 ^ 24 ∧ ver * 4096 + i ∉ (d.router t).ftBad
          ∧ KeepsMemoryBut (ftAddr t ver i) 16 s.dev d ∧ KeepsRegsBut [MID_FT_LO.key t] s.dev d))
      ∧ ((s.dev.ftOwners t i).all (fun c => s.dev.midWritable t c ver) = false →
        Completes (.midFtLoWrite who t .whole v) s (fun d => d.fld MID_STATUS t MID_STATUS_WR_BUSY = 1 ∧ KeepsMemory s.dev d
          ∧ KeepsRegsBut [MID_FT_LO.key t, MID_STATUS.key t] s.dev d)))
    ∧ (viaPf who = true → (s.dev.ftOwners t i).any s.dev.confidential = true →
      Completes (.midFtLoWrite who t .whole v) s (fun d => KeepsMemory s.dev d))
    ∧ Completes (.midFtHiWrite t .whole v) s (fun d => (d.router t).ftHeld = v ∧ KeepsRegs s.dev d ∧ KeepsMemory s.dev d)
    ∧ (∀ (k : Fin 2) (p : Fin 4) (sl : Fin 64) (f : W16),
        let ix := slotIx t k p sl
        let old := s.dev.fld MID_SLOT_APER ix MID_SLOT_APER_FLOW
        ((∀ x ∈ [old, f.toNat], x = 0xFFFF ∨ s.dev.midWritable t (x / 8192) k = true) →
          Completes (.slotTableWrite t k p sl f) s (fun d => d.fld MID_SLOT_APER ix MID_SLOT_APER_FLOW = f.toNat
            ∧ KeepsRegsBut [MID_SLOT_APER.key ix] s.dev d ∧ KeepsMemory s.dev d))
        ∧ ((∃ x ∈ [old, f.toNat], x ≠ 0xFFFF ∧ s.dev.midWritable t (x / 8192) k = false) →
          Completes (.slotTableWrite t k p sl f) s (fun d => d.fld MID_STATUS t MID_STATUS_WR_BUSY = 1
            ∧ KeepsRegsBut [MID_STATUS.key t] s.dev d ∧ KeepsMemory s.dev d))
        ∧ Completes (.slotTableRewrite t k p sl) s (fun d => ix ∉ (d.router t).slotBad
            ∧ KeepsRegs s.dev d ∧ KeepsMemory s.dev d))
    ∧ (∀ (k : Fin 2) (j : BitVec 12), Completes (.fanoutEntryRewrite t k j) s (fun d => k.val * 4096 + j.toNat ∉ (d.router t).ftBad
        ∧ KeepsRegs s.dev d ∧ KeepsMemory s.dev d))

/-- R254, R260, R273, R274: Midway's setting registers. -/
def Obligations.MidwayRegisterWrites : Prop :=
  ∀ (t : Tile) (v : W32) (s : State),
    let x : W64 := v.setWidth 64
    (∀ c : Ctx, (MID_FT_REGION_BASE.get x + MID_FT_REGION_COUNT.get x ≤ 4096 →
        Completes (.midFtRegionWrite t c v) s (fun d =>
          d.fld MID_FT_REGION (t * 8 + c) MID_FT_REGION_BASE = MID_FT_REGION_BASE.get x
          ∧ d.fld MID_FT_REGION (t * 8 + c) MID_FT_REGION_COUNT = MID_FT_REGION_COUNT.get x
          ∧ KeepsRegsBut [MID_FT_REGION.key (t * 8 + c)] s.dev d ∧ KeepsMemory s.dev d))
      ∧ (MID_FT_REGION_BASE.get x + MID_FT_REGION_COUNT.get x > 4096 →
        Completes (.midFtRegionWrite t c v) s (fun d => d.fld MID_STATUS t MID_STATUS_CFG_ERR = 1
          ∧ KeepsRegsBut [MID_STATUS.key t] s.dev d ∧ KeepsMemory s.dev d)))
    ∧ (MID_COMB_TIMEOUT.get x = 0 → Completes (.midCombWrite t v) s (fun d => (d.router t).comb = []
        ∧ d.fld MID_COMB t MID_COMB_TIMEOUT = 0 ∧ KeepsMemory s.dev d))
    ∧ (MID_COMB_TIMEOUT.get x ≠ 0 → Completes (.midCombWrite t v) s (fun d => d.router t = s.dev.router t
        ∧ d.fld MID_COMB t MID_COMB_TIMEOUT = MID_COMB_TIMEOUT.get x ∧ KeepsRegsBut [MID_COMB.key t] s.dev d ∧ KeepsMemory s.dev d))
    ∧ (∀ i : Fin 16, Completes (.midC0polWrite t i v) s (fun d =>
        Tab.get 0 (d.router t).tokens i = max 1 (min 16 (MID_C0POL_BURST.get x))
        ∧ d.fld MID_C0POL (t * 16 + i) MID_C0POL_RATE = MID_C0POL_RATE.get x
        ∧ KeepsRegsBut [MID_C0POL.key (t * 16 + i)] s.dev d ∧ KeepsMemory s.dev d))


/-! ## Event links and the rim (chapter 8) -/

/-- R279, R289, R292 to R294: port states. -/
def Obligations.PortStatesFollowTheirEvents : Prop :=
  ∀ (p : Port) (v : W32) (ms : Bool) (s : State),
    let st := s.dev.portState p
    let x := s.dev.port p
    (ELK_CTRL_EN.get (v.setWidth 64) = 1 → ELK_CTRL_RETRAIN.get (v.setWidth 64) = 0 → st = 0 → s.dev.portLicensed p = true →
        s.dev.rimLost = [] →
      Completes (.elkCtrlWrite p v) s (fun d => d.portState p = 1
        ∧ d.fld ELK_CTRL p ELK_CTRL_REPLAY_TO = ELK_CTRL_REPLAY_TO.get (v.setWidth 64)
        ∧ KeepsRegsBut [ELK_CTRL.key p, ELK_STATUS.key p] s.dev d ∧ KeepsMemory s.dev d))
    ∧ (ELK_CTRL_EN.get (v.setWidth 64) = 0 → Completes (.elkCtrlWrite p v) s (fun d => d.portState p = 0
        ∧ (st ≠ 0 → (d.port p).c0 = [] ∧ (d.port p).q = [] ∧ (d.port p).stored = []) ∧ KeepsMemory s.dev d))
    ∧ (s.dev.flag ELK_CTRL p ELK_CTRL_EN = true → s.dev.portLicensed p = true → s.dev.rimLost = [] →
        Completes (.elkRetrain p) s (fun d => d.portState p = 1 ∧ (st ≠ 0 → (d.port p).q = []) ∧ KeepsMemory s.dev d)
        ∧ (3 ≤ st → Completes (.linkDown p) s (fun d => d.portState p = 1 ∧ (d.port p).c0 = [] ∧ (d.port p).q = []
            ∧ (d.port p).stored = [] ∧ (d.port p).trained = 0 ∧ KeepsMemory s.dev d)))
    ∧ (∀ lane : Fin 2, st = 1 → x.trained ||| 2 ^ lane.val = 3 → x.failed.testBit lane = false →
        s.dev.unit 5 (p * 2 + lane) ≠ (2, 5) → Completes (.laneTrainingDone p lane) s (fun d =>
        d.portState p = 2 ∧ d.fld ELK_STATUS p ELK_STATUS_RX_LANES = 3 ∧ d.fld ELK_STATUS p ELK_STATUS_DEGRADED = 0
        ∧ KeepsRegsBut [ELK_STATUS.key p] s.dev d ∧ KeepsMemory s.dev d))
    ∧ (st = 1 → x.trained = 1 ∨ x.trained = 2 → Completes (.trainTimeout p) s (fun d =>
        d.portState p = 2 ∧ d.fld ELK_STATUS p ELK_STATUS_RX_LANES = x.trained ∧ d.fld ELK_STATUS p ELK_STATUS_DEGRADED = 1
        ∧ KeepsRegsBut [ELK_STATUS.key p] s.dev d ∧ KeepsMemory s.dev d))
    ∧ (∀ (a b : List (BitVec 10)) (word : Option (List Nat × List Nat)),
        rsDecode (fromLanes (s.dev.fld ELK_STATUS p ELK_STATUS_RX_LANES) (a.map (·.toNat)) (b.map (·.toNat))) = word →
        (ms = true ∨ s.dev.fld ELK_LANE_SER p ELK_LANE_SER_LIMIT = 0) →
      (∀ msg cwi bs l, word = some (msg, []) → messageParts msg = (0x1A7B, cwi, bs) → st = 2 → x.lock = 3 → x.lastCwi = some l →
          cwi = (l + 1) % 69 →
        Completes (.codewordReceive p a b ms) s (fun d => d.portState p = 3
          ∧ KeepsRegsBut [ELK_STATUS.key p] s.dev d ∧ KeepsMemory s.dev d))
      ∧ (word = none → 2 ≤ st → x.badCw < 3 → Completes (.codewordReceive p a b ms) s (fun d => d.portState p = st
          ∧ (d.port p).lock = 0 ∧ (d.port p).badCw = x.badCw + 1 ∧ (d.port p).lastCwi = none ∧ KeepsMemory s.dev d)))
    ∧ (∀ lane : Fin 2, st = 4 → s.dev.fld ELK_STATUS p ELK_STATUS_RX_LANES = 3 → Completes (.laneFail p lane) s (fun d =>
        d.portState p = 3 ∧ d.fld ELK_STATUS p ELK_STATUS_RX_LANES = 3 - 2 ^ lane.val
        ∧ d.fld ELK_STATUS p ELK_STATUS_DEGRADED = 1 ∧ Counted ELK_CNT (p * 11 + 8) 1 s.dev d ∧ KeepsMemory s.dev d))

/-- R281 to R285, R290, R291: frames of a port. -/
def Obligations.FramesReceivedAndSent : Prop :=
  ∀ (p : Port) (prefer : Fin 3) (stall : Nat) (s : State),
    let x := s.dev.port p
    (∀ j cw bytes x', x.nextFrame = some (j, cw, bytes, x') → s.dev.portState p = 4 →
      let c := at_ bytes 128 6
      (cw = false → crc32c (bytes.take 134) = at_ bytes 134 4 → bits c 4 4 = 0 → bits c 5 5 = 1 → bits c 47 36 = x.expect →
          x.prevCap = none → ((headOf (slice bytes 0 32)).any (fun f => f.cls == 0) = false ∨ (Tab.get [] x.rx 0).length < 16) →
        Completes (.frameReceive p) s (fun d => (d.port p).expect = (x.expect + 1) % 4096
          ∧ (d.port p).ackTo = x.expect ∧ (d.port p).nak = false ∧ (d.port p).badRun = 0
          ∧ d.fld ELK_STATUS p ELK_STATUS_NAK_ACTIVE = 0 ∧ d.portState p = 4 ∧ KeepsMemory s.dev d))
      ∧ (x.badRun < 11 → (cw = true ∨ crc32c (bytes.take 134) ≠ at_ bytes 134 4) →
        Completes (.frameReceive p) s (fun d => (d.port p).rx = x.rx ∧ (d.port p).rxPk = x.rxPk
          ∧ (d.port p).expect = x.expect ∧ (d.port p).credit = x.credit ∧ (d.port p).nak = true ∧ (d.port p).badRun = x.badRun + 1
          ∧ d.fld ELK_STATUS p ELK_STATUS_NAK_ACTIVE = 1 ∧ Counted ELK_DP (p * 4 * 32) 1 s.dev d ∧ KeepsMemory s.dev d)))
    ∧ (s.dev.portState p = 3 → Completes (.frameTransmit p prefer stall) s (fun d =>
        (∃ o, d.outs = s.dev.outs ++ .frame p (frameImage (s.dev.control p x.seq false) [none, none, none, none]) :: o)
        ∧ (d.port p).txJ = (x.txJ + 1) % 320 ∧ KeepsMemory s.dev d))
    ∧ (∀ i f, s.dev.portState p = 4 → x.replay = [] → x.part = [] → x.q = [] → x.stored = [] → x.c0 = [i] → i.flits = [f] →
        f.cls = 0 → Completes (.frameTransmit p prefer stall) s (fun d =>
        (∃ k o, d.outs = s.dev.outs ++ .frame p (frameImage k [some f, none, none, none]) :: o) ∧ (d.port p).c0 = []
        ∧ (d.port p).stored = [] ∧ KeepsMemory s.dev d))
    ∧ (s.dev.portState p = 4 → x.replay = [] → x.stored ≠ [] → Completes (.replayTimeout p) s (fun d =>
        (d.port p).replay = x.stored ∧ d.fld ELK_STATUS p ELK_STATUS_REPLAYING = 1 ∧ Counted ELK_CNT (p * 11 + 4) 1 s.dev d
        ∧ KeepsMemory s.dev d))

/-- R296, R298, R301, R303, R354, R357: the rim switch. -/
def Obligations.RimMovesWordsAndPackets : Prop :=
  ∀ (joins : Bool) (s : State),
    (∀ x q i y (g : Fin 8), s.dev.zeroFirst .host = none → Tab.get [] s.dev.swIn 7 = x :: q → x.sns = none → x.ctx < 8 → x.cls < 4 → (s.dev.gen x.ctx).running = true →
        s.dev.rimFind x.ctx (s.dev.rimVer x.ctx) (evKey x.word) = some (i, y) → bits y 88 77 = 0 → bits y 76 69 = 2 ^ g.val →
        s.dev.gatewayDown g = false → s.dev.gatesFree x.ctx (s.dev.rimVer x.ctx) x.cls (evKey x.word) = true →
      Completes (.rimLookup .host .clean joins false) s (fun d => Tab.get [] d.swIn 7 = q
        ∧ Tab.get [] d.gwIn g = Tab.get [] s.dev.gwIn g ++
          [⟨restamp x.word (s.dev.tickOf x.ctx + 1), x.ctx, x.cls, s.dev.rimVer x.ctx, s.dev.xptHops⟩]
        ∧ Counted RIM_CNT 0 1 s.dev d ∧ KeepsMemory s.dev d))
    ∧ (∀ k q, s.dev.zeroFirst .packet = none → s.dev.pkIn = k :: q → k.head.headerOk = true → k.ttype ≤ 1 → k.dst = s.dev.chipId → k.tile = none →
      Completes (.rimLookup .packet .clean joins false) s (fun d => d.pkIn = q
        ∧ Tab.get [] d.endIn 0 = Tab.get [] s.dev.endIn 0 ++ [k] ∧ KeepsMemory s.dev d))
    ∧ (∀ (p : Port) f q w, s.dev.zeroFirst (.port p 1) = none → Tab.get [] (s.dev.port p).rx 1 = f :: q → f.headerOk = true → f.words = [w] →
        (evKind w = 1 ∨ evKind w = 2 ∨ evKind w = 3) → f.hops = 0 →
      Completes (.rimLookup (.port p 1) .clean joins false) s (fun d => Tab.get [] (d.port p).rx 1 = q
        ∧ Counted RIM_DP (2 * 32 + f.ctx * 4 + 1) 1 s.dev d ∧ KeepsMemory s.dev d))
    ∧ (∀ (g : Fin 8) f q w, Tab.get [] s.dev.rimIn g = f :: q → f.cls = 1 → f.headerOk = true → f.words = [w] → evKind w = 1 →
        s.dev.ringOf f.ctx w = none → s.dev.aeroTakes f.ctx w = false →
      Completes (.rimGatewayIngress g .clean) s (fun d => Tab.get [] d.rimIn g = q
        ∧ Tab.get [] d.swIn (8 + g) = Tab.get [] s.dev.swIn (8 + g) ++ [⟨w, f.ctx, 1, some f.ver, f.hops, none⟩]
        ∧ Tab.get 0 d.inflight (flightKey 32 f.ctx (evTick w % 2) f.ver)
          = Tab.get 0 s.dev.inflight (flightKey 32 f.ctx (evTick w % 2) f.ver) + 1
        ∧ KeepsRegs s.dev d ∧ KeepsMemory s.dev d))

/-- R325, R359: rings' timers and the address-event output. -/
def Obligations.RingTimersAndAero : Prop :=
  ∀ (s : State),
    let p := s.dev.aeroPin
    (∀ (c : Ctx) (j : Fin 4), s.dev.fld HST_OUT_CTRL (c * 4 + j) HST_OUT_CTRL_TIMER_US ≠ 0 →
        0 < (Tab.get ({} : OutRing) s.dev.outRings (c * 4 + j)).since →
      Completes (.outputRingTimer c j) s (fun d => (Tab.get ({} : OutRing) d.outRings (c * 4 + j)).since = 0
        ∧ (let v : Nat × Nat := if s.dev.vfOn c then (1 + c, 4 + j) else (0, 32 + c * 4 + j)
           (s.dev.msixOn v = true → d.outs = s.dev.outs ++ [.msix v.1 v.2])
           ∧ (s.dev.msixOn v = false → d.outs = s.dev.outs ∧ v ∈ d.pcie.waiting))
        ∧ KeepsRegs s.dev d ∧ KeepsMemory s.dev d))
    ∧ (∀ w q, s.dev.aero = w :: q → p.req = false → Completes (.aeroSend true) s (fun d => d.aero = q
        ∧ d.aeroPin.a = (w.1 + 2 ^ 32 - s.dev.fld SNS_AERO_KEY 0 SNS_AERO_KEY_MATCH) % 2 ^ 24 ∧ d.aeroPin.req = true
        ∧ d.aeroPin.word = some w ∧ d.aeroPin.stuck = false ∧ KeepsRegs s.dev d ∧ KeepsMemory s.dev d))
    ∧ (p.req = true → Completes .aeroAckRise s (fun d => d.aeroPin.req = false ∧ d.aeroPin.word = none
        ∧ Counted SNS_PC 18 1 s.dev d ∧ KeepsRegsBut [SNS_PC.key 18] s.dev d ∧ KeepsMemory s.dev d))
    ∧ (∀ key c cls, p.word = some (key, c, cls) → p.req = true → Completes .aeroHsTimeout s (fun d =>
        d.aeroPin.req = false ∧ d.aeroPin.word = none ∧ Counted SNS_DP (16 * 32 + 18) 1 s.dev d ∧ KeepsMemory s.dev d))
    ∧ (p.req = false → Completes .aeroStuck s (fun d => d.aeroPin.stuck = true ∧ (d.rd SNS_INT_STATUS 0).getLsbD 19 = true
        ∧ KeepsRegsBut [SNS_INT_STATUS.key 0] s.dev d ∧ KeepsMemory s.dev d))

/-- R308 to R313, R539, R549: transport and bulk writes. -/
def Obligations.TransportAndBulkWrites : Prop :=
  ∀ (s : State),
    (∀ (chip : BitVec 15) (c : Ctx) (cls : Fin 2) (tseq : BitVec 16) (r : Nat) (k : Packet),
        let x := Tab.get ({} : XptTx) s.dev.xptTx (xptKey chip.toNat c (2 + cls))
        x.unacked.find? (fun u => u.1 == tseq.toNat) = some (tseq.toNat, r, k) → r < 3 → s.dev.chained 8 0 2 = false →
      Completes (.xptRetransmit chip c cls tseq) s (fun d =>
        (tseq.toNat, r + 1, k.retag tseq.toNat (r + 1)) ∈ (Tab.get ({} : XptTx) d.xptTx (xptKey chip.toNat c (2 + cls))).unacked
        ∧ Counted RIM_CNT 5 1 s.dev d ∧ KeepsMemory s.dev d))
    ∧ (∀ k, s.dev.xptIn.find? (fun k => k.ttype == 0 && k.cls == 2) = some k → k.tile = none →
        (s.dev.xptRcv (xptKey k.src k.tctx 2)).base = k.tseq → (s.dev.xptRcv (xptKey k.src k.tctx 2)).got = [] →
      Completes .xptReceiveBulk s (fun d => (d.xptRcv (xptKey k.src k.tctx 2)).base = (k.tseq + 1) % 65536
        ∧ Tab.get [] d.endIn 0 = Tab.get [] s.dev.endIn 0 ++ [k] ∧ d.xptIn.length + 1 = s.dev.xptIn.length
        ∧ KeepsRegs s.dev d ∧ KeepsMemory s.dev d))
    ∧ (∀ k, s.dev.xptIn.find? (fun k => k.ttype == 0 && k.cls == 3) = some k → k.tile = none →
        (s.dev.xptRcv (xptKey k.src k.tctx 3)).base = k.tseq →
      Completes .xptReceiveMessage s (fun d => (d.xptRcv (xptKey k.src k.tctx 3)).base = (k.tseq + 1) % 65536
        ∧ Tab.get [] d.endIn 0 = Tab.get [] s.dev.endIn 0 ++ [k] ∧ d.xptIn.length + 1 = s.dev.xptIn.length
        ∧ KeepsRegs s.dev d ∧ KeepsMemory s.dev d))
    ∧ (∀ (chip : BitVec 15) (c : Ctx) l, (s.dev.xptRcv (xptKey chip.toNat c 3)).lowest = some l →
      Completes (.xptSkip chip c) s (fun d => (d.xptRcv (xptKey chip.toNat c 3)).base = l
        ∧ (d.xptRcv (xptKey chip.toNat c 3)).lowest = none ∧ Counted RIM_CNT 6 1 s.dev d ∧ KeepsMemory s.dev d))
    ∧ (∀ (chip : BitVec 15) (c : Ctx) (cls : Fin 2) (p : Port), (s.dev.xptRcv (xptKey chip.toNat c (2 + cls))).since ≠ 0 →
        s.dev.routePort chip.toNat = some p.val →
      Completes (.ackSend chip c cls) s (fun d => (d.xptRcv (xptKey chip.toNat c (2 + cls))).since = 0
        ∧ (d.xptRcv (xptKey chip.toNat c (2 + cls))).due = false
        ∧ (Tab.get [] (d.port p).q (2 + cls)).length = (Tab.get [] (s.dev.port p).q (2 + cls)).length + 1
        ∧ KeepsRegs s.dev d ∧ KeepsMemory s.dev d))
    ∧ (∀ k, s.dev.xptIn.find? (fun k => k.ttype == 1) = some k →
        (Tab.get ({} : XptTx) s.dev.xptTx (xptKey k.src k.tctx (bits k.w2 63 62))).waiting = [] →
      Completes .ackReceive s (fun d =>
        (∀ u ∈ (Tab.get ({} : XptTx) d.xptTx (xptKey k.src k.tctx (bits k.w2 63 62))).unacked,
          (bits k.w2 15 0 + 65536 - u.1) % 65536 = 0 ∨ 32768 < (bits k.w2 15 0 + 65536 - u.1) % 65536)
        ∧ d.xptIn.length + 1 = s.dev.xptIn.length ∧ KeepsRegs s.dev d ∧ KeepsMemory s.dev d))
    ∧ (∀ (loc : Fin 33) k, (Tab.get [] s.dev.endIn loc).find? (fun k => k.cls == 2) = some k → k.via % 2 = 0 →
        let len := bits k.w2 55 47 + 1
        let a := bits k.w2 46 0
        s.dev.pageCopying a len = false →
        ((∀ i < len, bulkMaps (a + i) = true ∧ (fanAt (a + i)).any (fun x =>
              !((s.dev.ftOwners x.1 (x.2 / 16 % 4096)).all (fun c => s.dev.midWritable x.1 c (x.2 / 16 / 4096)))) = true) →
          Completes (.bulkWrite loc) s (fun d => KeepsMemory s.dev d))
        ∧ ((∀ i < len, bulkMaps (a + i) = true ∧ fanAt (a + i) = none) →
      Completes (.bulkWrite loc) s (fun d => d.ldBytes a len = (List.range len).map (fun i => k.data.flatten.getD i 0)
        ∧ KeepsMemoryBut a len s.dev d
        ∧ d.fld RIM_COMPL (k.tctx * 256 + bits k.w2 63 56) RIM_COMPL_BYTES
          = (s.dev.fld RIM_COMPL (k.tctx * 256 + bits k.w2 63 56) RIM_COMPL_BYTES + len) % 2 ^ 48
        ∧ KeepsRegsBut [RIM_COMPL.key (k.tctx * 256 + bits k.w2 63 56)] s.dev d)))

/-- R314, R317, R318, R412: the rim's registers and reset. -/
def Obligations.RimTableAndReset : Prop :=
  ∀ (who : Requester) (v : W64) (s : State),
    let i := s.dev.fld RIM_TAB_SEL 0 RIM_TAB_SEL_INDEX
    let ver := s.dev.fld RIM_TAB_SEL 0 RIM_TAB_SEL_VERSION
    ((s.dev.rimOwners i).any s.dev.confidential = false →
      (s.dev.rimEntry ver i < 2 ^ 128 → Completes .rimTabLoRead s (fun d =>
        (d.rd RIM_TAB_LO 0).toNat + (d.rd RIM_TAB_HI 0).toNat * 2 ^ 64 = s.dev.rimEntry ver i
        ∧ KeepsRegsBut [RIM_TAB_LO.key 0, RIM_TAB_HI.key 0] s.dev d ∧ KeepsMemory s.dev d))
      ∧ ((s.dev.rimOwners i).all (fun c => s.dev.rimWritable c ver) = true →
        Completes (.rimTabLoWrite who .whole v) s (fun d => d.rimEntry ver i = (v.toNat + s.dev.rimHeld.toNat * 2 ^ 64) / 2 ^ 51 * 2 ^ 51
          ∧ (∀ w k, w < 2 → k < 16384 → (w, k) ≠ (ver, i) → d.rimEntry w k = s.dev.rimEntry w k)
          ∧ KeepsRegsBut [RIM_TAB_LO.key 0] s.dev d ∧ KeepsMemory s.dev d))
      ∧ ((s.dev.rimOwners i).all (fun c => s.dev.rimWritable c ver) = false →
        Completes (.rimTabLoWrite who .whole v) s (fun d => d.rimTab = s.dev.rimTab ∧ d.fld RIM_STATUS 0 RIM_STATUS_WR_BUSY = 1
          ∧ KeepsRegsBut [RIM_TAB_LO.key 0, RIM_STATUS.key 0] s.dev d ∧ KeepsMemory s.dev d)))
    ∧ (viaPf who = true → (s.dev.rimOwners i).any s.dev.confidential = true →
      Completes (.rimTabLoWrite who .whole v) s (fun d => d.rimTab = s.dev.rimTab ∧ KeepsMemory s.dev d))
    ∧ Completes (.rimTabHiWrite .whole v) s (fun d => d.rimHeld = v ∧ KeepsRegs s.dev d ∧ KeepsMemory s.dev d)
    ∧ (∀ (c : Ctx) (x : W32),
        (RIM_TAB_REGION_BASE.get (x.setWidth 64) + RIM_TAB_REGION_COUNT.get (x.setWidth 64) ≤ 16384 →
          Completes (.rimTabRegionWrite c x) s (fun d =>
            d.fld RIM_TAB_REGION c RIM_TAB_REGION_BASE = RIM_TAB_REGION_BASE.get (x.setWidth 64)
            ∧ d.fld RIM_TAB_REGION c RIM_TAB_REGION_COUNT = RIM_TAB_REGION_COUNT.get (x.setWidth 64)
            ∧ KeepsRegsBut [RIM_TAB_REGION.key c] s.dev d ∧ KeepsMemory s.dev d))
        ∧ (RIM_TAB_REGION_BASE.get (x.setWidth 64) + RIM_TAB_REGION_COUNT.get (x.setWidth 64) > 16384 →
          Completes (.rimTabRegionWrite c x) s (fun d => d.fld RIM_STATUS 0 RIM_STATUS_CFG_ERR = 1
            ∧ KeepsRegsBut [RIM_STATUS.key 0] s.dev d ∧ KeepsMemory s.dev d)))
    ∧ (∀ (k : Fin 2) (j : BitVec 14), Completes (.rimTableRewrite k j) s (fun d => k.val * 16384 + j.toNat ∉ d.rimBad
        ∧ (s.dev.rimLost.lookup (k.val * 16384 + j.toNat) = none → d.rimTab = s.dev.rimTab ∧ KeepsRegs s.dev d)
        ∧ (∀ x, s.dev.rimLost.lookup (k.val * 16384 + j.toNat) = some x →
            d.rimEntry k j.toNat = x ∧ ∀ y ∈ d.rimLost, y.1 ≠ k.val * 16384 + j.toNat)
        ∧ KeepsMemory s.dev d))
    ∧ ((∀ c : Ctx, (s.dev.gen c).running = true → s.dev.flag USH_STATUS c USH_STATUS_PLACED = false) →
      Completes .rimReset s (fun d => d.pkIn = [] ∧ d.swIn = [] ∧ d.gwIn = [] ∧ d.rimIn = [] ∧ d.xptIn = []
        ∧ d.rimTab = []
        ∧ (Tab.sorted s.dev.rimTab = true → ∀ e, Tab.get 0 s.dev.rimTab e ≠ 0 → Tab.get 0 d.rimLost e = Tab.get 0 s.dev.rimTab e)
        ∧ Counted RST_CNT 2 1 s.dev d ∧ KeepsMemory s.dev d))


/-! ## Sensor ingress (chapter 9) -/

/-- R319, R320, R322, R323, R326, R342, R343: packets and handshakes of sensor inputs. -/
def Obligations.SensorPacketsAndHandshakes : Prop :=
  ∀ (now : Nat) (s : State),
    (∀ (n : Fin 4) (hdr : W32) (bytes : List Byte) (nows : List Nat), s.dev.flag SNS_CSI_CTRL n SNS_CSI_CTRL_EN = true →
      (csiHeader hdr = none → Completes (.csiPacketReceive n hdr bytes nows) s (fun d =>
        Counted SNS_DP (4 * n.val) 1 s.dev d ∧ d.swIn = s.dev.swIn ∧ KeepsMemory s.dev d))
      ∧ (∀ v fixed, csiHeader hdr = some (v, fixed) →
        let i := 4 * n.val + (if v / 2 ^ 24 ≠ 0 then 0 else v / 64 % 4)
        (v % 64 < 16 → Completes (.csiPacketReceive n hdr bytes nows) s (fun d =>
          Counted SNS_PC (3 * 32 + i) 1 s.dev d ∧ d.swIn = s.dev.swIn ∧ KeepsMemory s.dev d))
        ∧ (16 ≤ v % 64 → (v % 64 < 0x30 ∨ v / 2 ^ 24 ≠ 0) → Completes (.csiPacketReceive n hdr bytes nows) s (fun d =>
          Counted SNS_DP (1 * 32 + i) 1 s.dev d ∧ Counted SNS_PC (2 * 32 + i) 1 s.dev d
          ∧ d.swIn = s.dev.swIn ∧ KeepsMemory s.dev d))
        ∧ (s.dev.flag SNS_IN_CFG i SNS_IN_CFG_EN = true → v % 64 = 0x30 → v / 2 ^ 24 = 0 →
         (s.dev.fld SNS_IN_CFG i SNS_IN_CFG_DT_MASK).testBit 0 = true →
         (Tab.get (0, 0) s.dev.csi n).2 = 0 → s.dev.fld SNS_LAYOUT_A i SNS_LAYOUT_A_WSIZE = 1 → v / 256 % 65536 = 4 → bytes.length = 6 →
         crc 16 0x1021 0xFFFF 0 true true (bytes.take 4) = at_ bytes 4 2 → s.dev.fld SNS_LAYOUT_A i SNS_LAYOUT_A_TYPE_W ≠ 0 →
         s.dev.fld SNS_LAYOUT_A i SNS_LAYOUT_A_TB_TYPE ≠ s.dev.fld SNS_LAYOUT_A i SNS_LAYOUT_A_EV_TYPE →
         bitField (at_ bytes 0 4) (s.dev.fld SNS_LAYOUT_A i SNS_LAYOUT_A_TYPE_POS) (min 8 (s.dev.fld SNS_LAYOUT_A i SNS_LAYOUT_A_TYPE_W))
           = s.dev.fld SNS_LAYOUT_A i SNS_LAYOUT_A_TB_TYPE →
         Completes (.csiPacketReceive n hdr bytes nows) s (fun d =>
           (d.snsIn i).tbase = bitField (at_ bytes 0 4) (s.dev.fld SNS_LAYOUT_B i SNS_LAYOUT_B_TB_POS)
             (s.dev.fld SNS_LAYOUT_B i SNS_LAYOUT_B_TB_W) ∧ d.swIn = s.dev.swIn ∧ KeepsMemory s.dev d))))
    ∧ (∀ (i : Fin 2) (a : BitVec 24),
        let x := Tab.get ({} : Aeri) s.dev.aeri i
        let free := s.dev.snsFull (16 + i) = false ∧ s.dev.flag SNS_IN_CFG (16 + i) SNS_IN_CFG_EN = true
        (x.req = false → x.ack = false → free → Completes (.aeriReqRise i a now) s (fun d =>
          (Tab.get ({} : Aeri) d.aeri i).req = true ∧ (Tab.get ({} : Aeri) d.aeri i).ack = true
          ∧ (Tab.get ({} : Aeri) d.aeri i).held = none ∧ KeepsMemory s.dev d))
        ∧ (x.req = false → x.ack = false → s.dev.snsFull (16 + i) = true → Completes (.aeriReqRise i a now) s (fun d =>
          (Tab.get ({} : Aeri) d.aeri i).req = true ∧ (Tab.get ({} : Aeri) d.aeri i).ack = false
          ∧ (Tab.get ({} : Aeri) d.aeri i).held = some a.toNat ∧ KeepsRegs s.dev d ∧ KeepsMemory s.dev d))
        ∧ (∀ k, x.held = some k → free → Completes (.aeriAckRaise i now) s (fun d =>
          (Tab.get ({} : Aeri) d.aeri i).ack = true ∧ (Tab.get ({} : Aeri) d.aeri i).held = none ∧ KeepsMemory s.dev d))
        ∧ Completes (.aeriReqFall i) s (fun d => (Tab.get ({} : Aeri) d.aeri i).req = false
          ∧ (Tab.get ({} : Aeri) d.aeri i).ack = false ∧ KeepsRegs s.dev d ∧ KeepsMemory s.dev d)
        ∧ (x.req = true → x.ack = true → Completes (.aeriHsTimeout i) s (fun d =>
          d.fld SNS_IN_STATUS (16 + i) SNS_IN_STATUS_HS_ERR = 1 ∧ (Tab.get ({} : Aeri) d.aeri i).ack = true
          ∧ KeepsRegsBut [SNS_IN_STATUS.key (16 + i), SNS_INT_STATUS.key 0] s.dev d ∧ KeepsMemory s.dev d)))

/-- R18, R321, R329, R331, R337, R339: the sensors' registers. -/
def Obligations.SensorRegisterWrites : Prop :=
  ∀ (s : State),
    (∀ (i : Fin 18) (v : W64), s.dev.flag SNS_IN_CFG i SNS_IN_CFG_EN = false → SNS_IN_CFG_EN.get v = 1 →
      Completes (.snsInCfgWrite i .whole v) s (fun d => (d.snsIn i).off = none ∧ (d.snsIn i).tmax = none ∧ (d.snsIn i).alive = false
        ∧ (d.snsIn i).bucket = none ∧ d.fld SNS_IN_CFG i SNS_IN_CFG_CTX = SNS_IN_CFG_CTX.get v
        ∧ KeepsRegsBut [SNS_IN_CFG.key i] s.dev d ∧ KeepsMemory s.dev d))
    ∧ (∀ (n : Fin 4) (v : W32), s.dev.flag SNS_CSI_CTRL n SNS_CSI_CTRL_EN = false → SNS_CSI_CTRL_EN.get (v.setWidth 64) = 1 →
      Completes (.snsCsiCtrlWrite n v) s (fun d =>
        Tab.get (0, 0) d.csi n = (min 2 (SNS_CSI_CTRL_LANES.get (v.setWidth 64)), SNS_CSI_CTRL_TRAILER.get (v.setWidth 64) % 3)
        ∧ KeepsRegsBut [SNS_CSI_CTRL.key n] s.dev d ∧ KeepsMemory s.dev d))
    ∧ (∀ (now : Nat) (x : BitVec 20),
        let e := s.dev.fld SNS_PIXEL_APER x.toNat SNS_PIXEL_APER_ENTRY
        let age := (now / 400 + 32768 - e % 32768) % 32768
        Completes (.pixelScan now) s (fun d =>
          (16384 ≤ age → (d.fld SNS_PIXEL_APER x.toNat SNS_PIXEL_APER_ENTRY).testBit 15 = false)
          ∧ (age < 16384 → d.fld SNS_PIXEL_APER x.toNat SNS_PIXEL_APER_ENTRY = e) ∧ KeepsMemory s.dev d))
    ∧ (∀ (n : Fin 4) (v w : W64), Completes (.crcParamWrite n .whole v) s (fun d => d.crcHeld.lookup n.val
          = some (CRC_PARAM.written ((s.dev.crcHeld.lookup n.val).getD (s.dev.rd CRC_PARAM n)) v (halfCover .whole))
          ∧ KeepsRegs s.dev d ∧ KeepsMemory s.dev d)
      ∧ (8 ≤ CRC_CFG_WIDTH.get w → CRC_CFG_WIDTH.get w ≤ 32 → Completes (.crcCfgWrite n .whole w) s (fun d =>
          (∃ cfg param, d.crcDue.lookup n.val = some (cfg, param) ∧ CRC_CFG_WIDTH.get cfg = CRC_CFG_WIDTH.get w
            ∧ param = (s.dev.crcHeld.lookup n.val).getD (s.dev.rd CRC_PARAM n)) ∧ d.crcHeld.lookup n.val = none
          ∧ KeepsRegs s.dev d ∧ KeepsMemory s.dev d))
      ∧ (CRC_CFG_WIDTH.get w < 8 ∨ 32 < CRC_CFG_WIDTH.get w → Completes (.crcCfgWrite n .whole w) s (fun d =>
          d.crcDue = s.dev.crcDue ∧ d.crcHeld.lookup n.val = none ∧ d.fld CRC_STATUS n CRC_STATUS_CFG_ERR = 1
          ∧ KeepsRegsBut [CRC_STATUS.key n] s.dev d ∧ KeepsMemory s.dev d)))


/-! ## Host attachment and sideband (chapter 10) -/

/-- R348, R349, R354, R355, R358, R362: event rings. -/
def Obligations.EventRingsFollowTheirPointers : Prop :=
  ∀ (c : Ctx) (j : Fin 4) (v : W32) (w : W64) (s : State),
    let o := c.val * 4 + j.val
    let size := s.dev.fld HST_INJ_CTRL c HST_INJ_CTRL_SIZE
    let n := ringEntries size
    let m := ringEntries (s.dev.fld HST_OUT_CTRL o HST_OUT_CTRL_SIZE)
    let h := s.dev.fld HST_INJ_PTR c HST_INJ_PTR_HEAD
    let t := s.dev.fld HST_INJ_PTR c HST_INJ_PTR_TAIL
    let tail := HST_INJ_PTR_TAIL.get (v.setWidth 64)
    let head := HST_OUT_PTR_HEAD.get (v.setWidth 64)
    (tail < n → Completes (.injTailWrite c v) s (fun d => d.fld HST_INJ_PTR c HST_INJ_PTR_TAIL = tail
        ∧ d.fld HST_INJ_PTR c HST_INJ_PTR_HEAD = h ∧ KeepsRegsBut [HST_INJ_PTR.key c] s.dev d ∧ KeepsMemory s.dev d))
    ∧ (n ≤ tail → Completes (.injTailWrite c v) s (fun d => d.fld HST_INJ_CTRL c HST_INJ_CTRL_ERR = 1
        ∧ d.fld HST_INJ_CTRL c HST_INJ_CTRL_SIZE = size ∧ KeepsRegsBut [HST_INJ_CTRL.key c] s.dev d ∧ KeepsMemory s.dev d))
    ∧ (s.dev.flag HST_INJ_CTRL c HST_INJ_CTRL_EN = false → HST_INJ_CTRL_EN.get (v.setWidth 64) = 1 →
      Completes (.injCtrlWrite c v) s (fun d => d.fld HST_INJ_PTR c HST_INJ_PTR_HEAD = 0 ∧ d.fld HST_INJ_PTR c HST_INJ_PTR_TAIL = 0
        ∧ d.fld HST_INJ_CTRL c HST_INJ_CTRL_EN = 1 ∧ d.fld HST_INJ_CTRL c HST_INJ_CTRL_SIZE = HST_INJ_CTRL_SIZE.get (v.setWidth 64)
        ∧ KeepsRegsBut [HST_INJ_CTRL.key c, HST_INJ_PTR.key c] s.dev d ∧ KeepsMemory s.dev d))
    ∧ (s.dev.flag HST_INJ_CTRL c HST_INJ_CTRL_EN = true → size ≠ 0 → s.dev.injStopped.contains c.val = false →
        s.dev.dmaOk (s.dev.fnOf c) = true → Tab.get 0 s.dev.injOut c = 0 → h < n → t < n → h ≠ t →
      Completes (.injFetch c) s (fun d => Tab.get 0 d.injOut c = min 512 (if h ≤ t then t - h else n - h)
        ∧ KeepsRegs s.dev d ∧ KeepsMemory s.dev d))
    ∧ (0 < Tab.get 0 s.dev.injOut c → Completes (.injFetchComplete c none) s (fun d => d.fld HST_INJ_CTRL c HST_INJ_CTRL_ERR = 1
        ∧ d.outs = s.dev.outs ++ [.aer (s.dev.fnOf c) false] ∧ d.swIn = s.dev.swIn ∧ Tab.get 0 d.injOut c = 0
        ∧ KeepsRegsBut [HST_INJ_CTRL.key c] s.dev d ∧ KeepsMemory s.dev d))
    ∧ (∀ bs : List Byte, Tab.get 0 s.dev.injOut c = 1 → bs.length = 8 → w = BitVec.ofNat 64 (leNat bs) → h < n →
      ((evKind w = 1 ∨ evKind w = 2 ∨ evKind w = 3) → (s.dev.gen c).running = true →
        Completes (.injFetchComplete c (some bs)) s (fun d => Tab.get [] d.swIn 7 = Tab.get [] s.dev.swIn 7 ++ [⟨w, c, 1, none, 0, none⟩]
          ∧ d.fld HST_INJ_PTR c HST_INJ_PTR_HEAD = (h + 1) % n ∧ d.fld HST_INJ_PTR c HST_INJ_PTR_TAIL = t
          ∧ KeepsRegsBut [HST_INJ_PTR.key c] s.dev d ∧ KeepsMemory s.dev d))
      ∧ (evKind w = 0 → Completes (.injFetchComplete c (some bs)) s (fun d => d.swIn = s.dev.swIn
          ∧ Counted HST_DP (c.val * 2 + 1) 1 s.dev d ∧ d.fld HST_INJ_PTR c HST_INJ_PTR_HEAD = (h + 1) % n ∧ KeepsMemory s.dev d)))
    ∧ (head < m → Completes (.outHeadWrite c j v) s (fun d => d.fld HST_OUT_PTR o HST_OUT_PTR_HEAD = head
        ∧ KeepsRegsBut [HST_OUT_PTR.key o] s.dev d ∧ KeepsMemory s.dev d))
    ∧ (m ≤ head → Completes (.outHeadWrite c j v) s (fun d => d.fld HST_OUT_CTRL o HST_OUT_CTRL_ERR = 1
        ∧ KeepsRegsBut [HST_OUT_CTRL.key o] s.dev d ∧ KeepsMemory s.dev d))
    ∧ (s.dev.flag HST_OUT_CTRL o HST_OUT_CTRL_EN = false → HST_OUT_CTRL_EN.get w = 1 →
      Completes (.outCtrlWrite c j .whole w) s (fun d => d.fld HST_OUT_PTR o HST_OUT_PTR_HEAD = 0
        ∧ d.fld HST_OUT_PTR o HST_OUT_PTR_TAIL = 0 ∧ Tab.get ({} : OutRing) d.outRings o = {}
        ∧ d.fld HST_OUT_CTRL o HST_OUT_CTRL_THRESH = HST_OUT_CTRL_THRESH.get w
        ∧ KeepsRegsBut [HST_OUT_CTRL.key o, HST_OUT_PTR.key o] s.dev d ∧ KeepsMemory s.dev d))

/-- R363 to R365, R445, R566: the SMBus target and the TAP. The PEC polynomial, and that a TAP reset selects IDCODE and BYPASS captures
0, are PRESUMED (log entry 17). -/
def Obligations.SidebandPortsAnswer : Prop :=
  ∀ (pec low : Bool) (s : State),
    (s.dev.phase ≠ .off →
    let sends := fun (d : Dev) (code : Nat) (data : List Byte) =>
      (∃ tail, d.outs = s.dev.outs ++ [.smb (data ++ tail)] ∧ tail = if pec then [smbPec s.dev.smbAddr code data] else [])
      ∧ KeepsRegs s.dev d ∧ KeepsMemory s.dev d
    Completes (.smbStatusRead pec) s (fun d => ∃ b : Byte, sends d 0 [b]
        ∧ b.getLsbD 0 = s.dev.flag GLB_BOOT 0 GLB_BOOT_READY ∧ b.getLsbD 1 = s.dev.faultN
        ∧ b.getLsbD 2 = s.dev.flag PWR_THERM_STATUS 0 PWR_THERM_STATUS_ALERT ∧ b.getLsbD 3 = s.dev.flag PWR_TEMP 0 PWR_TEMP_STALE)
    ∧ Completes (.smbHottestRead pec) s (fun d => sends d 1 (leBytes 2 (s.dev.fld PWR_THERM_STATUS 0 PWR_THERM_STATUS_TEMP)))
    ∧ (∀ n : Fin 16, Completes (.smbSensorRead n pec) s (fun d => sends d (2 + n) (leBytes 2 (s.dev.fld PWR_TEMP n PWR_TEMP_TEMP))))
    ∧ Completes (.smbPowerRead pec) s (fun d => sends d 0x20 (leBytes 2 (s.dev.fld PWR_PKG_POWER 0 PWR_PKG_POWER_AVG)))
    ∧ (∀ k : Fin 4, Completes (.smbRailRead k pec) s (fun d => sends d (0x21 + k) (leBytes 2 (Tab.get 0 s.dev.rails k))))
    ∧ Completes (.smbRecordsRead pec) s (fun d => sends d 0x30 (leBytes 2 s.dev.barker.log.length))
    ∧ Completes (.smbSerialRead pec) s (fun d => sends d 0x40 (8 :: leBytes 8 s.fuses.serial.toNat))
    ∧ Completes (.smbFwVersionRead pec) s (fun d => sends d 0x41 (4 :: leBytes 4 s.dev.fw.version))
    ∧ (∀ code : BitVec 8, smbListed code.toNat = false → Completes (.smbUnknownCode code) s (fun d =>
        d.outs = s.dev.outs ++ [.smbNack] ∧ KeepsRegs s.dev d ∧ KeepsMemory s.dev d))
    ∧ Completes .smbClockLowTimeout s (fun d => d.outs = s.dev.outs ++ [.smbRelease] ∧ KeepsRegs s.dev d ∧ KeepsMemory s.dev d)
    ∧ (∀ b, b ≠ smbSendPec s.dev.smbAddr 0xF0 → Completes (.smbClearAlert (some b)) s (fun d => d = s.dev))
    ∧ (∀ pec', pec' ∈ [none, some (smbSendPec s.dev.smbAddr 0xF0)] → s.dev.hottest < s.dev.alertAt - 256 * max 1 (s.dev.fld PWR_THERM_CFG 0 PWR_THERM_CFG_HYST_C) →
        Completes (.smbClearAlert pec') s (fun d => d.fld PWR_THERM_STATUS 0 PWR_THERM_STATUS_ALERT = 0
          ∧ KeepsRegsBut [PWR_THERM_STATUS.key 0] s.dev d ∧ KeepsMemory s.dev d)))
    ∧ (
    let drives := fun (dr pins pulse : Nat) (d : Dev) => d = { s.dev with tap := d.tap } ∧ d.tap.dr = dr ∧ d.tap.pins = pins
      ∧ d.tap.pulse = pulse ∧ d.tap.boundary = s.dev.tap.boundary
    let ident := fun (d : Dev) => d = { s.dev with tap := d.tap } ∧ d.tap.dr = 1 ∧ d.tap.pins = 0
      ∧ d.tap.data = (List.range 32).map (fun i => (0x1A715F3D : Nat).testBit i)
    (s.dev.lifecycle ≠ 1 → Completes (.extest low) s (drives 2 1 0) ∧ Completes (.clamp low) s (drives 0 1 0)
      ∧ Completes (.highz low) s (drives 0 2 0) ∧ Completes (.extestPulse low) s (drives 2 1 1)
      ∧ Completes (.extestTrain low) s (drives 2 1 2))
    ∧ (∀ sampled shifted : List Bool, Completes (.samplePreload sampled shifted) s (fun d =>
        d = { s.dev with tap := d.tap } ∧ d.tap.dr = 2 ∧ d.tap.pins = 0 ∧ d.tap.data = sampled ∧ d.tap.boundary = shifted))
    ∧ Completes .idcode s ident ∧ Completes .tapReset s ident
    ∧ (∀ code : BitVec 8, 6 < code.toNat → code.toNat ≠ 0xFF →
        (s.dev.dbgActive.testBit 3 = false → Completes (.privateTapInstruction code) s (drives 0 0 0))
        ∧ (s.dev.dbgActive.testBit 3 = true → exec (.privateTapInstruction code) s = .refused .privateTap)))

/-- R365: board test of a device in service. -/
def Obligations.DeployedPinsAreNotSeized : Prop :=
  ∀ (s : State), s.dev.lifecycle = 1 →
    let bypassed := fun (ir : Nat) (d : Dev) => d = { s.dev with tap := d.tap } ∧ d.tap.ir = ir ∧ d.tap.dr = 0 ∧ d.tap.pins = 0
      ∧ d.tap.pulse = 0 ∧ d.tap.data = [false] ∧ d.tap.boundary = s.dev.tap.boundary
    let drives := fun (dr pins pulse : Nat) (d : Dev) => d = { s.dev with tap := d.tap } ∧ d.tap.dr = dr ∧ d.tap.pins = pins
      ∧ d.tap.pulse = pulse ∧ d.tap.boundary = s.dev.tap.boundary
    Completes .bypass s (bypassed 0xFF)
    ∧ Completes (.extest false) s (bypassed 0) ∧ Completes (.extest true) s (drives 2 1 0)
    ∧ Completes (.clamp false) s (bypassed 3) ∧ Completes (.clamp true) s (drives 0 1 0)
    ∧ Completes (.highz false) s (bypassed 4) ∧ Completes (.highz true) s (drives 0 2 0)
    ∧ Completes (.extestPulse false) s (bypassed 5) ∧ Completes (.extestPulse true) s (drives 2 1 1)
    ∧ Completes (.extestTrain false) s (bypassed 6) ∧ Completes (.extestTrain true) s (drives 2 1 2)

/-- R347, R348, R350, R424, R478: PCIe events. What a PCIe reset does to Bus Master Enable and the VF count is PRESUMED (log entry 7). -/
def Obligations.PcieEventsReachTheDevice : Prop :=
  ∀ (x : BootFind) (c : Ctx) (s : State),
    Completes .perstAssert s (fun d => d.pcie.link = false ∧ d.pcie.perst = true ∧ d.cmds = s.dev.cmds ∧ d.cqs = [] ∧ d.outRings = [] ∧ d.injOut = []
        ∧ d.gens = s.dev.gens ∧ d.phase = s.dev.phase ∧ KeepsMemory s.dev d)
    ∧ (s.dev.pcie.perst = true → (s.dev.phase = .held ∨ s.dev.phase = .off) → Completes (.perstDeassert x) s (fun d =>
        d.pcie.perst = false ∧ d.wakeN = false ∧ KeepsRegs s.dev d ∧ KeepsMemory s.dev d))
    ∧ Completes .pcieLinkDown s (fun d => d = { s.dev with pcie := { s.dev.pcie with link := false } })
    ∧ (∀ (vfs : Fin 9) (bm d3 mx : BitVec 9) (masked : List (Fin 9 × Fin 64)), s.dev.pcie.perst = false → s.dev.phase ≠ .hibernate → s.dev.phase ≠ .off →
        Completes (.pcieLinkUp vfs bm d3 mx masked) s (fun d => d.pcie.link = true ∧ d.pcie.perst = false ∧ d.pcie.numVfs = vfs
          ∧ d.pcie.busMaster = bm.toNat ∧ d.pcie.d3hot = d3.toNat ∧ d.pcie.msix = mx.toNat
          ∧ (∀ v ∈ d.pcie.waiting, d.msixOn v = false) ∧ KeepsRegs s.dev d ∧ KeepsMemory s.dev d))
    ∧ (s.dev.awake = false → Completes (.hotReset x) s (fun d => d = s.dev) ∧ Completes (.pfFlr x) s (fun d => d = s.dev))
    ∧ (s.dev.awake = true → Completes (.hotReset x) s (fun d => d = s.dev.warmReset s.fuses x 4)
        ∧ Completes (.pfFlr x) s (fun d => d = s.dev.warmReset s.fuses x 5))
    ∧ (s.dev.vfOn c = false → Completes (.vfFlr c) s (fun d => d = s.dev))
    ∧ (s.dev.vfOn c = true → Completes (.vfFlr c) s (fun d => (d.gen c).running = false ∧ d.ctxReset.contains c.val = true
        ∧ Tab.get [] d.descs c = [] ∧ Tab.get 0 d.injOut c = 0 ∧ d.injStopped.contains c.val = false
        ∧ (∀ j : Fin 4, Tab.get ({} : OutRing) d.outRings (c.val * 4 + j.val) = {})))

/-! ## Commands and queues (chapter 11) -/

/-- R366 to R371, R373, R374, R376, R388: submission and completion queues. -/
def Obligations.QueuesTakeCommandsAndGiveRecords : Prop :=
  ∀ (q : Fin 24) (v : W32) (w : W64) (s : State),
    let n := queueEntries (s.dev.fld HST_SQ_CTRL q HST_SQ_CTRL_SIZE)
    let m := queueEntries (s.dev.fld HST_CQ_CTRL q HST_CQ_CTRL_SIZE)
    let tail := HST_SQ_PTR_TAIL.get (v.setWidth 64)
    let head := HST_CQ_PTR_HEAD.get (v.setWidth 64)
    let takes := fun (stage status : Nat) (d : Dev) => (∃ c, d.cmds = s.dev.cmds ++ [c] ∧ c.id = s.dev.nextCmd ∧ c.sq = q.val
        ∧ c.stage = stage ∧ c.status = status) ∧ d.nextCmd = s.dev.nextCmd + 1
        ∧ d.fld HST_SQ_PTR q HST_SQ_PTR_HEAD = (s.dev.fld HST_SQ_PTR q HST_SQ_PTR_HEAD + 1) % n ∧ KeepsMemory s.dev d
    (tail < n → Completes (.sqTailWrite q v) s (fun d => d.fld HST_SQ_PTR q HST_SQ_PTR_TAIL = tail
        ∧ KeepsRegsBut [HST_SQ_PTR.key q] s.dev d ∧ KeepsMemory s.dev d))
    ∧ (n ≤ tail → Completes (.sqTailWrite q v) s (fun d => d.fld HST_SQ_CTRL q HST_SQ_CTRL_ERR = 1
        ∧ KeepsRegsBut [HST_SQ_CTRL.key q] s.dev d ∧ KeepsMemory s.dev d))
    ∧ (head < m → Completes (.cqHeadWrite q v) s (fun d => d.fld HST_CQ_PTR q HST_CQ_PTR_HEAD = head
        ∧ KeepsRegsBut [HST_CQ_PTR.key q] s.dev d ∧ KeepsMemory s.dev d))
    ∧ (m ≤ head → Completes (.cqHeadWrite q v) s (fun d => d.fld HST_CQ_CTRL q HST_CQ_CTRL_ERR = 1
        ∧ KeepsRegsBut [HST_CQ_CTRL.key q] s.dev d ∧ KeepsMemory s.dev d))
    ∧ (s.dev.flag HST_SQ_CTRL q HST_SQ_CTRL_EN = false → HST_SQ_CTRL_EN.get (v.setWidth 64) = 1 →
      Completes (.sqCtrlWrite q v) s (fun d => d.rd HST_SQ_PTR q = 0 ∧ d.fld HST_SQ_STATUS q HST_SQ_STATUS_ALIVE_VALID = 0
        ∧ d.fld HST_SQ_CTRL q HST_SQ_CTRL_SIZE = HST_SQ_CTRL_SIZE.get (v.setWidth 64)
        ∧ KeepsRegsBut [HST_SQ_CTRL.key q, HST_SQ_PTR.key q, HST_SQ_STATUS.key q] s.dev d ∧ KeepsMemory s.dev d))
    ∧ (s.dev.flag HST_CQ_CTRL q HST_CQ_CTRL_EN = false → HST_CQ_CTRL_EN.get w = 1 →
      Completes (.cqCtrlWrite q .whole w) s (fun d => d.rd HST_CQ_PTR q = 0 ∧ Tab.get ({} : CqState) d.cqs q = {}
        ∧ d.fld HST_CQ_CTRL q HST_CQ_CTRL_SIZE = HST_CQ_CTRL_SIZE.get w
        ∧ KeepsRegsBut [HST_CQ_CTRL.key q, HST_CQ_PTR.key q] s.dev d ∧ KeepsMemory s.dev d))
    ∧ (s.dev.sqTakes q = true → Completes (.commandTake q none) s (fun d => d.fld HST_SQ_CTRL q HST_SQ_CTRL_ERR = 1
        ∧ d.cmds = s.dev.cmds ∧ d.outs = s.dev.outs ++ [.aer (s.dev.queueFn q) false]
        ∧ KeepsRegsBut [HST_SQ_CTRL.key q] s.dev d ∧ KeepsMemory s.dev d))
    ∧ (∀ b : List Byte, s.dev.sqTakes q = true → b.length = 64 → fenceOk (s.dev.cmdsOf q) (at_ b 1 1) = true →
        (at_ b 60 4 ≠ crc32c (b.take 60) → Completes (.commandTake q (some b)) s (takes 2 0x0100))
        ∧ (at_ b 60 4 = crc32c (b.take 60) → s.dev.flag HST_SQ_STATUS q HST_SQ_STATUS_ALIVE_VALID = true →
            s.dev.fld HST_SQ_STATUS q HST_SQ_STATUS_LAST_ALIVE = at_ b 5 1 → Completes (.commandTake q (some b)) s (takes 2 0x0001))
        ∧ (at_ b 60 4 = crc32c (b.take 60) → s.dev.flag HST_SQ_STATUS q HST_SQ_STATUS_ALIVE_VALID = false →
            s.dev.phase = .ready → at_ b 0 1 = 0 → at_ b 6 2 = 0 → Completes (.commandTake q (some b)) s (fun d => takes 0 0 d
              ∧ d.fld HST_SQ_STATUS q HST_SQ_STATUS_LAST_ALIVE = at_ b 5 1)))
    ∧ (∀ c : Cmd, (s.dev.cmdsOf q).head? = some c → c.stage = 2 → c.remote = none → c.cq < 24 → (∀ y ∈ s.dev.cmds, y.wait = .none) →
        s.dev.cqOpen c.cq = true → s.dev.cqStopped.contains c.cq = false → s.dev.cqFull c.cq = false →
        s.dev.dmaOk (s.dev.queueFn c.cq) = true → s.dev.hibernating = none →
        let t := s.dev.fld HST_CQ_PTR c.cq HST_CQ_PTR_TAIL
        let a := s.dev.fld HST_CQ_BASE c.cq HST_CQ_BASE_ADDR * 4096 + 32 * t
        let ph := (Tab.get ({} : CqState) s.dev.cqs c.cq).phase
        Completes (.cqRecordWrite ⟨q, by omega⟩ true) s (fun d =>
          (∀ i < 32, Tab.get (0 : Byte) d.host (a + i) = (c.record ph).getD i 0)
          ∧ d.fld HST_CQ_PTR c.cq HST_CQ_PTR_TAIL = (t + 1) % queueEntries (s.dev.fld HST_CQ_CTRL c.cq HST_CQ_CTRL_SIZE)
          ∧ d.cmds = s.dev.cmds.filter (fun y => y.id != c.id) ∧ KeepsMemory s.dev d))
    ∧ (s.dev.fld HST_CQ_CTRL q HST_CQ_CTRL_TIMER_US ≠ 0 → 0 < (Tab.get ({} : CqState) s.dev.cqs q).since →
        let iv := s.dev.fld HST_CQ_CTRL q HST_CQ_CTRL_IV
        let fv := if q.val < 8 ∨ s.dev.vfOn (queueCtx q) = false then (0, if iv = 0 then 1 else iv) else (1 + queueCtx q, if 3 < iv then 0 else iv)
        Completes (.cqSignalTimer q) s (fun d => (Tab.get ({} : CqState) d.cqs q).since = 0
          ∧ (s.dev.msixOn fv = true → d.outs = s.dev.outs ++ [.msix fv.1 fv.2] ∧ d.pcie = s.dev.pcie)
          ∧ (s.dev.msixOn fv = false → d.outs = s.dev.outs ∧ fv ∈ d.pcie.waiting) ∧ KeepsRegs s.dev d ∧ KeepsMemory s.dev d))
    ∧ (∀ h b popped, s.dev.phase = .ready → s.dev.popMessage 0 15 = some (h, b, popped) → b.length = 64 → s.dev.cmds = [] →
        (at_ b 60 4 ≠ crc32c (b.take 60) → Completes .remoteCommand s (fun d => ∃ c, d.cmds = popped.cmds ++ [c] ∧ c.stage = 2
          ∧ c.status = 0x0100 ∧ c.remote = some (mhChip h, mhSrc h, at_ b 56 1)))
        ∧ (at_ b 60 4 = crc32c (b.take 60) → s.dev.remoteAlive = [] →
          let ctx := if 0x30 ≤ mhSrc h ∧ mhSrc h ≤ 0x37 then some (mhSrc h - 0x30) else none
          let c := { packetCmd s.dev.nextCmd 24 0 ctx b with remote := some (mhChip h, mhSrc h, at_ b 56 1) }
          popped.packetCheck c = none → Completes .remoteCommand s (fun d =>
            d.cmds = popped.cmds ++ [{ c with held := slowOp c.opcode && popped.rmRestart }] ∧ d.nextCmd = popped.nextCmd + 1
            ∧ d.remoteAlive = [(mhChip h, mhSrc h, at_ b 5 1)] ∧ KeepsMemory s.dev d)))

/-- R376, R378, R382, R383, R389: device and register commands. -/
def Obligations.DeviceCommandsComplete : Prop :=
  ∀ (id now : Nat) (x : Cmd) (f : BootFind) (ok : Bool) (s : State),
    (Ready s.dev id 0x00 x → Records (.nopCmd id) id s 0 0 [] (fun d => KeepsRegs s.dev d ∧ KeepsMemory s.dev d))
    ∧ (s.dev.cmdOf id = none → Completes (.nopCmd id) s (fun d => d = s.dev))
    ∧ (s.dev.cmdOf id = some x → s.dev.mayRun x = false → Completes (.nopCmd id) s (fun d => d = s.dev))
    ∧ (Ready s.dev id 0x01 x → Records (.identify id) id s 0 0
        (leBytes 8 s.fuses.serial.toNat ++ leBytes 4 s.dev.fw.version ++ leBytes 1 (s.dev.fld SEC_LIC 0 SEC_LIC_TILES)
          ++ leBytes 1 (s.dev.fld SEC_LIC 0 SEC_LIC_PORTS) ++ leBytes 1 Config.partMemoryGb
          ++ leBytes 1 (s.dev.fld SEC_LIC 0 SEC_LIC_FEATURES % 8 + s.dev.lifecycle % 4 * 8))
        (fun d => KeepsRegs s.dev d ∧ KeepsMemory s.dev d))
    ∧ (Ready s.dev id 0x02 x →
        let r := (s.dev.started id).load { fuses := s.fuses } x.who (x.p 0 8) (x.p 8 1)
        (x.p 8 1 ≠ 4 → x.p 8 1 ≠ 8 → Records (.readReg id) id s 0x0105 8 [] (fun d => KeepsRegs s.dev d ∧ KeepsMemory s.dev d))
        ∧ (x.p 8 1 = 4 ∨ x.p 8 1 = 8 → Completes (.readReg id) s (fun d => d = r.2.ok id (leBytes 8 r.1))))
    ∧ (Ready s.dev id 0x03 x →
        let v := x.p 16 8 % 2 ^ (8 * x.p 8 1)
        (x.p 8 1 ≠ 4 → x.p 8 1 ≠ 8 → Records (.writeReg id now f) id s 0x0105 8 [] (fun d => KeepsRegs s.dev d ∧ KeepsMemory s.dev d))
        ∧ (x.p 8 1 = 4 ∨ x.p 8 1 = 8 → Completes (.writeReg id now f) s (fun d =>
            d = ((s.dev.started id).store_ { fuses := s.fuses, now := now, find := f } x.who (x.p 0 8) (x.p 8 1) v).ok id [])))
    ∧ (Ready s.dev id 0x04 x →
        (x.p 12 2 = 0 → Records (.readCounters id now ok) id s 0x0104 12 [] (fun d => KeepsRegs s.dev d ∧ KeepsMemory s.dev d))
        ∧ (512 < x.p 12 2 → Records (.readCounters id now ok) id s 0x0105 12 [] (fun d => KeepsRegs s.dev d ∧ KeepsMemory s.dev d))
        ∧ (1 ≤ x.p 12 2 → x.p 12 2 ≤ 512 → (x.p 14 1).testBit 0 = false →
            let r := (s.dev.started id).loads { fuses := s.fuses } x.who (x.p 8 4) (x.p 12 2)
            x.remote = none → r.2.dmaOk x.fn = true → x.p 0 8 % 8 = 0 → Completes (.readCounters id now true) s (fun d =>
              d = (r.2.hostW (x.p 0 8) r.1).ok id (leBytes 8 now))))

/-- R154, R158, R383, R387: running a context. -/
def Obligations.ContextsRunByCommand : Prop :=
  ∀ (id now : Nat) (x : Cmd) (s : State),
    let c := x.ctx
    let g := s.dev.gen c
    let stays := fun (d : Dev) => KeepsRegs s.dev d ∧ KeepsMemory s.dev d
    (ReadyCtx s.dev id 0x12 x → (s.dev.flag USH_STATUS c USH_STATUS_PLACED = false → Records (.startContext id now) id s 0x0301 0x0103 [] stays)
      ∧ (s.dev.flag USH_STATUS c USH_STATUS_PLACED = true → g.running = true → Records (.startContext id now) id s 0x0301 0x0101 [] stays)
      ∧ (s.dev.flag USH_STATUS c USH_STATUS_PLACED = true → g.running = false → Awake s.dev →
          let n := if x.plen = 0 then s.dev.tickOf c else (x.p 0 6 + tickMod - 1) % tickMod
          Records (.startContext id now) id s 0 0 (leBytes 6 (tickSucc n)) (fun d => (d.gen c).running = true ∧ d.tickOf c = n % tickMod
            ∧ KeepsGensBut c s.dev d ∧ KeepsRegsBut [CLP_TICK.key c, CLP_STATUS.key c] s.dev d)))
    ∧ (ReadyCtx s.dev id 0x13 x → (g.running = false → Records (.stopContext id) id s 0 0 (leBytes 6 (s.dev.tickOf c)) stays)
      ∧ (g.running = true → Completes (.stopContext id) s (fun d => (d.gen c).running = false))
      ∧ (g.running = true → s.dev.migrs = [] → Completes (.stopContext id) s (fun d => (d.gen c).running = false ∧ d.tickOf c = s.dev.tickOf c
          ∧ (g.upd = false → s.dev.cmds = [x] → d.waitOf id = some (.drained c)))))
    ∧ (ReadyCtx s.dev id 0x14 x → (1 ≤ x.p 0 4 → x.p 0 4 < 200 → Records (.setTickPeriod id now) id s 0x0105 0 [] stays)
      ∧ (x.p 0 4 = 0 ∨ 200 ≤ x.p 0 4 → (x.p 8 1).testBit 0 = false → Completes (.setTickPeriod id now) s (fun d =>
          d.fld CLP_PHASE c CLP_PHASE_PHASE = x.p 4 4 ∧ (d.gen c).periodDue = g.periodDue ++ [(now + 4, x.p 0 4)]
          ∧ d.waitOf id = some (.edge c (now + 4)) ∧ KeepsRegsBut [CLP_PHASE.key c, CLP_PERIOD.key c] s.dev d ∧ KeepsMemory s.dev d)))
    ∧ (ReadyCtx s.dev id 0x15 x → (s.dev.fld CLP_PERIOD c CLP_PERIOD_PERIOD ≠ 0 → Records (.step id) id s 0x0301 0x010E [] stays)
      ∧ (s.dev.fld CLP_PERIOD c CLP_PERIOD_PERIOD = 0 → g.running = false → Records (.step id) id s 0x0301 0x0102 [] stays)
      ∧ (s.dev.fld CLP_PERIOD c CLP_PERIOD_PERIOD = 0 → g.running = true → x.p 0 2 = 0 →
          Records (.step id) id s 0 0 (leBytes 6 (s.dev.tickOf c)) stays)
      ∧ (s.dev.fld CLP_PERIOD c CLP_PERIOD_PERIOD = 0 → g.running = true → x.p 0 2 ≠ 0 → Completes (.step id) s (fun d =>
          (d.gen c).stepRemain = min 65535 (g.stepRemain + x.p 0 2)
          ∧ d.waitOf id = some (.stepped c ((s.dev.tickOf c + min 65535 (g.stepRemain + x.p 0 2)) % tickMod))
          ∧ KeepsGensBut c s.dev d ∧ KeepsMemory s.dev d)))

/-- R173, R354, R358, R383, R385, R386, R393: context commands. The image layout is a DESIGN CHOICE (log entry 20); what LEARN_CONFIG and EPOCH_CONTROL add to the text is in log entry 19. -/
def Obligations.ContextCommandsAct : Prop :=
  ∀ (id : Nat) (x : Cmd) (ok : Bool) (data : Option (List Byte)) (bs : List Byte) (s : State),
    let c := x.ctx
    let part := x.p 24 1
    let stays := fun (d : Dev) => KeepsRegs s.dev d ∧ KeepsMemory s.dev d
    (ReadyCtx s.dev id 0x16 x → part ≤ 2 →
      (x.p 16 8 % 64 = 0 → part = 1 → (s.dev.gen c).running = true → Records (.snapshot id ok) id s 0x0301 0x0101 [] stays)
      ∧ (x.p 16 8 = 0 → part ≠ 1 → Records (.snapshot id ok) id s 0 0
          (leBytes 8 ((s.dev.started id).image c part).length ++ leBytes 6 (s.dev.lowestWt c)) stays))
    ∧ (ReadyCtx s.dev id 0x17 x → part ≤ 2 → x.p 16 8 = 64 →
      ((s.dev.gen c).running = true → Records (.restore id data) id s 0x0301 0x0101 [] stays)
      ∧ ((s.dev.gen c).running = false → s.dev.flag USH_STATUS c USH_STATUS_PLACED = false → Records (.restore id data) id s 0x0301 0x0103 [] stays)
      ∧ ((s.dev.gen c).running = false → s.dev.flag USH_STATUS c USH_STATUS_PLACED = true → Awake s.dev → (x.p 25 1).testBit 0 = false →
          Supplies s.dev x 0 64 data bs → Records (.restore id data) id s 0 0 [] (fun d =>
            (∀ i < 64, (Tab.get [] d.restore (c * 4 + part)).lookup (x.p 8 8 + i) = bs[i]?) ∧ stays d)))
    ∧ (ReadyCtx s.dev id 0x18 x → (x.p 8 4 = 0 → Records (.injectEvents id data) id s 0 0 (leBytes 8 0) stays)
      ∧ (x.p 8 4 = 1 → Supplies s.dev x 0 8 data bs → (s.dev.gen c).running = true →
          let w := BitVec.ofNat 64 (leNat bs)
          (evKind w = 1 ∨ evKind w = 2 ∨ evKind w = 3) → Records (.injectEvents id data) id s 0 0 (leBytes 4 1 ++ leBytes 4 0) (fun d =>
            Tab.get [] d.swIn 7 = Tab.get [] s.dev.swIn 7 ++ [⟨w, c, 1, none, 0, none⟩] ∧ stays d)))
    ∧ (ReadyCtx s.dev id 0x19 x → (3 < x.p 0 1 → Records (.attachOutput id) id s 0x0105 0 [] stays)
      ∧ (x.p 0 1 ≤ 3 → x.p 8 8 % 4096 ≠ 0 → Records (.attachOutput id) id s 0x0105 8 [] stays)
      ∧ (x.p 0 1 ≤ 3 → x.p 8 8 % 4096 = 0 → x.p 1 1 ≤ 31 →
          let i := c * 4 + x.p 0 1
          Records (.attachOutput id) id s 0 0 [] (fun d => d.fld HST_OUT_BASE i HST_OUT_BASE_ADDR = x.p 8 8 / 4096
            ∧ d.fld HST_OUT_CTRL i HST_OUT_CTRL_SIZE = x.p 1 1 ∧ d.fld HST_OUT_CTRL i HST_OUT_CTRL_EN = x.p 2 1 % 2
            ∧ d.fld HST_OUT_CTRL i HST_OUT_CTRL_THRESH = s.dev.fld HST_OUT_CTRL i HST_OUT_CTRL_THRESH
            ∧ KeepsRegsBut [HST_OUT_BASE.key i, HST_OUT_CTRL.key i, HST_OUT_PTR.key i] s.dev d ∧ KeepsMemory s.dev d)))
    ∧ (ReadyCtx s.dev id 0x30 x → (3 < x.p 0 1 → Records (.learnConfig id data) id s 0x0105 0 [] stays)
      ∧ (x.p 0 1 ≤ 3 → x.p 1 1 ∉ [0, 1, 2, 0x80, 0xFF] → Records (.learnConfig id data) id s 0x0105 1 [] stays)
      ∧ (∀ t : Tile, x.p 0 1 ≤ 3 → x.p 1 1 ≤ 2 → x.p 2 1 ≤ 3 → (x.p 3 1).testBit 0 = false → Awake s.dev → s.dev.tilesOf c = [t.val] →
          (s.dev.tum t).sweep = none → Records (.learnConfig id data) id s 0 0 [] (fun d =>
            (∀ w : Fin 16, d.ld (ruleAddr t c (x.p 0 1) w) 4
              = (libraryRule (x.p 1 1) (x.p 4 1) (x.p 5 1) (x.p 6 1) (x.p 7 1)).getD w 0)
            ∧ (d.fld TUM_CFG (t * 8 + c) TUM_CFG_RULE_VALID).testBit (x.p 0 1) = true
            ∧ d.rd TUM_TRACE (t * 8 + c) = BitVec.ofNat 64 (x.p 16 4)
            ∧ (∀ u : Tile, d.rd TUM_EPOCH_LEN (u * 8 + c) = s.dev.rd TUM_EPOCH_LEN (t * 8 + c)
              ∧ d.rd TUM_EPOCH_BASE (u * 8 + c) = s.dev.rd TUM_EPOCH_BASE (t * 8 + c))
            ∧ KeepsRegsBut ([TUM_CFG.key (t * 8 + c), TUM_TRACE.key (t * 8 + c), TUM_HOMEO.key (t * 8 + c)]
              ++ (List.range 32).flatMap (fun u => [TUM_EPOCH_LEN.key (u * 8 + c), TUM_EPOCH_BASE.key (u * 8 + c)])) s.dev d
            ∧ KeepsMemoryBut (ruleAddr t c (x.p 0 1) 0) 64 s.dev d)))
    ∧ (ReadyCtx s.dev id 0x31 x → (1 < x.p 2 1 → Records (.epochControl id) id s 0x0105 2 [] stays)
      ∧ (x.p 2 1 = 0 → (x.p 3 1).testBit 0 = false → Awake s.dev →
          Records (.epochControl id) id s 0 0 (leBytes 6 ((s.dev.tc 0 c).effect (s.dev.tickOf c) (x.p 4 6))) (fun d =>
            (∀ t : Tile, d.fld TUM_EPOCH_LEN (t * 8 + c) TUM_EPOCH_LEN_LEN = x.p 0 2
              ∧ d.fld TUM_EPOCH_LEN (t * 8 + c) TUM_EPOCH_LEN_MODE = 0) ∧ KeepsMemory s.dev d)))
    ∧ (Ready s.dev id 0x58 x → x.flags.testBit 1 = false → Completes (.mqSend id data) s (fun d => d.waitOf id = some .message
        ∧ (∃ k : Packet, d.pkIn = s.dev.pkIn ++ [k] ∧ k.cls = 3 ∧ k.dst = mhChip (x.p 0 8)) ∧ KeepsMemory s.dev d))

/-- R384, R418, R419, R421, R423: units by command. -/
def Obligations.UnitsRetireAndReturn : Prop :=
  ∀ (id : Nat) (x : Cmd) (sp : Bool) (moves : List Move) (s : State),
    let u := x.unitOf
    let st := (s.dev.unit u.1 u.2.1).1
    (Ready s.dev id 0x20 x →
      (∀ off, u.2.2 = some off → Records (.retireUnit id true moves) id s 0x0105 off [] (fun d => KeepsRegs s.dev d ∧ KeepsMemory s.dev d))
      ∧ (u.2.2 = none → Awake s.dev → st = 2 → Records (.retireUnit id true moves) id s 0 0 (leBytes 4 0) (fun d =>
          d.units = s.dev.units ∧ KeepsRegs s.dev d ∧ KeepsMemory s.dev d))
      ∧ (u.2.2 = none → Awake s.dev → st = 3 → s.dev.cmds = [x] → x.wait = .none →
          Records (.retireUnit id sp moves) id s 0 0 (leBytes 4 0) (fun d => (d.unit u.1 u.2.1).1 = 2 ∧ KeepsMemory s.dev d))
      ∧ (u.2.2 = none → Awake s.dev → u.1 = 4 → st = 0 → s.dev.fld MEM_STATUS 0 MEM_STATUS_SPARES ≠ 0 →
          Completes (.retireUnit id sp moves) s (fun d => (d.unit 4 u.2.1).1 = 1 ∧ d.waitOf id = some (.evacuate 4 u.2.1) ∧ KeepsMemory s.dev d))
      ∧ (u.2.2 = none → Awake s.dev → u.1 = 3 → st = 0 →
          Records (.retireUnit id true moves) id s 0 0 (leBytes 4 0) (fun d => (d.unit 3 u.2.1).1 = 2 ∧ KeepsMemory s.dev d)
          ∧ Records (.retireUnit id false moves) id s 0x0301 0x0106 [] (fun d => d.units = s.dev.units ∧ KeepsRegs s.dev d
            ∧ KeepsMemory s.dev d)))
    ∧ (Ready s.dev id 0x21 x → u.2.2 = none → Awake s.dev →
      (st = 0 ∨ st = 4 → Records (.reinstateUnit id) id s 0 0 [] (fun d => d.units = s.dev.units ∧ KeepsRegs s.dev d ∧ KeepsMemory s.dev d))
      ∧ (st = 1 → Records (.reinstateUnit id) id s 0x0301 0x0106 [] (fun d => d.units = s.dev.units ∧ KeepsRegs s.dev d ∧ KeepsMemory s.dev d))
      ∧ (st = 2 → s.dev.beyond u.1 u.2.1 = false → u.1 ≠ 5 → Completes (.reinstateUnit id) s (fun d => (d.unit u.1 u.2.1).1 = 3
          ∧ d.waitOf id = some (.test u.1 u.2.1) ∧ KeepsMemory s.dev d)))
    ∧ (∀ (ty : Fin 8) (ix : BitVec 48), (s.dev.unit ty ix.toNat).1 = 3 →
      (s.dev.cmds = [x] → x.id = id → x.wait = .test ty ix.toNat → x.stage ≠ 2 →
        (ty = 1 ∨ ty = 3 → Records (.unitTestComplete ty ix true) id s 0 0 [] (fun d => (d.unit ty ix.toNat).1 = (if ty = 3 then 0 else 4)
          ∧ KeepsMemory s.dev d))
        ∧ (ty ≠ 6 → Records (.unitTestComplete ty ix false) id s 0x0301 0x010B [] (fun d => (d.unit ty ix.toNat).1 = 2 ∧ KeepsMemory s.dev d)))
      ∧ ((ty = 3 ∨ ty = 4) → Completes (.unitTestComplete ty ix true) s (fun d => (d.unit ty ix.toNat).1 = 0 ∧ KeepsMemory s.dev d))
      ∧ ((ty = 1 ∨ ty = 2) → Completes (.unitTestComplete ty ix true) s (fun d => (d.unit ty ix.toNat).1 = 4 ∧ KeepsMemory s.dev d))
      ∧ (ty ≠ 6 → Completes (.unitTestComplete ty ix false) s (fun d => (d.unit ty ix.toNat).1 = 2 ∧ KeepsMemory s.dev d)))

/-- R386, R485 to R489, R491 to R493: power states. What WOKE holds beside the last source is DEDUCED (log entry 16). -/
def Obligations.PowerStatesChange : Prop :=
  ∀ (id : Nat) (x : Cmd) (w : Option WakeInput) (f : BootFind) (s : State),
    let cur := s.dev.fld PWR_STATUS 0 PWR_STATUS_STATE
    (Ready s.dev id 0x38 x →
      (3 < x.p 0 1 → Records (.powerState id w) id s 0x0105 0 [] (fun d => KeepsRegs s.dev d ∧ KeepsMemory s.dev d))
      ∧ (x.p 0 1 = 2 → cur = 2 → Records (.powerState id w) id s 0 0 [] (fun d => KeepsRegs s.dev d ∧ KeepsMemory s.dev d))
      ∧ (x.p 0 1 = 1 → x.p 1 1 = 0xFF → x.p 2 1 = 0xFF → cur = 0 → Records (.powerState id w) id s 0 0 [] (fun d =>
          d.fld PWR_STATUS 0 PWR_STATUS_STATE = 1 ∧ KeepsRegsBut [PWR_STATUS.key 0] s.dev d ∧ KeepsMemory s.dev d))
      ∧ (∀ c : Ctx, x.p 0 1 = 2 → cur ≤ 1 → (s.dev.gen c).running = true → (∀ k < c.val, (s.dev.gen k).running = false) →
          Records (.powerState id w) id s 0x0301 0x0107 (Objection.result { type := 1, ctx := c, reason := 1 }) (fun d =>
            d.fld PWR_STATUS 0 PWR_STATUS_STATE = cur ∧ KeepsMemory s.dev d)))
    ∧ (∀ wk : WakeInput, s.dev.phase = .ready → (s.dev.fires wk).2 = true →
      let n := wk.source
      ((s.dev.fld PWR_WAKE_EN 0 PWR_WAKE_EN_EN).testBit n = false → Completes (.wakeEvent wk f) s (fun d =>
          (d.fld PWR_WAKE_CAUSE 0 PWR_WAKE_CAUSE_PENDING).testBit n = true ∧ d.fld PWR_STATUS 0 PWR_STATUS_STATE = cur
          ∧ KeepsRegsBut [PWR_WAKE_CAUSE.key 0] s.dev d ∧ KeepsMemory s.dev d))
      ∧ ((s.dev.fld PWR_WAKE_EN 0 PWR_WAKE_EN_EN).testBit n = true → cur = 2 → s.dev.napFrom.1 ≤ 1 →
          Completes (.wakeEvent wk f) s (fun d => d.fld PWR_WAKE_CAUSE 0 PWR_WAKE_CAUSE_WOKE = 2 ^ n
            ∧ d.fld PWR_STATUS 0 PWR_STATUS_STATE = s.dev.napFrom.1)))
    ∧ (∀ wk : WakeInput, (s.dev.fires wk).2 = false → Completes (.wakeEvent wk f) s (fun d => KeepsRegs s.dev d ∧ KeepsMemory s.dev d))
    ∧ (∀ t : Tile, cur = 1 → s.dev.gated.contains t.val = false → s.dev.halfStopped (halfOf t) = false → (s.dev.tum t).sweep = none →
        (s.dev.tum t).wt = none → (∀ e : Eng, (s.dev.eng t e).qX = [] ∧ (s.dev.eng t e).qO = [] ∧ (s.dev.eng t e).phase = none
          ∧ (s.dev.eng t e).gather = none) →
        Completes (.tileClockGate t) s (fun d => d = { s.dev with gated := s.dev.gated ++ [t.val] }))
    ∧ (∀ v : W32, v.getLsbD 0 = true → Completes (.padRelease v) s (fun d => d.fld PWR_STATUS 0 PWR_STATUS_PADS_HELD = 0
        ∧ d.padAero = (0, false) ∧ d.padGpio = (0, 0) ∧ KeepsRegsBut [PWR_STATUS.key 0] s.dev d ∧ KeepsMemory s.dev d))

/-- R386, R449 to R454, R467, R471, R528: commands of trust, boot and the recorder. -/
def Obligations.TrustAndRecorderCommandsAct : Prop :=
  ∀ (id : Nat) (x : Cmd) (data : Option (List Byte)) (bs : List Byte) (f : BootFind) (s : State),
    let stays := fun (d : Dev) => KeepsRegs s.dev d ∧ KeepsMemory s.dev d
    let k := s.dev.stageSlot
    (Ready s.dev id 0x40 x → (x.p 8 4 = 0 → Records (.fwStage id data) id s 0x0104 8 [] stays)
      ∧ (2 ^ 20 < x.p 8 4 → Records (.fwStage id data) id s 0x0105 8 [] stays)
      ∧ (1 ≤ x.p 8 4 → x.p 8 4 ≤ 2 ^ 20 → x.p 12 4 + x.p 8 4 ≤ (if k = 2 then 2 ^ 20 else 2 ^ 24 - 4096) →
        ((s.dev.anySlot k).state = 3 → Records (.fwStage id data) id s 0x0300 0 [] stays)
        ∧ ((s.dev.anySlot k).state ≠ 3 → Supplies s.dev x 0 (x.p 8 4) data bs → x.p 16 1 % 2 = 0 → Records (.fwStage id data) id s 0 0 [] (fun d =>
            (d.anySlot k).state = 0 ∧ (d.anySlot k).image = none
            ∧ (∀ i < x.p 8 4, Tab.get (0xFF : Byte) (d.anySlot k).bytes (x.p 12 4 + i) = bs.getD i 0) ∧ stays d))))
    ∧ (Ready s.dev id 0x41 x → ((s.dev.anySlot k).image = none → Records (.fwActivate id f) id s 0x0301 0x0108 [] stays)
      ∧ (∀ i, k ≠ 2 → (s.dev.anySlot k).state = 1 → (s.dev.anySlot k).image = some i → s.dev.svnMin ≤ i.svn → x.p 0 1 % 2 = 0 →
          Records (.fwActivate id f) id s 0 0 (leBytes 4 s.dev.fw.version) (fun d => (d.anySlot k).state = 3
            ∧ (d.anySlot k).image = some i ∧ stays d)))
    ∧ (Ready s.dev id 0x48 x → (x.p 8 4 = 0 → Records (.licenceInstall id data) id s 0x0104 8 [] stays)
      ∧ (4096 < x.p 8 4 → Records (.licenceInstall id data) id s 0x0105 8 [] stays)
      ∧ (1 ≤ x.p 8 4 → x.p 8 4 ≤ 4096 → Supplies s.dev x 0 (x.p 8 4) data bs →
        Completes (.licenceInstall id data) s (fun d =>
          (licenceGood s.fuses bs = false → d.recordOf id = some (0x0301, 0x0108, []) ∧ d.lics = s.dev.lics ∧ stays d)
          ∧ (licenceGood s.fuses bs = true → at_ bs 8 8 ≠ s.fuses.serial.toNat →
            d.recordOf id = some (0x0301, 0x0109, []) ∧ d.lics = s.dev.lics ∧ stays d)
          ∧ (licenceGood s.fuses bs = true → at_ bs 8 8 = s.fuses.serial.toNat → at_ bs 6 1 = 1 →
            d.recordOf id = some (0, 0, leBytes 1 (s.dev.fld SEC_LIC 0 SEC_LIC_FEATURES ||| at_ bs 20 1)
              ++ leBytes 1 (s.dev.fld SEC_LIC 0 SEC_LIC_TILES) ++ leBytes 1 (s.dev.fld SEC_LIC 0 SEC_LIC_PORTS))
            ∧ d.fld SEC_LIC 0 SEC_LIC_FEATURES = s.dev.fld SEC_LIC 0 SEC_LIC_FEATURES ||| at_ bs 20 1
            ∧ d.fld SEC_LIC 0 SEC_LIC_TILES_NEXT = max (s.dev.fld SEC_LIC 0 SEC_LIC_TILES_NEXT) (at_ bs 21 1)
            ∧ d.fld SEC_LIC 0 SEC_LIC_PORTS_NEXT = max (s.dev.fld SEC_LIC 0 SEC_LIC_PORTS_NEXT) (at_ bs 22 1)
            ∧ (∀ y, y ≠ id → d.cmdOf y = s.dev.cmdOf y) ∧ KeepsMemory s.dev d))))
    ∧ (Ready s.dev id 0x49 x →
      let i := s.dev.fld SEC_ATTEST 0 SEC_ATTEST_NEXT
      (x.p 32 8 % 8 ≠ 0 → Records (.attest id true) id s 0x0105 32 [] stays)
      ∧ (x.p 32 8 % 8 = 0 → 1048576 ≤ i → Records (.attest id true) id s 0x0401 0 [] stays)
      ∧ (x.p 32 8 % 8 = 0 → i < 1048576 → s.dev.identity = true → x.remote = none → s.dev.dmaOk x.fn = true →
          Completes (.attest id true) s (fun d => d.fld SEC_ATTEST 0 SEC_ATTEST_NEXT = i + 1
            ∧ d.recordOf id = some (0, 0, leBytes 4 i ++ leBytes 4 3404)
            ∧ KeepsRegsBut [SEC_ATTEST.key 0] s.dev d ∧ KeepsMemory s.dev d)))
    ∧ (Ready s.dev id 0x4A x → x.remote = none → s.dev.dmaOk x.fn = true → x.p 0 8 % 8 = 0 →
        Records (.calRead id true) id s 0 0 (leBytes 4 1164) stays ∧ Records (.calRead id false) id s 0x0500 0x0200 [] stays)
    ∧ (Ready s.dev id 0x4B x → x.p 8 4 = 1164 → Supplies s.dev x 0 1164 data bs →
        (calGood bs = true → Records (.calWrite id data) id s 0 0 [] (fun d => d.cal = some (bs.take 1160)
          ∧ d.fld CAL_STATUS 0 CAL_STATUS_VALID = 1 ∧ KeepsMemory s.dev d))
        ∧ (calGood bs = false → Records (.calWrite id data) id s 0x0301 0x010A [] (fun d => d.cal = s.dev.cal ∧ stays d)))
    ∧ (Ready s.dev id 0x50 x → x.p 10 2 = 0 → Records (.recorderRead id true) id s 0 0 (leBytes 2 s.dev.barker.log.length ++ leBytes 2 0) stays)
    ∧ (Ready s.dev id 0x51 x → Records (.recorderClear id) id s 0 0 (leBytes 2 s.dev.barker.log.length) (fun d =>
        (∃ r, d.barker.log = [r] ∧ r.code = 0x3E02) ∧ d.fld BRK_STATUS 0 BRK_STATUS_FULL = 0 ∧ d.fld BRK_STATUS 0 BRK_STATUS_HELD = 1
        ∧ d.barker.staged = s.dev.barker.staged ∧ KeepsMemory s.dev d))

/-! ## Message queues (chapter 12) -/

/-- R391 to R404: message queues. -/
def Obligations.MessagesMoveThroughQueues : Prop :=
  ∀ (hdr : W64) (payload : List Byte) (who : Requester) (a : Fin 64) (q : Fin 16) (k : Fin 8) (v : W32) (s : State),
    let i := mqIx a q
    let r := s.dev.mq a q
    let size := ringBytes (s.dev.fld MQ_CFG i MQ_CFG_SIZE)
    (Completes (.firmwareSend 0 hdr payload) s (fun d => (∃ p : Packet, d.pkIn = s.dev.pkIn ++ [p] ∧ p.cls = 3) ∧ KeepsMemory s.dev d))
    ∧ (∀ (loc : Fin 33) p, (Tab.get [] s.dev.endIn loc).find? (fun p => p.cls == 3) = some p → s.dev.phase = .ready → p.via = 0 →
        mhKind p.w2 = 0 → mhLen p.w2 = 0 → mhDst p.w2 = a.val → mhDstQ p.w2 = q.val → p.src ≠ s.dev.chipId →
        (s.dev.mqOpen a q = true → (Tab.get [] s.dev.staged a) = [] → r.words + 1 ≤ size / 8 - 1 → r.tail + 8 ≤ size →
          (∀ j < 8, memMaps (s.dev.mqBase a q + r.tail + j) = true) →
          Completes (.messageArrive loc false) s (fun d => d.ld (s.dev.mqBase a q + r.tail) 8 = mhPut p.w2 14 0 p.src
            ∧ (d.mq a q).words = r.words + 1 ∧ (d.mq a q).msgs = r.msgs + 1
            ∧ KeepsMemoryBut (s.dev.mqBase a q + r.tail) 8 s.dev d))
        ∧ (s.dev.mqOpen a q = false → mhRet p.w2 = 0 → Completes (.messageArrive loc false) s (fun d =>
            Counted MQ_DP ((a.val * 8 + 1) * 8 + s.dev.mqCtx a q) 1 s.dev d ∧ d.mqs = s.dev.mqs ∧ KeepsMemory s.dev d)))
    ∧ (∀ x, (Tab.get [] s.dev.staged a)[k.val]? = some x →
        (((Tab.get [] s.dev.staged a).take k).any (fun y => y.q == x.q) = true → Completes (.stagedMessageWrite a k) s (fun d => d = s.dev))
        ∧ (s.dev.mqWrite x = none → Completes (.stagedMessageWrite a k) s (fun d => d = s.dev))
        ∧ (((Tab.get [] s.dev.staged a).take k).any (fun y => y.q == x.q) = false → mhDst x.hdr = a.val → x.hdr < 2 ^ 64 →
            let y := s.dev.mq a x.q
            let n := ringBytes (s.dev.fld MQ_CFG (mqIx a x.q) MQ_CFG_SIZE)
            let m := 1 + cdiv (mhLen x.hdr) 8
            y.words + m ≤ n / 8 - 1 → y.tail + 8 * m ≤ n → (∀ j < 8, memMaps (s.dev.mqBase a x.q + y.tail + j) = true) →
            Completes (.stagedMessageWrite a k) s (fun d => d.ld (s.dev.mqBase a x.q + y.tail) 8 = mhPut x.hdr 14 0 x.src
              ∧ (d.mq a x.q).words = y.words + m ∧ (d.mq a x.q).msgs = y.msgs + 1
              ∧ (d.mq a x.q).tail = (if y.tail + 8 * m = n then 0 else y.tail + 8 * m)
              ∧ Tab.get [] d.staged a = (Tab.get [] s.dev.staged a).eraseIdx k
              ∧ KeepsMemoryBut (s.dev.mqBase a x.q + y.tail) (8 * m) s.dev d))
        ∧ (x.src ≠ s.dev.chipId → mhRet x.hdr = 0 → s.dev.mqWrite x = none → Completes (.stallTimeout a k) s (fun d =>
            Tab.get [] d.staged a = (Tab.get [] s.dev.staged a).eraseIdx k ∧ d.mqs = s.dev.mqs ∧ KeepsMemory s.dev d)))
    ∧ (s.dev.mqClosedOff who a = false → q.val < agentQueues a →
        (r.words = 0 → Completes (.mqDataRead who a q false) s (fun d => d.ret = BitVec.ofNat 64 (2 ^ 64 - 1) ∧ d.mqs = s.dev.mqs
          ∧ KeepsRegs s.dev d ∧ KeepsMemory s.dev d))
        ∧ (0 < r.words → 0 < r.left → Completes (.mqDataRead who a q false) s (fun d =>
            d.ret = BitVec.ofNat 64 (s.dev.ld (s.dev.mqBase a q + r.head) 8) ∧ (d.mq a q).words = r.words - 1
            ∧ (d.mq a q).left = r.left - 1 ∧ (d.mq a q).head = (if r.head + 8 = size then 0 else r.head + 8)
            ∧ KeepsRegsBut [MQ_STATUS.key i] s.dev d ∧ KeepsMemory s.dev d)))
    ∧ (agentQueues a ≤ q.val → Completes (.mqCfgWrite who a q v) s (fun d => Counted SEC_VIOLATIONS 0 1 s.dev d
        ∧ KeepsRegsBut [SEC_VIOLATIONS.key 0, SEC_VIOL_LAST.key 0] s.dev d ∧ KeepsMemory s.dev d))
    ∧ (s.dev.mqClosedOff who a = false → q.val < agentQueues a → s.dev.fld MQ_CFG i MQ_CFG_SIZE = 0 →
        let n := MQ_CFG_SIZE.get (v.setWidth 64)
        n ≠ 0 →
        (s.dev.ringFits a q n (MQ_CFG_BASE.get (v.setWidth 64)) = true → Completes (.mqCfgWrite who a q v) s (fun d =>
          d.fld MQ_CFG i MQ_CFG_SIZE = n ∧ d.fld MQ_CFG i MQ_CFG_BASE = MQ_CFG_BASE.get (v.setWidth 64)
          ∧ KeepsRegsBut [MQ_CFG.key i] s.dev d ∧ KeepsMemory s.dev d))
        ∧ (s.dev.ringFits a q n (MQ_CFG_BASE.get (v.setWidth 64)) = false → Completes (.mqCfgWrite who a q v) s (fun d =>
          d.fld MQ_STATUS i MQ_STATUS_CFG_ERR = 1 ∧ KeepsRegsBut [MQ_STATUS.key i] s.dev d ∧ KeepsMemory s.dev d)))

/-! ## Faults and integrity (chapter 13) -/

/-- R411, R425, R426, R428 to R430, R467, R483: resets and restarts. -/
def Obligations.ResetsAndRestartsBeginAndEnd : Prop :=
  ∀ (t : Tile) (e : Eng) (s : State),
    let ix := engIx t e
    (∀ c, s.dev.holdsRunning 1 ix = some c → Completes (.engineReset t e) s (fun d => d.fld RST_STATUS 0 RST_STATUS_REFUSED = 1
        ∧ d.engs = s.dev.engs ∧ KeepsMemory s.dev d))
    ∧ (s.dev.holdsRunning 1 ix = none → Completes (.engineReset t e) s (fun d => (d.eng t e).resetting = true ∧ (d.eng t e).qX = []
        ∧ (d.eng t e).qO = [] ∧ (d.eng t e).line = none ∧ Counted RST_CNT 4 1 s.dev d
        ∧ ((s.dev.eng t e).dbgDue = [] → (s.dev.eng t e).roDue = [] → ∀ j, j < engBase t e ∨ engBase t e + 0x300000 ≤ j →
            j < preAddr t e 0 ∨ preAddr t e 0 + 8192 ≤ j → d.ldB j = s.dev.ldB j)))
    ∧ ((s.dev.eng t e).resetting = false → Completes (.engineResetEnd t e) s (fun d => d = s.dev))
    ∧ ((s.dev.eng t e).resetting = true → Completes (.engineResetEnd t e) s (fun d => (d.eng t e).resetting = false
        ∧ (d.eng t e).startQ = [] ∧ KeepsRegs s.dev d))
    ∧ (∀ c, s.dev.holdsRunning 2 t = some c → Completes (.tileReset t) s (fun d => d.fld RST_STATUS 0 RST_STATUS_REFUSED = 1
        ∧ d.engs = s.dev.engs ∧ KeepsMemory s.dev d))
    ∧ (s.dev.holdsRunning 2 t = none → s.dev.chained 1 1 1 = false → s.dev.chained 1 0 0 = false → Completes (.tileReset t) s (fun d =>
        (∀ k : Eng, (d.eng t k).resetting = true ∧ (d.eng t k).qX = [] ∧ (d.eng t k).qO = []) ∧ d.tcRestart.contains t.val = true
        ∧ d.tileRst.contains t.val = true ∧ (d.tum t).sweep = none ∧ Counted RST_CNT 3 1 s.dev d ∧ Counted FLT_CNT 1 1 s.dev d))
    ∧ (s.dev.chained 1 0 0 = false → Completes (.tcWatchdog t) s (fun d => d.tcRestart.contains t.val = true
        ∧ Counted FLT_CNT 1 1 s.dev d ∧ (Tab.get [] s.dev.staged (t.val + 1) = [] → KeepsMemory s.dev d)))
    ∧ (s.dev.fwTiles.head? ≠ some t.val → Completes (.tileControllerRestartEnd t) s (fun d =>
        d = { s.dev with tcRestart := s.dev.tcRestart.filter (· != t.val) }))
    ∧ (∀ u l, s.dev.fwTiles = t.val :: u :: l → u ≠ t.val → s.dev.chained 1 0 0 = false → Completes (.tileControllerRestartEnd t) s (fun d =>
        d.fwTiles = u :: l ∧ d.tcRestart.contains u = true ∧ d.tcRestart.contains t.val = false ∧ Counted FLT_CNT 1 1 s.dev d))
    ∧ (s.dev.phase = .ready → s.dev.rmRestart = false → Completes .rmWatchdog s (fun d => d.rmRestart = true
        ∧ Counted FLT_CNT 0 1 s.dev d ∧ ∀ x ∈ d.cmds, slowOp x.opcode = true → x.stage ≠ 2 → x.held = true))
    ∧ (∀ o : Fin 3, (s.dev.rmRestart = false → Completes (.ringmasterRestartEnd o) s (fun d => d = s.dev))
        ∧ (s.dev.rmRestart = true → s.dev.fwBack = none → s.dev.fwTry = none → Completes (.ringmasterRestartEnd o) s (fun d => d.rmRestart = false
            ∧ (d.unit 6 0).1 = 0 ∧ d.cmds = s.dev.cmds ∧ KeepsMemory s.dev d))
        ∧ (∀ id st det x, s.dev.rmRestart = true → s.dev.fwBack = some (id, st, det) → s.dev.cmdOf id = some x → x.stage ≠ 2 →
          Completes (.ringmasterRestartEnd o) s (fun d => d.rmRestart = false ∧ d.fwBack = none
            ∧ d.recordOf id = some (st, det, []) ∧ KeepsMemory s.dev d)))
    ∧ (∀ k id, s.dev.rmRestart = true → s.dev.fwBack = none → s.dev.fwTry = some (k, id) →
        Completes (.ringmasterRestartEnd 1) s (fun d => d.rmRestart = true ∧ d.fwTry = none ∧ d.fwBack = some (id, 0x0301, 0x0108)
          ∧ (d.slotOf k).state = 4 ∧ Counted FLT_CNT 0 1 s.dev d))

/-- R130, R411 to R413, R419, R424, R431, R441, R544: faults found and repaired. -/
def Obligations.FaultsAreFoundAndRepaired : Prop :=
  ∀ (t : Tile) (e : Eng) (c : Ctx) (moves : List Move) (s : State),
    ((s.dev.eng t e).watched = false → Completes (.engineWatchdog t e moves) s (fun d => d = s.dev))
    ∧ ((s.dev.eng t e).watched = true → s.dev.flag FLT_CTRL 0 FLT_CTRL_AUTO_RETIRE = false →
        Completes (.engineWatchdog t e moves) s (fun d => (d.eng t e).resetting = true ∧ (d.eng t e).qX = []
          ∧ Counted FLT_CNT 2 1 s.dev d ∧ Counted RST_CNT 4 1 s.dev d))
    ∧ (∀ a : BitVec 36, (s.dev.chained 1 0 3 = false → Completes (.lpddrReadTimeout a none) s (fun d => Counted FLT_CNT 7 1 s.dev d
          ∧ KeepsMemory s.dev d))
        ∧ (a.toNat < usableBytes → s.dev.flag FLT_CTRL 0 FLT_CTRL_AUTO_RETIRE = true → (s.dev.unit 4 (a.toNat / 4096 * 4096)).1 = 0 →
          Completes (.lpddrReadTimeout a none) s (fun d => (d.unit 4 (a.toNat / 4096 * 4096)).1 = 1)))
    ∧ (∀ (a : BitVec 36) (k : Fin 8) r, (s.dev.eng t e).parked[k.val]? = some r → r.issued = true → r.landed = none → (s.dev.eng t e).refetch = none →
        Completes (.lpddrReadTimeout a (some (t, e, k))) s (fun d => (d.eng t e).refetch.isSome = true
          ∧ (d.eng t e).parked.length + 1 = (s.dev.eng t e).parked.length ∧ KeepsMemory s.dev d))
    ∧ (s.dev.ctxReset.contains c.val = false → Completes (.contextResetWindowEnd c) s (fun d => d = s.dev))
    ∧ (s.dev.ctxReset.contains c.val = true → Completes (.contextResetWindowEnd c) s (fun d => d.ctxReset.contains c.val = false
        ∧ (∀ place par ver, par < 2 → ver < 2 → Tab.get 0 d.inflight (flightKey place c par ver) = 0) ∧ KeepsRegs s.dev d
        ∧ KeepsMemory s.dev d))
    ∧ (s.dev.flag SEC_CTX_STATUS c SEC_CTX_STATUS_SCRUBBING = false → Completes (.scrubComplete c) s (fun d => d = s.dev))
    ∧ (s.dev.flag SEC_CTX_STATUS c SEC_CTX_STATUS_SCRUBBING = true →
        let r := s.dev.ctxRegion c
        Completes (.scrubComplete c) s (fun d => d.fld SEC_CTX_STATUS c SEC_CTX_STATUS_CONFIDENTIAL = 0
          ∧ d.fld SEC_CTX_STATUS c SEC_CTX_STATUS_SCRUBBING = 0 ∧ d.fld SEC_CTX_CNF c SEC_CTX_CNF_ENABLE = 0
          ∧ (∀ j < r.2, memMaps (r.1 + j) = true → d.ldB (r.1 + j) = memDflt (r.1 + j)) ∧ KeepsMemoryBut r.1 r.2 s.dev d
          ∧ KeepsRegsBut [SEC_CTX_STATUS.key c, SEC_CTX_CNF.key c] s.dev d))
    ∧ (∀ (r : Fin 33) (rows : List (Fin 4)) (spare : Bool),
      let n := if r.val < 32 then 7168 else 3072
      let base := if r.val < 32 then tileBase r else rmSram
      let stopped := r.val < 32 ∧ s.dev.halfStopped (halfOf r) = true
      (stopped → Completes (.roustaboutRegionTest r rows spare) s (fun d => d = s.dev))
      ∧ (s.dev.soonest r = none → s.dev.flag RAB_CTRL r RAB_CTRL_EN = false → Completes (.roustaboutRegionTest r rows spare) s (fun d => d = s.dev))
      ∧ (∀ k, ¬stopped → s.dev.soonest r = some k → k < n → Completes (.roustaboutRegionTest r [] spare) s (fun d =>
          d.testDue = s.dev.testDue.filter (· != base + 4096 * k) ∧ Counted RAB_CNT (r.val * 6) 1 s.dev d
          ∧ Counted RAB_CNT (r.val * 6 + 4) 1 s.dev d ∧ d.fld RAB_STATUS r RAB_STATUS_REGION = k ∧ KeepsMemory s.dev d))
      ∧ (¬stopped → s.dev.soonest r = none → s.dev.flag RAB_CTRL r RAB_CTRL_EN = true → Awake s.dev →
          let k := Tab.get 0 s.dev.rabNext r
          k < n → (rows = [] ∨ spare = true) → Completes (.roustaboutRegionTest r rows spare) s (fun d =>
            Counted RAB_CNT (r.val * 6) 1 s.dev d ∧ d.fld RAB_STATUS r RAB_STATUS_REGION = k ∧ Tab.get 0 d.rabNext r = (k + 1) % n
            ∧ (∀ x ∈ rows, (base + 4096 * k + 1024 * x.val) ∈ d.rowRepairs) ∧ KeepsMemory s.dev d)))
    ∧ (∀ w : Fin 4096, Completes (.runningOrderRewrite t e w) s (fun d => KeepsMemory s.dev d ∧ KeepsRegs s.dev d))
    ∧ (∀ page : BitVec 48, (s.dev.unit 4 page.toNat).1 = 1 → s.dev.fld MEM_STATUS 0 MEM_STATUS_SPARES ≠ 0 →
        Completes (.pageCopyDone page) s (fun d => (d.unit 4 page.toNat).1 = 2
          ∧ d.fld MEM_STATUS 0 MEM_STATUS_SPARES = s.dev.fld MEM_STATUS 0 MEM_STATUS_SPARES - 1 ∧ KeepsMemory s.dev d))

/-! ## Trust (chapter 14) -/

/-- R438, R444 to R447: confidential mode and debug access. -/
def Obligations.TrustControlsAct : Prop :=
  ∀ (c : Ctx) (v : W32) (t : Tile) (addr : BitVec 48) (n : Fin 65) (s : State),
    let lic := (s.dev.fld SEC_LIC 0 SEC_LIC_FEATURES).testBit 1
    let stays := fun (d : Dev) => d = s.dev
    (v.getLsbD 0 = false → Completes (.secCtxCnfWrite c v) s stays)
    ∧ (v.getLsbD 0 = true → lic = true → s.dev.lifecycle ≠ 2 → (s.dev.gen c).running = false → Completes (.secCtxCnfWrite c v) s (fun d =>
        d.confidential c = true ∧ d.fld SEC_CTX_CNF c SEC_CTX_CNF_ENABLE = 1
        ∧ KeepsRegsBut [SEC_CTX_STATUS.key c, SEC_CTX_CNF.key c] s.dev d ∧ KeepsMemory s.dev d))
    ∧ (v.getLsbD 0 = true → (lic = false ∨ s.dev.lifecycle = 2 ∨ (s.dev.gen c).running = true) → Completes (.secCtxCnfWrite c v) s (fun d =>
        d.confidential c = s.dev.confidential c ∧ d.fld SEC_CTX_STATUS c SEC_CTX_STATUS_CNF_ERR = 1
        ∧ KeepsRegsBut [SEC_CTX_STATUS.key c] s.dev d ∧ KeepsMemory s.dev d))
    ∧ (v.getLsbD 0 = true → Completes (.secDbgLock v) s (fun d => d.fld SEC_DBG_STATUS 0 SEC_DBG_STATUS_SCOPE = 0
        ∧ d.fld SEC_DBG_STATUS 0 SEC_DBG_STATUS_EXPIRES = 0 ∧ KeepsRegsBut [SEC_DBG_STATUS.key 0] s.dev d ∧ KeepsMemory s.dev d))
    ∧ (v.getLsbD 0 = false → Completes (.secDbgLock v) s stays)
    ∧ (s.dev.dbgActive.testBit 0 = true → Completes (.debugHalt none) s (fun d => d = { s.dev with dbgHalt := true })
        ∧ Completes (.debugHaltRelease none) s (fun d => d = { s.dev with dbgHalt := false }))
    ∧ (s.dev.dbgActive.testBit 0 = false → Completes (.debugHalt none) s stays ∧ Completes (.debugHaltRelease none) s stays)
    ∧ (s.dev.dbgActive.testBit 1 = true → Completes (.debugHalt (some t)) s (fun d => d.dbgTiles.contains t.val = true
          ∧ KeepsRegs s.dev d ∧ KeepsMemory s.dev d)
        ∧ Completes (.debugHaltRelease (some t)) s (fun d => d.dbgTiles.contains t.val = false ∧ KeepsRegs s.dev d ∧ KeepsMemory s.dev d))
    ∧ (s.dev.dbgActive.testBit 1 = false → Completes (.debugHalt (some t)) s stays ∧ Completes (.debugHaltRelease (some t)) s stays)
    ∧ (addr.toNat % 64 + n.val ≤ 64 → n.val ≠ 0 → s.dev.dbgActive.testBit 2 = false →
        Completes (.debugRawAccess addr n none) s (fun d => d = { s.dev with retData := List.replicate n 0, retPoison := false })
        ∧ ∀ bs, Completes (.debugRawAccess addr n (some bs)) s stays)
    ∧ (addr.toNat % 64 + n.val ≤ 64 → n.val ≠ 0 → s.dev.dbgActive.testBit 2 = true → (∀ k : Ctx, s.dev.confidential k = false) →
        memMaps addr.toNat = true → addr.toNat < regSpace → s.dev.poison = [] →
        Completes (.debugRawAccess addr n none) s (fun d => d.retData = s.dev.ldBytes addr.toNat n ∧ d.retPoison = false
          ∧ KeepsRegs s.dev d ∧ KeepsMemory s.dev d))

/-! ## Boot and clocks (chapters 15 and 16) -/

/-- R457 to R459, R465, R473, R475, R482, R495, R525, R562, R567: resets and bring-up. -/
def Obligations.ResetsLeadIntoBringUp : Prop :=
  ∀ (x : BootFind) (image : List Byte) (s : State),
    let f := s.fuses
    let stays := fun (d : Dev) => d = s.dev
    let flash := fun (d : Dev) => ∀ j, flashBase ≤ j → d.ldB j = s.dev.ldB j
    (Completes .powerOnReset s (fun d => d.phase = .held ∧ d.tripped = false ∧ d.cmds = [] ∧ d.gens = [] ∧ d.blocks = [] ∧ flash d
        ∧ d.fld BRK_PWRCYC 0 BRK_PWRCYC_COUNT = min (2 ^ 24 - 1) (s.dev.fld BRK_PWRCYC 0 BRK_PWRCYC_COUNT + 1)
        ∧ d.fld BRK_OPTIME 0 BRK_OPTIME_SECONDS = s.dev.savedTime % 2 ^ 40))
    ∧ ((s.dev.phase = .off ∨ s.dev.phase = .held) → Completes (.coldReset x) s stays)
    ∧ (s.dev.phase ≠ .off → s.dev.phase ≠ .held → Completes (.coldReset x) s (fun d => d = (s.dev.coldReset 1).bringUp f x))
    ∧ (s.dev.awake = false → Completes (.warmReset x) s stays)
    ∧ (s.dev.awake = true → Completes (.warmReset x) s (fun d => d = s.dev.warmReset f x 3))
    ∧ (s.dev.phase = .stopped → Completes (.sysclkRecovery x) s (fun d => d = (s.dev.coldReset 2).bringUp f x))
    ∧ (s.dev.phase ≠ .stopped → Completes (.sysclkRecovery x) s stays)
    ∧ (∀ sel : Fin 4, (s.dev.phase = .held → s.dev.tripped = false → Completes (.pwrGoodRise sel x) s (fun d =>
          d = Dev.bringUp { s.dev with smbAddr := 0x60 + sel.val } f x))
        ∧ (s.dev.phase ≠ .held ∨ s.dev.tripped = true → Completes (.pwrGoodRise sel x) s stays))
    ∧ (s.dev.tripped = true → s.dev.phase = .held → s.dev.hottest < s.dev.tripAt - 20 * 256 →
        Completes (.thermalTripRelease x) s (fun d => d = s.dev.bringUp f x))
    ∧ (s.dev.tripped = false → Completes (.thermalTripRelease x) s stays)
    ∧ (Completes .powerLoss s (fun d => d.phase = .off ∧ d.cmds = [] ∧ flash d ∧ ∀ j < flashBase, memMaps j = true → d.ldB j = memDflt j))
    ∧ (∀ ms : BitVec 16, s.dev.phase = .ports → Completes (.portWaitEnd 0 true ms x) s (fun d => d.phase = .ready
        ∧ d.fld GLB_BOOT 0 GLB_BOOT_READY = 1 ∧ d.fld GLB_BOOT 0 GLB_BOOT_STEP = 10 ∧ d.fld GLB_BOOT_TIME 0 GLB_BOOT_TIME_MS = ms.toNat
        ∧ KeepsMemory s.dev d))
    ∧ (s.dev.popMessage 0 14 = none → Completes (.netBootServe image) s stays)
    ∧ (∀ h b popped, s.dev.popMessage 0 14 = some (h, b, popped) → popped.phase ≠ .ready → Completes (.netBootServe image) s (fun d =>
        ∃ k : Packet, d.pkIn = popped.pkIn ++ [k] ∧ k.cls = 3 ∧ k.dst = mhChip h))
    ∧ (s.dev.phase ≠ .net → Completes .netBootTimeout s stays)
    ∧ (∀ n, s.dev.phase = .net → s.dev.netBoot = some n → n.asked.isSome = true → n.reply = none →
        (∀ p ∈ n.left, s.dev.portUp p = false) → Completes .netBootTimeout s (fun d => d.netBoot = some { left := List.range 6 }
          ∧ KeepsRegs s.dev d ∧ KeepsMemory s.dev d))
    ∧ (s.dev.netImage = none → Completes .netBootSlotWrite s stays)
    ∧ (∀ k len, s.dev.phase = .ready → s.dev.netImage = some (k, len) → (s.dev.slotOf k).image ≠ some s.dev.fw →
        Completes .netBootSlotWrite s (fun d => d.netImage = none ∧ (d.slotOf k).state = 2 ∧ (d.slotOf k).image = some s.dev.fw
          ∧ (d.slotOf k).seq = (s.dev.slotOf (1 - k)).seq + 1 ∧ KeepsRegs s.dev d ∧ KeepsMemory s.dev d))
    ∧ (∀ v : W32, Completes (.keepFRegisterWrite false v) s (fun d =>
          d.rd GLB_BOOT_CFG 0 = GLB_BOOT_CFG.written (s.dev.rd GLB_BOOT_CFG 0) (v.setWidth 64) (halfCover .whole)
          ∧ KeepsRegsBut [GLB_BOOT_CFG.key 0] s.dev d ∧ KeepsMemory s.dev d)
        ∧ Completes (.keepFRegisterWrite true v) s (fun d =>
          d.rd GLB_TOPO_BOOT 0 = GLB_TOPO_BOOT.written (s.dev.rd GLB_TOPO_BOOT 0) (v.setWidth 64) (halfCover .whole)
          ∧ KeepsRegsBut [GLB_TOPO_BOOT.key 0] s.dev d ∧ KeepsMemory s.dev d))
    ∧ (s.dev.phase ≠ .off → s.dev.phase ≠ .held →
        Completes (.referenceClockLoss 0) s (fun d => d.phase = .stopped ∧ d.faultN = true
          ∧ (d.fld CLK_STATUS 0 CLK_STATUS_REF_LOST).testBit 0 = true ∧ KeepsMemory s.dev d)
        ∧ Completes (.referenceClockLoss 1) s (fun d => d.phase = s.dev.phase ∧ d.pcie.link = false
          ∧ (d.fld CLK_STATUS 0 CLK_STATUS_REF_LOST).testBit 1 = true ∧ KeepsMemory s.dev d))
    ∧ (s.dev.awake = false → ∀ k : Fin 3, Completes (.referenceClockReturn k) s stays)
    ∧ (s.dev.awake = true → Completes (.referenceClockReturn 1) s (fun d => (d.fld CLK_STATUS 0 CLK_STATUS_LOCKED).testBit 5 = true
        ∧ KeepsRegsBut [CLK_STATUS.key 0] s.dev d ∧ KeepsMemory s.dev d))

/-! ## Timers (chapter 17) -/

/-- R501: one-shot channels. -/
def Obligations.OneShotChannelsStopAtTheMatch : Prop :=
  ∀ (n : Fin 8) (x : BootFind) (s : State), s.dev.phase = .ready → s.dev.tmr = [] → s.dev.fld PWR_WAKE_EN 0 PWR_WAKE_EN_EN = 0 →
    let r := timerStep (s.dev.fld TMR_PERIOD n TMR_PERIOD_PERIOD) (s.dev.fld TMR_COUNT n TMR_COUNT_COUNT)
      (s.dev.fld TMR_CMP n TMR_CMP_CMP) (if s.dev.tmrSlow then 100 else 1)
    let en := s.dev.flag TMR_CTRL n TMR_CTRL_EN
    let one := s.dev.flag TMR_CTRL n TMR_CTRL_ONESHOT
    (en = true → Completes (.timerStep x) s (fun d => d.fld TMR_COUNT n TMR_COUNT_COUNT = r.1 % 2 ^ 32))
    ∧ (en = false → Completes (.timerStep x) s (fun d => d.fld TMR_COUNT n TMR_COUNT_COUNT = s.dev.fld TMR_COUNT n TMR_COUNT_COUNT
        ∧ d.flag TMR_CTRL n TMR_CTRL_EN = false))
    ∧ (en = true → r.2.1 = true → one = false → Completes (.timerStep x) s (fun d => d.flag TMR_CTRL n TMR_CTRL_EN = true
        ∧ d.fld TMR_STATUS n TMR_STATUS_MATCH = 1 ∧ d.fld TMR_COUNT n TMR_COUNT_COUNT = r.1 % 2 ^ 32))
    ∧ (en = true → r.2.1 = true → one = true → Completes (.timerStep x) s (fun d => d.flag TMR_CTRL n TMR_CTRL_EN = false
        ∧ d.fld TMR_STATUS n TMR_STATUS_MATCH = 1 ∧ d.fld TMR_COUNT n TMR_COUNT_COUNT = r.1 % 2 ^ 32))
    ∧ (∀ (now : Nat) (v : W64), s.dev.reaches .pf = true → v.getLsbD 0 = true →
        Completes (.registerWrite .pf (BitVec.ofNat 26 (0x40000 + n.val * 0x40)) 4 v false now x) s (fun d =>
          d.flag TMR_CTRL n TMR_CTRL_EN = true ∧ d.fld TMR_COUNT n TMR_COUNT_COUNT = s.dev.fld TMR_COUNT n TMR_COUNT_COUNT))

/-- R502, R505, R506, R509, R510: timer writes. -/
def Obligations.TimerWritesWaitForTheirClock : Prop :=
  ∀ (n : Fin 8) (v : W32) (x : BootFind) (s : State),
    let waits := fun (w : TmrWrite) (d : Dev) => Tab.get [] d.tmr n = Tab.get [] s.dev.tmr n ++ [(4, w)]
      ∧ (∀ k : Fin 8, k ≠ n → Tab.get [] d.tmr k = Tab.get [] s.dev.tmr k)
      ∧ d.fld TMR_STATUS n TMR_STATUS_PENDING = 1 ∧ KeepsRegsBut [TMR_STATUS.key n] s.dev d ∧ KeepsMemory s.dev d
    Completes (.tmrPeriodWrite n v) s (waits (.period v.toNat)) ∧ Completes (.tmrCountWrite n v) s (waits (.count v.toNat))
    ∧ Completes (.tmrCmpWrite n v) s (waits (.compare v.toNat)) ∧ Completes (.tmrCmpRelWrite n v) s (waits (.compareRel v.toNat))
    ∧ (s.dev.phase = .ready → s.dev.tmr = [(n.val, [(1, .period v.toNat)])] → (∀ k : Fin 8, s.dev.flag TMR_CTRL k TMR_CTRL_EN = false) →
        Completes (.timerStep x) s (fun d => d.fld TMR_PERIOD n TMR_PERIOD_PERIOD = v.toNat
          ∧ d.fld TMR_COUNT n TMR_COUNT_COUNT = s.dev.fld TMR_COUNT n TMR_COUNT_COUNT ∧ Tab.get [] d.tmr n = []
          ∧ d.fld TMR_STATUS n TMR_STATUS_PENDING = 0 ∧ KeepsMemory s.dev d))
    ∧ Completes (.tmrSyncWrite v) s (fun d => (∀ k : Fin 8, Tab.get [] d.tmr k
        = Tab.get [] s.dev.tmr k ++ (if v.getLsbD k then [(4, TmrWrite.sync)] else [])) ∧ KeepsMemory s.dev d)
    ∧ (v.getLsbD 8 = false → Completes (.tmrStaggerWrite v) s (fun d => d = s.dev))
    ∧ (∀ k : Fin 8, v.toNat = 256 + 2 ^ k.val → s.dev.fld TMR_PERIOD k TMR_PERIOD_PERIOD = 0 → Completes (.tmrStaggerWrite v) s (fun d =>
        d.fld TMR_GSTATUS 0 TMR_GSTATUS_STAGGER_ERR = 1 ∧ d.tmr = s.dev.tmr ∧ KeepsRegsBut [TMR_GSTATUS.key 0] s.dev d
        ∧ KeepsMemory s.dev d))
    ∧ (∀ j k : Fin 8, j < k → v.toNat = 256 + 2 ^ j.val + 2 ^ k.val → s.dev.fld TMR_PERIOD j TMR_PERIOD_PERIOD ≠ 0 →
        s.dev.fld TMR_PERIOD j TMR_PERIOD_PERIOD = s.dev.fld TMR_PERIOD k TMR_PERIOD_PERIOD → Completes (.tmrStaggerWrite v) s (fun d =>
          d.fld TMR_PHASE j TMR_PHASE_PHASE = 0 ∧ d.fld TMR_PHASE k TMR_PHASE_PHASE = s.dev.fld TMR_PERIOD k TMR_PERIOD_PERIOD / 2
          ∧ Tab.get [] d.tmr j = Tab.get [] s.dev.tmr j ++ [(4, .sync)] ∧ Tab.get [] d.tmr k = Tab.get [] s.dev.tmr k ++ [(4, .sync)]
          ∧ KeepsMemory s.dev d))

/-! ## Counters, recorder and trace (chapter 18) -/

/-- R446, R513, R515 to R519, R525, R527, R528, R530, R532: counters, recorder and trace. -/
def Obligations.RecorderAndHeadcountAct : Prop :=
  ∀ (now : Nat) (v : W32) (s : State),
    let stays := fun (d : Dev) => d = s.dev
    let sec := s.dev.fld BRK_OPTIME 0 BRK_OPTIME_SECONDS
    let frozen := fun (d : Dev) => d.hcDump = some (now, sec) ∧ d.fld HC_STATUS 0 HC_STATUS_BUSY = 1 ∧ d.hcMark = s.dev.hcRst
      ∧ d.hcRst = [] ∧ d.ctxZero = [] ∧ d.snsLossAt = s.dev.snsLoss ∧ Counted HC_CNT 0 1 s.dev d ∧ KeepsMemory s.dev d
    let skipped := fun (d : Dev) => d.hcDump = s.dev.hcDump ∧ d.hcExt = s.dev.hcExt ∧ d.hcMark = s.dev.hcMark
      ∧ Counted HC_CNT 1 1 s.dev d ∧ KeepsMemory s.dev d
    (s.dev.rmRestart = true → Completes .barkerProgram s stays)
    ∧ (∀ r rest, s.dev.rmRestart = false → s.dev.barker.staged = r :: rest → s.dev.flag BRK_STATUS 0 BRK_STATUS_FULL = false →
        s.dev.barker.log.length < 8190 → Completes .barkerProgram s (fun d => d.barker.log = s.dev.barker.log ++ [r]
          ∧ d.barker.staged = rest ∧ d.fld BRK_STATUS 0 BRK_STATUS_HELD = s.dev.barker.log.length + 1
          ∧ KeepsRegsBut [BRK_STATUS.key 0] s.dev d ∧ KeepsMemory s.dev d))
    ∧ (s.dev.phase = .off → Completes .optimeAdvance s stays ∧ Completes .optimeSave s stays)
    ∧ (s.dev.phase ≠ .off → Completes .optimeSave s (fun d => d = { s.dev with savedTime := sec })
      ∧ (s.dev.fld SEC_DBG_STATUS 0 SEC_DBG_STATUS_SCOPE = 0 → Completes .optimeAdvance s (fun d =>
          d.fld BRK_OPTIME 0 BRK_OPTIME_SECONDS = min (2 ^ 40 - 1) (sec + 1) ∧ KeepsRegsBut [BRK_OPTIME.key 0] s.dev d ∧ KeepsMemory s.dev d))
      ∧ (s.dev.fld SEC_DBG_STATUS 0 SEC_DBG_STATUS_SCOPE ≠ 0 → sec + 1 < 2 ^ 40 →
          s.dev.fld SEC_DBG_STATUS 0 SEC_DBG_STATUS_EXPIRES ≤ sec + 1 → Completes .optimeAdvance s (fun d =>
            d.fld SEC_DBG_STATUS 0 SEC_DBG_STATUS_SCOPE = 0 ∧ KeepsMemory s.dev d)))
    ∧ (s.dev.flag HC_CTRL 0 HC_CTRL_EN = false → Completes (.headcountFreeze now) s stays)
    ∧ (s.dev.hcDump = none → (s.dev.flag HC_CTRL 0 HC_CTRL_EN = true → Completes (.headcountFreeze now) s frozen)
        ∧ (v.getLsbD 30 = true → Completes (.hcNowWrite v now) s frozen))
    ∧ (s.dev.hcDump ≠ none → s.dev.chained 1 3 0 = false →
        (s.dev.flag HC_CTRL 0 HC_CTRL_EN = true → Completes (.headcountFreeze now) s skipped)
        ∧ (v.getLsbD 30 = true → Completes (.hcNowWrite v now) s skipped))
    ∧ (s.dev.hcDump = none → Completes (.headcountDumpComplete true) s stays)
    ∧ (∀ tb sc, s.dev.hcDump = some (tb, sc) →
        s.dev.flag HC_HDEST_CFG 0 HC_HDEST_CFG_EN = false → Completes (.headcountDumpComplete true) s (fun d => d.hcDump = none
          ∧ d.hcSeq = s.dev.hcSeq + 1 ∧ d.fld HC_SEQ 0 HC_SEQ_SEQ = (s.dev.hcSeq + 1) % 2 ^ 64
          ∧ d.dumps = ((s.dev.hcExt.map (fun (x : Nat × Nat × Nat) => (x.1, x.2.2))) :: s.dev.dumps).take 3 ∧ d.fld HC_STATUS 0 HC_STATUS_BUSY = 0 ∧ d.host = s.dev.host
          ∧ KeepsRegsBut [HC_SEQ.key 0, HC_STATUS.key 0] s.dev d ∧ KeepsMemory s.dev d))
    ∧ (s.dev.fld HC_CHAIN_SEL 0 HC_CHAIN_SEL_KIND = 1 → s.dev.fld HC_CHAIN_SEL 0 HC_CHAIN_SEL_ARRAY = 0 →
        Completes (.hcChainWrite v) s (fun d => ∀ j : Fin 4, d.chained 1 0 j = v.getLsbD j
          ∧ d.rd FLT_CNT (2 * j.val) = s.dev.rd FLT_CNT (2 * j.val)
          ∧ (s.dev.chained 1 0 j ≠ v.getLsbD j → d.rd FLT_CNT (2 * j.val + 1) = 0)
          ∧ (s.dev.chained 1 0 j = v.getLsbD j → d.rd FLT_CNT (2 * j.val + 1) = s.dev.rd FLT_CNT (2 * j.val + 1))))
    ∧ (∀ (place : Fin 33) (h : Fin 8),
        (Tab.get [] s.dev.mirrors (place.val * 8 + h.val) = [] → Completes (.mirrorPacketSend place h) s stays)
        ∧ (Tab.get [] s.dev.mirrors (place.val * 8 + h.val) ≠ [] → Completes (.mirrorPacketSend place h) s (fun d =>
            Tab.get [] d.mirrors (place.val * 8 + h.val) = (Tab.get [] s.dev.mirrors (place.val * 8 + h.val)).drop 32 ∧ KeepsMemory s.dev d)))
    ∧ (∀ (h : Fin 8) (w : W64), s.dev.flag HOM_SESS h HOM_SESS_EN = false → HOM_SESS_EN.get w = 1 → Completes (.homSessWrite h .whole w) s (fun d =>
        d.fld HOM_STATUS h HOM_STATUS_WR = 0 ∧ d.homPhase h = true ∧ d.fld HOM_SESS h HOM_SESS_TILES = HOM_SESS_TILES.get w
        ∧ KeepsRegsBut [HOM_SESS.key h, HOM_STATUS.key h] s.dev d ∧ KeepsMemory s.dev d))

/-! ## Memory and thermal (chapters 19 and 20) -/

/-- R469, R542, R543, R545, R548, R550, R565 to R567, R570: memory, apertures and telemetry. -/
def Obligations.MemoryAndTelemetryAct : Prop :=
  ∀ (s : State),
    let busy := s.dev.flag MEM_FLASH_STATUS 0 MEM_FLASH_STATUS_BUSY
    (∀ (c : Ctx) (v : W64), (s.dev.regionOk c (MEM_CTX.written (s.dev.rd MEM_CTX c) v (halfCover .whole)) = true →
        Completes (.memCtxWrite c .whole v) s (fun d => d.fld MEM_CTX c MEM_CTX_BASE = MEM_CTX_BASE.get v
          ∧ d.fld MEM_CTX c MEM_CTX_SIZE = MEM_CTX_SIZE.get v ∧ KeepsRegsBut [MEM_CTX.key c] s.dev d ∧ KeepsMemory s.dev d))
      ∧ (s.dev.regionOk c (MEM_CTX.written (s.dev.rd MEM_CTX c) v (halfCover .whole)) = false →
        Completes (.memCtxWrite c .whole v) s (fun d => d.fld MEM_STATUS_FLAGS 0 MEM_STATUS_FLAGS_CFG_ERR = 1
          ∧ KeepsRegsBut [MEM_STATUS_FLAGS.key 0] s.dev d ∧ KeepsMemory s.dev d)))
    ∧ (∀ v : W32, Completes (.memRetWrite v) s (fun d => d.fld MEM_RET 0 MEM_RET_EIGHTHS = MEM_RET_EIGHTHS.get (v.setWidth 64)
        ∧ KeepsRegsBut [MEM_RET.key 0] s.dev d ∧ KeepsMemory s.dev d))
    ∧ (∀ (off : BitVec 27) (bs : List Byte), off.toNat + bs.length ≤ flashBytes → bs ≠ [] →
        (busy = false → Completes (.flashWrite off bs) s (fun d =>
          (∀ i < bs.length, d.ldB (flashBase + off.toNat + i) = s.dev.ldB (flashBase + off.toNat + i) &&& bs.getD i 0)
          ∧ KeepsMemoryBut (flashBase + off.toNat) bs.length s.dev d ∧ d.fld MEM_FLASH_STATUS 0 MEM_FLASH_STATUS_BUSY = 1
          ∧ KeepsRegsBut [MEM_FLASH_STATUS.key 0] s.dev d ∧ (Memory.wf s.dev.mem = true → Memory.wf d.mem = true)))
        ∧ (busy = true → Completes (.flashWrite off bs) s (fun d => d.fld MEM_FLASH_STATUS 0 MEM_FLASH_STATUS_ERR = 1
          ∧ KeepsRegsBut [MEM_FLASH_STATUS.key 0] s.dev d ∧ KeepsMemory s.dev d)))
    ∧ (∀ v : W32, let n := MEM_FLASH_CTRL_SECTOR.get (v.setWidth 64)
        MEM_FLASH_CTRL_ERASE.get (v.setWidth 64) = 1 → n ≤ 1462 →
        (busy = false → Completes (.flashErase v) s (fun d => (∀ i < 65536, d.ldB (flashBase + n * 65536 + i) = 0xFF)
          ∧ KeepsMemoryBut (flashBase + n * 65536) 65536 s.dev d ∧ d.fld MEM_FLASH_STATUS 0 MEM_FLASH_STATUS_BUSY = 1
          ∧ KeepsRegsBut [MEM_FLASH_STATUS.key 0] s.dev d ∧ (Memory.wf s.dev.mem = true → Memory.wf d.mem = true)))
        ∧ (busy = true → Completes (.flashErase v) s (fun d => d.fld MEM_FLASH_STATUS 0 MEM_FLASH_STATUS_ERR = 1
          ∧ KeepsRegsBut [MEM_FLASH_STATUS.key 0] s.dev d ∧ KeepsMemory s.dev d)))
    ∧ Completes .flashBusyEnd s (fun d => d.fld MEM_FLASH_STATUS 0 MEM_FLASH_STATUS_BUSY = 0
        ∧ KeepsRegsBut [MEM_FLASH_STATUS.key 0] s.dev d ∧ KeepsMemory s.dev d)
    ∧ (∀ (off : BitVec 26) (n : Fin 65), s.dev.reaches .pf = true → 0x1000000 ≤ off.toNat → off.toNat < 0x4000000 → 0 < n.val →
        off.toNat % 64 + n.val ≤ 64 → (∀ c : Ctx, s.dev.confidential c = false) → s.dev.poison = [] →
        let a := s.dev.fld MEM_APER (off.toNat / 0x1000000 - 1) MEM_APER_BASE * 65536 + off.toNat % 0x1000000
        a + n.val ≤ usableBytes →
        Completes (.apertureAccess .pf off n none .clean false) s (fun d => d.retData = s.dev.ldBytes a n ∧ d.retPoison = false
          ∧ KeepsRegs s.dev d ∧ KeepsMemory s.dev d)
        ∧ ∀ bs : List Byte, (bs.length = n.val → Completes (.apertureAccess .pf off n (some bs) .clean false) s (fun d =>
            d.ldBytes a n = bs ∧ KeepsMemoryBut a n s.dev d ∧ KeepsRegs s.dev d
            ∧ (Memory.wf s.dev.mem = true → Memory.wf d.mem = true)))
          ∧ Completes (.apertureAccess .pf off n (some bs) .clean true) s (fun d => d.outs = s.dev.outs ++ [.aer 0 false]
            ∧ KeepsMemory s.dev d ∧ KeepsRegs s.dev d))
    ∧ (∀ raw : List W16, s.dev.phase = .ready →
        let cool := ∀ n < 16, (s.dev.sensed raw n).toInt < s.dev.tripAt
        (cool → Completes (.thermalSensorRead raw none []) s (fun d => (∀ n : Fin 16, d.fld PWR_TEMP n PWR_TEMP_TEMP
              = (s.dev.sensed raw n).toNat ∧ d.fld PWR_TEMP n PWR_TEMP_STALE = 0)
            ∧ ((∃ n < 16, s.dev.alertAt ≤ (s.dev.sensed raw n).toInt) → d.fld PWR_THERM_STATUS 0 PWR_THERM_STATUS_ALERT = 1)
            ∧ d.tripReads = 0 ∧ d.phase = .ready ∧ KeepsMemory s.dev d))
        ∧ ((∃ n < 16, s.dev.tripAt ≤ (s.dev.sensed raw n).toInt) → s.dev.tripReads = 7 →
            Completes (.thermalSensorRead raw none []) s (fun d => d.phase = .held ∧ d.faultN = true ∧ d.tripped = true
              ∧ d.fld PWR_THERM_STATUS 0 PWR_THERM_STATUS_TRIPPED = 1)))
    ∧ (s.dev.hottest < s.dev.alertAt - 256 * max 1 (s.dev.fld PWR_THERM_CFG 0 PWR_THERM_CFG_HYST_C) →
        Completes .thermAlertClear s (fun d => d.fld PWR_THERM_STATUS 0 PWR_THERM_STATUS_ALERT = 0
          ∧ KeepsRegsBut [PWR_THERM_STATUS.key 0] s.dev d ∧ KeepsMemory s.dev d))
    ∧ (s.dev.alertAt - 256 * max 1 (s.dev.fld PWR_THERM_CFG 0 PWR_THERM_CFG_HYST_C) ≤ s.dev.hottest →
        Completes .thermAlertClear s (fun d => d = s.dev))
    ∧ Completes .pkgPowerRead s (fun d => d.ret = s.dev.rd PWR_PKG_POWER 0 ∧ d.fld PWR_PKG_POWER 0 PWR_PKG_POWER_PEAK = 0
        ∧ d.fld PWR_PKG_POWER 0 PWR_PKG_POWER_AVG = s.dev.fld PWR_PKG_POWER 0 PWR_PKG_POWER_AVG
        ∧ KeepsRegsBut [PWR_PKG_POWER.key 0] s.dev d ∧ KeepsMemory s.dev d)

/-! ## Registers (chapter 0) -/

/-- R15, R18, R353: register accesses of the physical function. -/
def Obligations.RegisterAccessesFollowTheirCodes : Prop :=
  ∀ (now : Nat) (x : BootFind) (v : W64) (s : State),
    let up := s.dev.reaches .pf = true
    (up → ∀ (c : Ctx) (j : Fin 4), s.dev.confidential c = false →
      let i := c.val * 4 + j.val
      let o : BitVec 26 := BitVec.ofNat 26 (0xA1050 + c.val * 0x100 + j.val * 0x20)
      let old := s.dev.rd HST_OUT_MATCH i
      Completes (.registerWrite .pf o 8 v false now x) s (fun d => d.rd HST_OUT_MATCH i = v
        ∧ KeepsRegsBut [HST_OUT_MATCH.key i] s.dev d ∧ KeepsMemory s.dev d)
      ∧ Completes (.registerWrite .pf o 8 v true now x) s (fun d => d = { s.dev with outs := s.dev.outs ++ [.aer 0 false] })
      ∧ Completes (.registerWrite .pf o 4 v false now x) s (fun d => d.fld HST_OUT_MATCH i HST_OUT_MATCH_MASK = v.toNat % 2 ^ 32
        ∧ d.fld HST_OUT_MATCH i HST_OUT_MATCH_MATCH = old.toNat / 2 ^ 32 ∧ KeepsRegsBut [HST_OUT_MATCH.key i] s.dev d
        ∧ KeepsMemory s.dev d)
      ∧ Completes (.registerWrite .pf (o + 4) 4 v false now x) s (fun d => d.fld HST_OUT_MATCH i HST_OUT_MATCH_MATCH = v.toNat % 2 ^ 32
        ∧ d.fld HST_OUT_MATCH i HST_OUT_MATCH_MASK = old.toNat % 2 ^ 32 ∧ KeepsRegsBut [HST_OUT_MATCH.key i] s.dev d
        ∧ KeepsMemory s.dev d))
    ∧ (up → Completes (.registerWrite .pf 0x30000 4 v false now x) s (fun d =>
        (∀ b : Fin 3, (d.fld CLK_STATUS 0 CLK_STATUS_REF_LOST).testBit b
          = ((s.dev.fld CLK_STATUS 0 CLK_STATUS_REF_LOST).testBit b && !(v.getLsbD (8 + b.val))))
        ∧ d.fld CLK_STATUS 0 CLK_STATUS_LOCKED = s.dev.fld CLK_STATUS 0 CLK_STATUS_LOCKED
        ∧ KeepsRegsBut [CLK_STATUS.key 0] s.dev d ∧ KeepsMemory s.dev d))
    ∧ (up → Completes (.registerWrite .pf 0xFFFFF8 8 v false now x) s (fun d => Counted SEC_VIOLATIONS 0 1 s.dev d
        ∧ d.fld SEC_VIOL_LAST 0 SEC_VIOL_LAST_KIND = 0 ∧ d.fld SEC_VIOL_LAST 0 SEC_VIOL_LAST_VALID = 1
        ∧ KeepsRegsBut [SEC_VIOLATIONS.key 0, SEC_VIOL_LAST.key 0] s.dev d ∧ KeepsMemory s.dev d))
    ∧ (s.dev.reaches .pf = false → ∀ (o : BitVec 26) (n : Fin 9), Completes (.registerWrite .pf o n v false now x) s (fun d => d = s.dev)
        ∧ Completes (.lowHalfRead .pf o n) s (fun d => d = s.dev) ∧ Completes (.highHalfRead .pf o) s (fun d => d = s.dev))
    ∧ (up →
      let q := s.dev.rd HC_SEQ 0
      Completes (.lowHalfRead .pf 0x80010 4) s (fun d => d.ret = BitVec.ofNat 64 (q.toNat % 2 ^ 32)
        ∧ d.latchOf .pf = some ⟨.pf, HC_SEQ.key 0, BitVec.ofNat 32 (q.toNat / 2 ^ 32)⟩ ∧ KeepsRegs s.dev d ∧ KeepsMemory s.dev d)
      ∧ Completes (.lowHalfRead .pf 0x80010 8) s (fun d => d.ret = q ∧ d.latches = s.dev.latches ∧ KeepsRegs s.dev d ∧ KeepsMemory s.dev d)
      ∧ (∀ h, s.dev.latchOf .pf = some ⟨.pf, HC_SEQ.key 0, h⟩ → Completes (.highHalfRead .pf 0x80014) s (fun d =>
          d.ret = h.setWidth 64 ∧ d.latchOf .pf = none ∧ KeepsRegs s.dev d ∧ KeepsMemory s.dev d))
      ∧ (s.dev.latchOf .pf = none → Completes (.highHalfRead .pf 0x80014) s (fun d => d.ret = BitVec.ofNat 64 (q.toNat / 2 ^ 32)
          ∧ d.latchOf .pf = none ∧ KeepsRegs s.dev d ∧ KeepsMemory s.dev d)))

/-! ## The block as a whole -/

/-- The queue is the model's own frame (log entry 1): a step runs the command in front. -/
def Obligations.StepRunsTheFrontCommand : Prop :=
  ∀ (s : State) (i : Instr) (rest : List Instr),
    step { s with pending := i :: rest } = exec i { s with pending := rest }
    ∧ step { s with pending := [] } = .next { s with pending := [] }

/-- The Reset column of R92, R164, R362, R409, R472, R551 for these fields, and the empty machine. -/
def Obligations.ResetLeavesTheResetColumn : Prop :=
  State.reset.pending = [] ∧ State.reset.dev.cmds = [] ∧ State.reset.dev.mem = [] ∧ State.reset.memoryCanonical
  ∧ (∀ c : Ctx, (State.reset.dev.gen c).running = false ∧ State.reset.dev.tickOf c = 0 ∧ State.reset.dev.fld CLP_PERIOD c CLP_PERIOD_PERIOD = 0)
  ∧ (∀ (t : Tile) (e : Eng), State.reset.dev.fld NE_CTRL (engIx t e) NE_CTRL_AGE_SWEEP = 1)
  ∧ (∀ (c : Ctx) (j : Fin 4), State.reset.dev.fld HST_OUT_CTRL (c * 4 + j) HST_OUT_CTRL_THRESH = 1)
  ∧ (∀ (a : Fin 64) (q : Fin 16), State.reset.dev.fld MQ_CFG (mqIx a q) MQ_CFG_STALL_US = 100)
  ∧ State.reset.dev.fld MEM_STATUS 0 MEM_STATUS_SPARES = 4096
  ∧ State.reset.dev.fld GLB_BOOT_CFG 0 GLB_BOOT_CFG_ELK_WAIT_MS = 1500 ∧ State.reset.dev.fld GLB_BOOT_CFG 0 GLB_BOOT_CFG_FW_SOURCE = 1

/-- R66, R71, R178, R180: the words of routines and rules. -/
def Obligations.RoutineWordsDecodeBack : Prop :=
  (∀ op : MicroOp, microDecode (MicroOp.encode op) = some op ∧ MicroOp.encode op < 2 ^ 64)
  ∧ (∀ op : LrnOp, lrnPred op ≠ 4 → lrnDecode (LrnOp.encode op) = some op ∧ LrnOp.encode op < 2 ^ 32)

/-- R460: the fuses are blown at wafer and final test, and no command changes them. -/
def Obligations.StepsKeepFusesAndQueueOrder : Prop :=
  ∀ (s : State),
    (∀ t, step s = .next t → t.fuses = s.fuses ∧ t.pending = s.pending.tail)
    ∧ (∀ x, step s ≠ .fault x)
    ∧ (∀ r, step s = .refused r → r = .privateTap ∧ s.dev.dbgActive.testBit 3 = true
        ∧ ∃ code rest, s.pending = .privateTapInstruction code :: rest)
end

