-- ==== Sys2Proof/Laws/Memory.lean ====
section
/-! SUPPORT. Laws of the device physical memory: read after write, and that every memory operation keeps the canonical form. -/

namespace Sys2Proof.Machine

theorem Memory.get_append_absent (a b : List Host.Cell) (k : Nat) (h : ∀ p ∈ a, p.1 ≠ k) :
    Memory.get (a ++ b) k = Memory.get b k := by
  induction a with
  | nil => rfl
  | cons x r ih =>
    obtain ⟨j, v⟩ := x
    have hj : j ≠ k := h (j, v) (by simp)
    have hr : ∀ p ∈ r, p.1 ≠ k := fun p hp => h p (by simp [hp])
    simp [Memory.get, hj, ih hr]

theorem Memory.get_absent (a : List Host.Cell) (k : Nat) (h : ∀ p ∈ a, p.1 ≠ k) : Memory.get a k = memDflt k := by
  have := Memory.get_append_absent a [] k h
  simpa [Memory.get] using this

/-- Reading the byte just written gives the byte written. -/
@[simp] theorem Memory.get_set_same (m : List Host.Cell) (a : Nat) (b : Byte) : Memory.get (Memory.set m a b) a = b := by
  unfold Memory.set
  rw [Memory.get_append_absent _ _ _ (by intro p hp; simp at hp; omega)]
  split
  · next h => rw [Memory.get_absent _ _ (by intro p hp; simp at hp; omega), h]
  · simp [Memory.get]

theorem Memory.get_filter (m : List Host.Cell) (f : Host.Cell → Bool) (j : Nat) (h : ∀ b : Byte, f (j, b) = true) :
    Memory.get (m.filter f) j = Memory.get m j := by
  induction m with
  | nil => rfl
  | cons x r ih =>
    obtain ⟨i, v⟩ := x
    by_cases hf : f (i, v) = true
    · simp only [List.filter_cons, hf, if_true, Memory.get, ih]
    · have : i ≠ j := by rintro rfl; exact hf (h v)
      simp [hf, Memory.get, this, ih]

theorem Memory.get_filter_append (m b : List Host.Cell) (f : Host.Cell → Bool) (j : Nat) (h : ∀ b : Byte, f (j, b) = true)
    (hb : ∀ p ∈ b, p.1 ≠ j) : Memory.get (m.filter f ++ b) j = Memory.get m j := by
  induction m with
  | nil => rw [List.filter_nil, List.nil_append, Memory.get_absent b j hb]; rfl
  | cons x r ih =>
    obtain ⟨i, v⟩ := x
    by_cases hf : f (i, v) = true
    · simp only [List.filter_cons, hf, if_true, List.cons_append, Memory.get, ih]
    · have : i ≠ j := by rintro rfl; exact hf (h v)
      simp [hf, Memory.get, this, ih]

/-- Reading another byte gives what it held. -/
theorem Memory.get_set_other (m : List Host.Cell) (a j : Nat) (b : Byte) (h : j ≠ a) : Memory.get (Memory.set m a b) j = Memory.get m j := by
  unfold Memory.set
  rcases Nat.lt_or_gt_of_ne h with hj | hj
  · refine Memory.get_filter_append m _ _ j (by intro _; simpa using hj) ?_
    intro p hp
    split at hp
    · simp at hp; omega
    · rcases List.mem_cons.mp hp with rfl | hp
      · omega
      · simp at hp; omega
  · rw [Memory.get_append_absent _ _ _ (by intro p hp; simp at hp; omega)]
    split
    · exact Memory.get_filter m _ j (by intro _; simpa using hj)
    · have : a ≠ j := by omega
      have hf := Memory.get_filter m (fun c => decide (a < c.1)) j (by intro _; simpa using hj)
      simp only [Memory.get, this, if_false, hf]

/-- The canonical form as two facts: keys strictly rising, no cell equal to what an unlisted one reads as. -/
theorem Memory.wf_iff (m : List Host.Cell) :
    Memory.wf m = true ↔ m.Pairwise (fun x y => x.1 < y.1) ∧ ∀ x ∈ m, x.2 ≠ memDflt x.1 := by
  induction m with
  | nil => simp [Memory.wf]
  | cons x r ih =>
    cases r with
    | nil => obtain ⟨a, b⟩ := x; simp [Memory.wf]
    | cons y r =>
      obtain ⟨a, b⟩ := x
      obtain ⟨a', b'⟩ := y
      simp only [Memory.wf, Bool.and_eq_true, decide_eq_true_eq, ih, List.pairwise_cons, List.forall_mem_cons]
      constructor
      · rintro ⟨⟨hb, hlt⟩, ⟨hy, hp⟩, hb', hr⟩
        exact ⟨⟨⟨hlt, fun z hz => Nat.lt_trans hlt (hy z hz)⟩, hy, hp⟩, hb, hb', hr⟩
      · rintro ⟨⟨⟨hlt, _⟩, hy, hp⟩, hb, hb', hr⟩
        exact ⟨⟨hb, hlt⟩, ⟨hy, hp⟩, hb', hr⟩

/-- Dropping cells keeps the canonical form. -/
theorem Memory.wf_filter (m : List Host.Cell) (f : Host.Cell → Bool) (h : Memory.wf m = true) : Memory.wf (m.filter f) = true := by
  rw [Memory.wf_iff] at h ⊢
  exact ⟨h.1.filter _, fun x hx => h.2 x ((List.mem_filter.mp hx).1)⟩

/-- A write keeps the canonical form. -/
theorem Memory.wf_set (m : List Host.Cell) (a : Nat) (b : Byte) (h : Memory.wf m = true) : Memory.wf (Memory.set m a b) = true := by
  rw [Memory.wf_iff] at h ⊢
  obtain ⟨hp, hd⟩ := h
  unfold Memory.set
  constructor
  · rw [List.pairwise_append]
    refine ⟨hp.filter _, ?_, ?_⟩
    · split
      · exact hp.filter _
      · exact List.pairwise_cons.mpr ⟨by intro y hy; simp at hy; exact hy.2, hp.filter _⟩
    · intro x hx y hy
      simp at hx
      split at hy
      · simp at hy; omega
      · rcases List.mem_cons.mp hy with rfl | hy
        · exact hx.2
        · simp at hy; omega
  · intro x hx
    rcases List.mem_append.mp hx with hx | hx
    · exact hd x ((List.mem_filter.mp hx).1)
    · split at hx
      · exact hd x ((List.mem_filter.mp hx).1)
      · next hb =>
        rcases List.mem_cons.mp hx with rfl | hx
        · exact hb
        · exact hd x ((List.mem_filter.mp hx).1)

/-! ## The device's memory operations -/

theorem Dev.stB_mem_wf (d : Dev) (a : Nat) (b : Byte) (h : Memory.wf d.mem = true) : Memory.wf (d.stB a b).mem = true := by
  show Memory.wf (if memMaps a then Memory.set d.mem a b else d.mem) = true
  split
  · exact Memory.wf_set _ _ _ h
  · exact h

theorem Dev.stBytes_mem_wf (bs : List Byte) : ∀ (d : Dev) (a : Nat), Memory.wf d.mem = true → Memory.wf (d.stBytes a bs).mem = true := by
  induction bs with
  | nil => intro d a h; exact h
  | cons b r ih => intro d a h; exact ih _ _ (Dev.stB_mem_wf d a b h)

theorem Dev.st_mem_wf (d : Dev) (a n v : Nat) (h : Memory.wf d.mem = true) : Memory.wf (d.st a n v).mem = true := Dev.stBytes_mem_wf _ d a h

theorem Dev.clear_mem_wf (d : Dev) (a n : Nat) (h : Memory.wf d.mem = true) : Memory.wf (d.clear a n).mem = true := Memory.wf_filter _ _ h

theorem Dev.fill_mem_wf (d : Dev) (a n : Nat) (b : Byte) (h : Memory.wf d.mem = true) : Memory.wf (d.fill a n b).mem = true := by
  unfold Dev.fill
  induction List.range n generalizing d with
  | nil => exact h
  | cons x r ih => exact ih _ (Dev.stB_mem_wf d _ b h)

theorem Dev.ldB_stB_same (d : Dev) (a : Nat) (b : Byte) (h : memMaps a = true) : (d.stB a b).ldB a = b := by
  simp [Dev.stB, Dev.ldB, h]

@[simp] theorem Dev.stB_mem (d : Dev) (a : Nat) (b : Byte) : (d.stB a b).mem = if memMaps a then Memory.set d.mem a b else d.mem := rfl

/-- A byte stored leaves every other byte. -/
theorem Dev.ldB_stB_other (d : Dev) (a j : Nat) (b : Byte) (h : j ≠ a) : (d.stB a b).ldB j = d.ldB j := by
  simp only [Dev.ldB, Dev.stB_mem]
  split
  · split
    · exact Memory.get_set_other _ _ _ _ h
    · rfl
  · rfl

/-- Bytes stored leave every byte outside them. -/
theorem Dev.ldB_stBytes_other (bs : List Byte) :
    ∀ (d : Dev) (a j : Nat), j < a ∨ a + bs.length ≤ j → (d.stBytes a bs).ldB j = d.ldB j := by
  induction bs with
  | nil => intro d a j _; rfl
  | cons b r ih =>
    intro d a j h
    simp only [List.length_cons] at h
    rw [Dev.stBytes, ih _ _ _ (by omega), Dev.ldB_stB_other _ _ _ _ (by omega)]

/-- A cleared range leaves every byte outside it. -/
theorem Dev.ldB_clear_other (d : Dev) (a n j : Nat) (h : j < a ∨ a + n ≤ j) : (d.clear a n).ldB j = d.ldB j := by
  have hf : ∀ b : Byte, (!(decide (a ≤ j) && decide (j < a + n))) = true := by
    intro _
    have : ¬ (a ≤ j ∧ j < a + n) := by omega
    simp only [Bool.not_eq_true', Bool.and_eq_false_iff, decide_eq_false_iff_not]
    omega
  unfold Dev.clear Dev.ldB
  split
  · exact Memory.get_filter _ _ j hf
  · rfl

end Sys2Proof.Machine
end

