-- ==== Sys2Proof/Laws/State.lean ====
section
/-! SUPPORT. What each named update of the device leaves: one lemma for each field and update. -/

namespace Sys2Proof.Machine

section
variable (d : Dev) (r : Reg) (i : Nat) (v : W64)
@[simp] theorem Dev.wr_mem : (d.wr r i v).mem = d.mem := rfl
@[simp] theorem Dev.wr_host : (d.wr r i v).host = d.host := rfl
@[simp] theorem Dev.wr_outs : (d.wr r i v).outs = d.outs := rfl
@[simp] theorem Dev.wr_free : (d.wr r i v).free = d.free := rfl
@[simp] theorem Dev.wr_latches : (d.wr r i v).latches = d.latches := rfl
@[simp] theorem Dev.wr_barker : (d.wr r i v).barker = d.barker := rfl
@[simp] theorem Dev.wr_ret : (d.wr r i v).ret = d.ret := rfl
@[simp] theorem Dev.wr_engs : (d.wr r i v).engs = d.engs := rfl
@[simp] theorem Dev.wr_copies : (d.wr r i v).copies = d.copies := rfl
@[simp] theorem Dev.wr_nextCopy : (d.wr r i v).nextCopy = d.nextCopy := rfl
@[simp] theorem Dev.wr_inflight : (d.wr r i v).inflight = d.inflight := rfl
@[simp] theorem Dev.wr_gens : (d.wr r i v).gens = d.gens := rfl
@[simp] theorem Dev.wr_waves : (d.wr r i v).waves = d.waves := rfl
@[simp] theorem Dev.wr_tumCtx : (d.wr r i v).tumCtx = d.tumCtx := rfl
@[simp] theorem Dev.wr_preQ : (d.wr r i v).preQ = d.preQ := rfl
@[simp] theorem Dev.wr_tums : (d.wr r i v).tums = d.tums := rfl
@[simp] theorem Dev.wr_descs : (d.wr r i v).descs = d.descs := rfl
@[simp] theorem Dev.wr_blocks : (d.wr r i v).blocks = d.blocks := rfl
@[simp] theorem Dev.wr_flows : (d.wr r i v).flows = d.flows := rfl
@[simp] theorem Dev.wr_pins : (d.wr r i v).pins = d.pins := rfl
@[simp] theorem Dev.wr_projRec : (d.wr r i v).projRec = d.projRec := rfl
@[simp] theorem Dev.wr_migrs : (d.wr r i v).migrs = d.migrs := rfl
@[simp] theorem Dev.wr_evacs : (d.wr r i v).evacs = d.evacs := rfl
@[simp] theorem Dev.wr_demoted : (d.wr r i v).demoted = d.demoted := rfl
@[simp] theorem Dev.wr_newFlows : (d.wr r i v).newFlows = d.newFlows := rfl
@[simp] theorem Dev.wr_routers : (d.wr r i v).routers = d.routers := rfl
@[simp] theorem Dev.wr_gwIn : (d.wr r i v).gwIn = d.gwIn := rfl
@[simp] theorem Dev.wr_rimIn : (d.wr r i v).rimIn = d.rimIn := rfl
@[simp] theorem Dev.wr_mirrors : (d.wr r i v).mirrors = d.mirrors := rfl
@[simp] theorem Dev.wr_gated : (d.wr r i v).gated = d.gated := rfl
@[simp] theorem Dev.wr_ports : (d.wr r i v).ports = d.ports := rfl
@[simp] theorem Dev.wr_rimTab : (d.wr r i v).rimTab = d.rimTab := rfl
@[simp] theorem Dev.wr_rimBad : (d.wr r i v).rimBad = d.rimBad := rfl
@[simp] theorem Dev.wr_rimHeld : (d.wr r i v).rimHeld = d.rimHeld := rfl
@[simp] theorem Dev.wr_swIn : (d.wr r i v).swIn = d.swIn := rfl
@[simp] theorem Dev.wr_owners : (d.wr r i v).owners = d.owners := rfl
@[simp] theorem Dev.wr_nextOwner : (d.wr r i v).nextOwner = d.nextOwner := rfl
@[simp] theorem Dev.wr_marksIn : (d.wr r i v).marksIn = d.marksIn := rfl
@[simp] theorem Dev.wr_pkIn : (d.wr r i v).pkIn = d.pkIn := rfl
@[simp] theorem Dev.wr_xptIn : (d.wr r i v).xptIn = d.xptIn := rfl
@[simp] theorem Dev.wr_xptTx : (d.wr r i v).xptTx = d.xptTx := rfl
@[simp] theorem Dev.wr_xptRx : (d.wr r i v).xptRx = d.xptRx := rfl
@[simp] theorem Dev.wr_endIn : (d.wr r i v).endIn = d.endIn := rfl
@[simp] theorem Dev.wr_aero : (d.wr r i v).aero = d.aero := rfl
@[simp] theorem Dev.wr_aeroPin : (d.wr r i v).aeroPin = d.aeroPin := rfl
@[simp] theorem Dev.wr_sns : (d.wr r i v).sns = d.sns := rfl
@[simp] theorem Dev.wr_csi : (d.wr r i v).csi = d.csi := rfl
@[simp] theorem Dev.wr_aeri : (d.wr r i v).aeri = d.aeri := rfl
@[simp] theorem Dev.wr_crcHeld : (d.wr r i v).crcHeld = d.crcHeld := rfl
@[simp] theorem Dev.wr_crcLow : (d.wr r i v).crcLow = d.crcLow := rfl
@[simp] theorem Dev.wr_crcDue : (d.wr r i v).crcDue = d.crcDue := rfl
@[simp] theorem Dev.wr_pcie : (d.wr r i v).pcie = d.pcie := rfl
@[simp] theorem Dev.wr_outRings : (d.wr r i v).outRings = d.outRings := rfl
@[simp] theorem Dev.wr_injOut : (d.wr r i v).injOut = d.injOut := rfl
@[simp] theorem Dev.wr_injStopped : (d.wr r i v).injStopped = d.injStopped := rfl
@[simp] theorem Dev.wr_cmds : (d.wr r i v).cmds = d.cmds := rfl
@[simp] theorem Dev.wr_nextCmd : (d.wr r i v).nextCmd = d.nextCmd := rfl
@[simp] theorem Dev.wr_cqs : (d.wr r i v).cqs = d.cqs := rfl
@[simp] theorem Dev.wr_remoteAlive : (d.wr r i v).remoteAlive = d.remoteAlive := rfl
@[simp] theorem Dev.wr_rmRestart : (d.wr r i v).rmRestart = d.rmRestart := rfl
@[simp] theorem Dev.wr_sqStopped : (d.wr r i v).sqStopped = d.sqStopped := rfl
@[simp] theorem Dev.wr_cqStopped : (d.wr r i v).cqStopped = d.cqStopped := rfl
@[simp] theorem Dev.wr_mqs : (d.wr r i v).mqs = d.mqs := rfl
@[simp] theorem Dev.wr_staged : (d.wr r i v).staged = d.staged := rfl
@[simp] theorem Dev.wr_units : (d.wr r i v).units = d.units := rfl
@[simp] theorem Dev.wr_phase : (d.wr r i v).phase = d.phase := rfl
@[simp] theorem Dev.wr_lifecycle : (d.wr r i v).lifecycle = d.lifecycle := rfl
@[simp] theorem Dev.wr_svnMin : (d.wr r i v).svnMin = d.svnMin := rfl
@[simp] theorem Dev.wr_slotA : (d.wr r i v).slotA = d.slotA := rfl
@[simp] theorem Dev.wr_slotB : (d.wr r i v).slotB = d.slotB := rfl
@[simp] theorem Dev.wr_bootB : (d.wr r i v).bootB = d.bootB := rfl
@[simp] theorem Dev.wr_fw : (d.wr r i v).fw = d.fw := rfl
@[simp] theorem Dev.wr_netImage : (d.wr r i v).netImage = d.netImage := rfl
@[simp] theorem Dev.wr_netBoot : (d.wr r i v).netBoot = d.netBoot := rfl
@[simp] theorem Dev.wr_lics : (d.wr r i v).lics = d.lics := rfl
@[simp] theorem Dev.wr_cal : (d.wr r i v).cal = d.cal := rfl
@[simp] theorem Dev.wr_trims : (d.wr r i v).trims = d.trims := rfl
@[simp] theorem Dev.wr_identity : (d.wr r i v).identity = d.identity := rfl
@[simp] theorem Dev.wr_savedTime : (d.wr r i v).savedTime = d.savedTime := rfl
@[simp] theorem Dev.wr_softRows : (d.wr r i v).softRows = d.softRows := rfl
@[simp] theorem Dev.wr_rowRepairs : (d.wr r i v).rowRepairs = d.rowRepairs := rfl
@[simp] theorem Dev.wr_retData : (d.wr r i v).retData = d.retData := rfl
@[simp] theorem Dev.wr_retPoison : (d.wr r i v).retPoison = d.retPoison := rfl
@[simp] theorem Dev.wr_faultN : (d.wr r i v).faultN = d.faultN := rfl
@[simp] theorem Dev.wr_wakeN : (d.wr r i v).wakeN = d.wakeN := rfl
@[simp] theorem Dev.wr_vid : (d.wr r i v).vid = d.vid := rfl
@[simp] theorem Dev.wr_padAero : (d.wr r i v).padAero = d.padAero := rfl
@[simp] theorem Dev.wr_smbAddr : (d.wr r i v).smbAddr = d.smbAddr := rfl
@[simp] theorem Dev.wr_rails : (d.wr r i v).rails = d.rails := rfl
@[simp] theorem Dev.wr_tripReads : (d.wr r i v).tripReads = d.tripReads := rfl
@[simp] theorem Dev.wr_tripped : (d.wr r i v).tripped = d.tripped := rfl
@[simp] theorem Dev.wr_napFrom : (d.wr r i v).napFrom = d.napFrom := rfl
@[simp] theorem Dev.wr_halfGated : (d.wr r i v).halfGated = d.halfGated := rfl
@[simp] theorem Dev.wr_tcRestart : (d.wr r i v).tcRestart = d.tcRestart := rfl
@[simp] theorem Dev.wr_ctxReset : (d.wr r i v).ctxReset = d.ctxReset := rfl
@[simp] theorem Dev.wr_dbgHalt : (d.wr r i v).dbgHalt = d.dbgHalt := rfl
@[simp] theorem Dev.wr_dbgTiles : (d.wr r i v).dbgTiles = d.dbgTiles := rfl
@[simp] theorem Dev.wr_restore : (d.wr r i v).restore = d.restore := rfl
@[simp] theorem Dev.wr_fwTry : (d.wr r i v).fwTry = d.fwTry := rfl
@[simp] theorem Dev.wr_tap : (d.wr r i v).tap = d.tap := rfl
@[simp] theorem Dev.wr_snsLoss : (d.wr r i v).snsLoss = d.snsLoss := rfl
@[simp] theorem Dev.wr_snsLossAt : (d.wr r i v).snsLossAt = d.snsLossAt := rfl
@[simp] theorem Dev.wr_tmr : (d.wr r i v).tmr = d.tmr := rfl
@[simp] theorem Dev.wr_hcExt : (d.wr r i v).hcExt = d.hcExt := rfl
@[simp] theorem Dev.wr_hcRst : (d.wr r i v).hcRst = d.hcRst := rfl
@[simp] theorem Dev.wr_hcMark : (d.wr r i v).hcMark = d.hcMark := rfl
@[simp] theorem Dev.wr_hcDump : (d.wr r i v).hcDump = d.hcDump := rfl
@[simp] theorem Dev.wr_homLap : (d.wr r i v).homLap = d.homLap := rfl
@[simp] theorem Dev.wr_poison : (d.wr r i v).poison = d.poison := rfl
end

section
variable (d : Dev) (r : Reg) (i : Nat) (f : Fld) (n : Nat)
@[simp] theorem Dev.setF_mem : (d.setF r i f n).mem = d.mem := rfl
@[simp] theorem Dev.setF_host : (d.setF r i f n).host = d.host := rfl
@[simp] theorem Dev.setF_outs : (d.setF r i f n).outs = d.outs := rfl
@[simp] theorem Dev.setF_free : (d.setF r i f n).free = d.free := rfl
@[simp] theorem Dev.setF_latches : (d.setF r i f n).latches = d.latches := rfl
@[simp] theorem Dev.setF_barker : (d.setF r i f n).barker = d.barker := rfl
@[simp] theorem Dev.setF_ret : (d.setF r i f n).ret = d.ret := rfl
@[simp] theorem Dev.setF_engs : (d.setF r i f n).engs = d.engs := rfl
@[simp] theorem Dev.setF_copies : (d.setF r i f n).copies = d.copies := rfl
@[simp] theorem Dev.setF_nextCopy : (d.setF r i f n).nextCopy = d.nextCopy := rfl
@[simp] theorem Dev.setF_inflight : (d.setF r i f n).inflight = d.inflight := rfl
@[simp] theorem Dev.setF_gens : (d.setF r i f n).gens = d.gens := rfl
@[simp] theorem Dev.setF_waves : (d.setF r i f n).waves = d.waves := rfl
@[simp] theorem Dev.setF_tumCtx : (d.setF r i f n).tumCtx = d.tumCtx := rfl
@[simp] theorem Dev.setF_preQ : (d.setF r i f n).preQ = d.preQ := rfl
@[simp] theorem Dev.setF_tums : (d.setF r i f n).tums = d.tums := rfl
@[simp] theorem Dev.setF_descs : (d.setF r i f n).descs = d.descs := rfl
@[simp] theorem Dev.setF_blocks : (d.setF r i f n).blocks = d.blocks := rfl
@[simp] theorem Dev.setF_flows : (d.setF r i f n).flows = d.flows := rfl
@[simp] theorem Dev.setF_pins : (d.setF r i f n).pins = d.pins := rfl
@[simp] theorem Dev.setF_projRec : (d.setF r i f n).projRec = d.projRec := rfl
@[simp] theorem Dev.setF_migrs : (d.setF r i f n).migrs = d.migrs := rfl
@[simp] theorem Dev.setF_evacs : (d.setF r i f n).evacs = d.evacs := rfl
@[simp] theorem Dev.setF_demoted : (d.setF r i f n).demoted = d.demoted := rfl
@[simp] theorem Dev.setF_newFlows : (d.setF r i f n).newFlows = d.newFlows := rfl
@[simp] theorem Dev.setF_routers : (d.setF r i f n).routers = d.routers := rfl
@[simp] theorem Dev.setF_gwIn : (d.setF r i f n).gwIn = d.gwIn := rfl
@[simp] theorem Dev.setF_rimIn : (d.setF r i f n).rimIn = d.rimIn := rfl
@[simp] theorem Dev.setF_mirrors : (d.setF r i f n).mirrors = d.mirrors := rfl
@[simp] theorem Dev.setF_gated : (d.setF r i f n).gated = d.gated := rfl
@[simp] theorem Dev.setF_ports : (d.setF r i f n).ports = d.ports := rfl
@[simp] theorem Dev.setF_rimTab : (d.setF r i f n).rimTab = d.rimTab := rfl
@[simp] theorem Dev.setF_rimBad : (d.setF r i f n).rimBad = d.rimBad := rfl
@[simp] theorem Dev.setF_rimHeld : (d.setF r i f n).rimHeld = d.rimHeld := rfl
@[simp] theorem Dev.setF_swIn : (d.setF r i f n).swIn = d.swIn := rfl
@[simp] theorem Dev.setF_owners : (d.setF r i f n).owners = d.owners := rfl
@[simp] theorem Dev.setF_nextOwner : (d.setF r i f n).nextOwner = d.nextOwner := rfl
@[simp] theorem Dev.setF_marksIn : (d.setF r i f n).marksIn = d.marksIn := rfl
@[simp] theorem Dev.setF_pkIn : (d.setF r i f n).pkIn = d.pkIn := rfl
@[simp] theorem Dev.setF_xptIn : (d.setF r i f n).xptIn = d.xptIn := rfl
@[simp] theorem Dev.setF_xptTx : (d.setF r i f n).xptTx = d.xptTx := rfl
@[simp] theorem Dev.setF_xptRx : (d.setF r i f n).xptRx = d.xptRx := rfl
@[simp] theorem Dev.setF_endIn : (d.setF r i f n).endIn = d.endIn := rfl
@[simp] theorem Dev.setF_aero : (d.setF r i f n).aero = d.aero := rfl
@[simp] theorem Dev.setF_aeroPin : (d.setF r i f n).aeroPin = d.aeroPin := rfl
@[simp] theorem Dev.setF_sns : (d.setF r i f n).sns = d.sns := rfl
@[simp] theorem Dev.setF_csi : (d.setF r i f n).csi = d.csi := rfl
@[simp] theorem Dev.setF_aeri : (d.setF r i f n).aeri = d.aeri := rfl
@[simp] theorem Dev.setF_crcHeld : (d.setF r i f n).crcHeld = d.crcHeld := rfl
@[simp] theorem Dev.setF_crcLow : (d.setF r i f n).crcLow = d.crcLow := rfl
@[simp] theorem Dev.setF_crcDue : (d.setF r i f n).crcDue = d.crcDue := rfl
@[simp] theorem Dev.setF_pcie : (d.setF r i f n).pcie = d.pcie := rfl
@[simp] theorem Dev.setF_outRings : (d.setF r i f n).outRings = d.outRings := rfl
@[simp] theorem Dev.setF_injOut : (d.setF r i f n).injOut = d.injOut := rfl
@[simp] theorem Dev.setF_injStopped : (d.setF r i f n).injStopped = d.injStopped := rfl
@[simp] theorem Dev.setF_cmds : (d.setF r i f n).cmds = d.cmds := rfl
@[simp] theorem Dev.setF_nextCmd : (d.setF r i f n).nextCmd = d.nextCmd := rfl
@[simp] theorem Dev.setF_cqs : (d.setF r i f n).cqs = d.cqs := rfl
@[simp] theorem Dev.setF_remoteAlive : (d.setF r i f n).remoteAlive = d.remoteAlive := rfl
@[simp] theorem Dev.setF_rmRestart : (d.setF r i f n).rmRestart = d.rmRestart := rfl
@[simp] theorem Dev.setF_sqStopped : (d.setF r i f n).sqStopped = d.sqStopped := rfl
@[simp] theorem Dev.setF_cqStopped : (d.setF r i f n).cqStopped = d.cqStopped := rfl
@[simp] theorem Dev.setF_mqs : (d.setF r i f n).mqs = d.mqs := rfl
@[simp] theorem Dev.setF_staged : (d.setF r i f n).staged = d.staged := rfl
@[simp] theorem Dev.setF_units : (d.setF r i f n).units = d.units := rfl
@[simp] theorem Dev.setF_phase : (d.setF r i f n).phase = d.phase := rfl
@[simp] theorem Dev.setF_lifecycle : (d.setF r i f n).lifecycle = d.lifecycle := rfl
@[simp] theorem Dev.setF_svnMin : (d.setF r i f n).svnMin = d.svnMin := rfl
@[simp] theorem Dev.setF_slotA : (d.setF r i f n).slotA = d.slotA := rfl
@[simp] theorem Dev.setF_slotB : (d.setF r i f n).slotB = d.slotB := rfl
@[simp] theorem Dev.setF_bootB : (d.setF r i f n).bootB = d.bootB := rfl
@[simp] theorem Dev.setF_fw : (d.setF r i f n).fw = d.fw := rfl
@[simp] theorem Dev.setF_netImage : (d.setF r i f n).netImage = d.netImage := rfl
@[simp] theorem Dev.setF_netBoot : (d.setF r i f n).netBoot = d.netBoot := rfl
@[simp] theorem Dev.setF_lics : (d.setF r i f n).lics = d.lics := rfl
@[simp] theorem Dev.setF_cal : (d.setF r i f n).cal = d.cal := rfl
@[simp] theorem Dev.setF_trims : (d.setF r i f n).trims = d.trims := rfl
@[simp] theorem Dev.setF_identity : (d.setF r i f n).identity = d.identity := rfl
@[simp] theorem Dev.setF_savedTime : (d.setF r i f n).savedTime = d.savedTime := rfl
@[simp] theorem Dev.setF_softRows : (d.setF r i f n).softRows = d.softRows := rfl
@[simp] theorem Dev.setF_rowRepairs : (d.setF r i f n).rowRepairs = d.rowRepairs := rfl
@[simp] theorem Dev.setF_retData : (d.setF r i f n).retData = d.retData := rfl
@[simp] theorem Dev.setF_retPoison : (d.setF r i f n).retPoison = d.retPoison := rfl
@[simp] theorem Dev.setF_faultN : (d.setF r i f n).faultN = d.faultN := rfl
@[simp] theorem Dev.setF_wakeN : (d.setF r i f n).wakeN = d.wakeN := rfl
@[simp] theorem Dev.setF_vid : (d.setF r i f n).vid = d.vid := rfl
@[simp] theorem Dev.setF_padAero : (d.setF r i f n).padAero = d.padAero := rfl
@[simp] theorem Dev.setF_smbAddr : (d.setF r i f n).smbAddr = d.smbAddr := rfl
@[simp] theorem Dev.setF_rails : (d.setF r i f n).rails = d.rails := rfl
@[simp] theorem Dev.setF_tripReads : (d.setF r i f n).tripReads = d.tripReads := rfl
@[simp] theorem Dev.setF_tripped : (d.setF r i f n).tripped = d.tripped := rfl
@[simp] theorem Dev.setF_napFrom : (d.setF r i f n).napFrom = d.napFrom := rfl
@[simp] theorem Dev.setF_halfGated : (d.setF r i f n).halfGated = d.halfGated := rfl
@[simp] theorem Dev.setF_tcRestart : (d.setF r i f n).tcRestart = d.tcRestart := rfl
@[simp] theorem Dev.setF_ctxReset : (d.setF r i f n).ctxReset = d.ctxReset := rfl
@[simp] theorem Dev.setF_dbgHalt : (d.setF r i f n).dbgHalt = d.dbgHalt := rfl
@[simp] theorem Dev.setF_dbgTiles : (d.setF r i f n).dbgTiles = d.dbgTiles := rfl
@[simp] theorem Dev.setF_restore : (d.setF r i f n).restore = d.restore := rfl
@[simp] theorem Dev.setF_fwTry : (d.setF r i f n).fwTry = d.fwTry := rfl
@[simp] theorem Dev.setF_tap : (d.setF r i f n).tap = d.tap := rfl
@[simp] theorem Dev.setF_snsLoss : (d.setF r i f n).snsLoss = d.snsLoss := rfl
@[simp] theorem Dev.setF_snsLossAt : (d.setF r i f n).snsLossAt = d.snsLossAt := rfl
@[simp] theorem Dev.setF_tmr : (d.setF r i f n).tmr = d.tmr := rfl
@[simp] theorem Dev.setF_hcExt : (d.setF r i f n).hcExt = d.hcExt := rfl
@[simp] theorem Dev.setF_hcRst : (d.setF r i f n).hcRst = d.hcRst := rfl
@[simp] theorem Dev.setF_hcMark : (d.setF r i f n).hcMark = d.hcMark := rfl
@[simp] theorem Dev.setF_hcDump : (d.setF r i f n).hcDump = d.hcDump := rfl
@[simp] theorem Dev.setF_homLap : (d.setF r i f n).homLap = d.homLap := rfl
@[simp] theorem Dev.setF_poison : (d.setF r i f n).poison = d.poison := rfl
end

section
variable (d : Dev) (a : Nat) (b : Byte)
@[simp] theorem Dev.stB_regs : (d.stB a b).regs = d.regs := rfl
@[simp] theorem Dev.stB_host : (d.stB a b).host = d.host := rfl
@[simp] theorem Dev.stB_outs : (d.stB a b).outs = d.outs := rfl
@[simp] theorem Dev.stB_free : (d.stB a b).free = d.free := rfl
@[simp] theorem Dev.stB_latches : (d.stB a b).latches = d.latches := rfl
@[simp] theorem Dev.stB_barker : (d.stB a b).barker = d.barker := rfl
@[simp] theorem Dev.stB_ret : (d.stB a b).ret = d.ret := rfl
@[simp] theorem Dev.stB_engs : (d.stB a b).engs = d.engs := rfl
@[simp] theorem Dev.stB_copies : (d.stB a b).copies = d.copies := rfl
@[simp] theorem Dev.stB_nextCopy : (d.stB a b).nextCopy = d.nextCopy := rfl
@[simp] theorem Dev.stB_inflight : (d.stB a b).inflight = d.inflight := rfl
@[simp] theorem Dev.stB_gens : (d.stB a b).gens = d.gens := rfl
@[simp] theorem Dev.stB_waves : (d.stB a b).waves = d.waves := rfl
@[simp] theorem Dev.stB_tumCtx : (d.stB a b).tumCtx = d.tumCtx := rfl
@[simp] theorem Dev.stB_preQ : (d.stB a b).preQ = d.preQ := rfl
@[simp] theorem Dev.stB_tums : (d.stB a b).tums = d.tums := rfl
@[simp] theorem Dev.stB_descs : (d.stB a b).descs = d.descs := rfl
@[simp] theorem Dev.stB_blocks : (d.stB a b).blocks = d.blocks := rfl
@[simp] theorem Dev.stB_flows : (d.stB a b).flows = d.flows := rfl
@[simp] theorem Dev.stB_pins : (d.stB a b).pins = d.pins := rfl
@[simp] theorem Dev.stB_projRec : (d.stB a b).projRec = d.projRec := rfl
@[simp] theorem Dev.stB_migrs : (d.stB a b).migrs = d.migrs := rfl
@[simp] theorem Dev.stB_evacs : (d.stB a b).evacs = d.evacs := rfl
@[simp] theorem Dev.stB_demoted : (d.stB a b).demoted = d.demoted := rfl
@[simp] theorem Dev.stB_newFlows : (d.stB a b).newFlows = d.newFlows := rfl
@[simp] theorem Dev.stB_routers : (d.stB a b).routers = d.routers := rfl
@[simp] theorem Dev.stB_gwIn : (d.stB a b).gwIn = d.gwIn := rfl
@[simp] theorem Dev.stB_rimIn : (d.stB a b).rimIn = d.rimIn := rfl
@[simp] theorem Dev.stB_mirrors : (d.stB a b).mirrors = d.mirrors := rfl
@[simp] theorem Dev.stB_gated : (d.stB a b).gated = d.gated := rfl
@[simp] theorem Dev.stB_ports : (d.stB a b).ports = d.ports := rfl
@[simp] theorem Dev.stB_rimTab : (d.stB a b).rimTab = d.rimTab := rfl
@[simp] theorem Dev.stB_rimBad : (d.stB a b).rimBad = d.rimBad := rfl
@[simp] theorem Dev.stB_rimHeld : (d.stB a b).rimHeld = d.rimHeld := rfl
@[simp] theorem Dev.stB_swIn : (d.stB a b).swIn = d.swIn := rfl
@[simp] theorem Dev.stB_owners : (d.stB a b).owners = d.owners := rfl
@[simp] theorem Dev.stB_nextOwner : (d.stB a b).nextOwner = d.nextOwner := rfl
@[simp] theorem Dev.stB_marksIn : (d.stB a b).marksIn = d.marksIn := rfl
@[simp] theorem Dev.stB_pkIn : (d.stB a b).pkIn = d.pkIn := rfl
@[simp] theorem Dev.stB_xptIn : (d.stB a b).xptIn = d.xptIn := rfl
@[simp] theorem Dev.stB_xptTx : (d.stB a b).xptTx = d.xptTx := rfl
@[simp] theorem Dev.stB_xptRx : (d.stB a b).xptRx = d.xptRx := rfl
@[simp] theorem Dev.stB_endIn : (d.stB a b).endIn = d.endIn := rfl
@[simp] theorem Dev.stB_aero : (d.stB a b).aero = d.aero := rfl
@[simp] theorem Dev.stB_aeroPin : (d.stB a b).aeroPin = d.aeroPin := rfl
@[simp] theorem Dev.stB_sns : (d.stB a b).sns = d.sns := rfl
@[simp] theorem Dev.stB_csi : (d.stB a b).csi = d.csi := rfl
@[simp] theorem Dev.stB_aeri : (d.stB a b).aeri = d.aeri := rfl
@[simp] theorem Dev.stB_crcHeld : (d.stB a b).crcHeld = d.crcHeld := rfl
@[simp] theorem Dev.stB_crcLow : (d.stB a b).crcLow = d.crcLow := rfl
@[simp] theorem Dev.stB_crcDue : (d.stB a b).crcDue = d.crcDue := rfl
@[simp] theorem Dev.stB_pcie : (d.stB a b).pcie = d.pcie := rfl
@[simp] theorem Dev.stB_outRings : (d.stB a b).outRings = d.outRings := rfl
@[simp] theorem Dev.stB_injOut : (d.stB a b).injOut = d.injOut := rfl
@[simp] theorem Dev.stB_injStopped : (d.stB a b).injStopped = d.injStopped := rfl
@[simp] theorem Dev.stB_cmds : (d.stB a b).cmds = d.cmds := rfl
@[simp] theorem Dev.stB_nextCmd : (d.stB a b).nextCmd = d.nextCmd := rfl
@[simp] theorem Dev.stB_cqs : (d.stB a b).cqs = d.cqs := rfl
@[simp] theorem Dev.stB_remoteAlive : (d.stB a b).remoteAlive = d.remoteAlive := rfl
@[simp] theorem Dev.stB_rmRestart : (d.stB a b).rmRestart = d.rmRestart := rfl
@[simp] theorem Dev.stB_sqStopped : (d.stB a b).sqStopped = d.sqStopped := rfl
@[simp] theorem Dev.stB_cqStopped : (d.stB a b).cqStopped = d.cqStopped := rfl
@[simp] theorem Dev.stB_mqs : (d.stB a b).mqs = d.mqs := rfl
@[simp] theorem Dev.stB_staged : (d.stB a b).staged = d.staged := rfl
@[simp] theorem Dev.stB_units : (d.stB a b).units = d.units := rfl
@[simp] theorem Dev.stB_phase : (d.stB a b).phase = d.phase := rfl
@[simp] theorem Dev.stB_lifecycle : (d.stB a b).lifecycle = d.lifecycle := rfl
@[simp] theorem Dev.stB_svnMin : (d.stB a b).svnMin = d.svnMin := rfl
@[simp] theorem Dev.stB_slotA : (d.stB a b).slotA = d.slotA := rfl
@[simp] theorem Dev.stB_slotB : (d.stB a b).slotB = d.slotB := rfl
@[simp] theorem Dev.stB_bootB : (d.stB a b).bootB = d.bootB := rfl
@[simp] theorem Dev.stB_fw : (d.stB a b).fw = d.fw := rfl
@[simp] theorem Dev.stB_netImage : (d.stB a b).netImage = d.netImage := rfl
@[simp] theorem Dev.stB_netBoot : (d.stB a b).netBoot = d.netBoot := rfl
@[simp] theorem Dev.stB_lics : (d.stB a b).lics = d.lics := rfl
@[simp] theorem Dev.stB_cal : (d.stB a b).cal = d.cal := rfl
@[simp] theorem Dev.stB_trims : (d.stB a b).trims = d.trims := rfl
@[simp] theorem Dev.stB_identity : (d.stB a b).identity = d.identity := rfl
@[simp] theorem Dev.stB_savedTime : (d.stB a b).savedTime = d.savedTime := rfl
@[simp] theorem Dev.stB_softRows : (d.stB a b).softRows = d.softRows := rfl
@[simp] theorem Dev.stB_rowRepairs : (d.stB a b).rowRepairs = d.rowRepairs := rfl
@[simp] theorem Dev.stB_retData : (d.stB a b).retData = d.retData := rfl
@[simp] theorem Dev.stB_retPoison : (d.stB a b).retPoison = d.retPoison := rfl
@[simp] theorem Dev.stB_faultN : (d.stB a b).faultN = d.faultN := rfl
@[simp] theorem Dev.stB_wakeN : (d.stB a b).wakeN = d.wakeN := rfl
@[simp] theorem Dev.stB_vid : (d.stB a b).vid = d.vid := rfl
@[simp] theorem Dev.stB_padAero : (d.stB a b).padAero = d.padAero := rfl
@[simp] theorem Dev.stB_smbAddr : (d.stB a b).smbAddr = d.smbAddr := rfl
@[simp] theorem Dev.stB_rails : (d.stB a b).rails = d.rails := rfl
@[simp] theorem Dev.stB_tripReads : (d.stB a b).tripReads = d.tripReads := rfl
@[simp] theorem Dev.stB_tripped : (d.stB a b).tripped = d.tripped := rfl
@[simp] theorem Dev.stB_napFrom : (d.stB a b).napFrom = d.napFrom := rfl
@[simp] theorem Dev.stB_halfGated : (d.stB a b).halfGated = d.halfGated := rfl
@[simp] theorem Dev.stB_tcRestart : (d.stB a b).tcRestart = d.tcRestart := rfl
@[simp] theorem Dev.stB_ctxReset : (d.stB a b).ctxReset = d.ctxReset := rfl
@[simp] theorem Dev.stB_dbgHalt : (d.stB a b).dbgHalt = d.dbgHalt := rfl
@[simp] theorem Dev.stB_dbgTiles : (d.stB a b).dbgTiles = d.dbgTiles := rfl
@[simp] theorem Dev.stB_restore : (d.stB a b).restore = d.restore := rfl
@[simp] theorem Dev.stB_fwTry : (d.stB a b).fwTry = d.fwTry := rfl
@[simp] theorem Dev.stB_tap : (d.stB a b).tap = d.tap := rfl
@[simp] theorem Dev.stB_snsLoss : (d.stB a b).snsLoss = d.snsLoss := rfl
@[simp] theorem Dev.stB_snsLossAt : (d.stB a b).snsLossAt = d.snsLossAt := rfl
@[simp] theorem Dev.stB_tmr : (d.stB a b).tmr = d.tmr := rfl
@[simp] theorem Dev.stB_hcExt : (d.stB a b).hcExt = d.hcExt := rfl
@[simp] theorem Dev.stB_hcRst : (d.stB a b).hcRst = d.hcRst := rfl
@[simp] theorem Dev.stB_hcMark : (d.stB a b).hcMark = d.hcMark := rfl
@[simp] theorem Dev.stB_hcDump : (d.stB a b).hcDump = d.hcDump := rfl
@[simp] theorem Dev.stB_homLap : (d.stB a b).homLap = d.homLap := rfl
@[simp] theorem Dev.stB_poison : (d.stB a b).poison = d.poison := rfl
end

section
variable (d : Dev) (o : Out)
@[simp] theorem Dev.emitOut_regs : (d.emitOut o).regs = d.regs := rfl
@[simp] theorem Dev.emitOut_mem : (d.emitOut o).mem = d.mem := rfl
@[simp] theorem Dev.emitOut_host : (d.emitOut o).host = d.host := rfl
@[simp] theorem Dev.emitOut_free : (d.emitOut o).free = d.free := rfl
@[simp] theorem Dev.emitOut_latches : (d.emitOut o).latches = d.latches := rfl
@[simp] theorem Dev.emitOut_barker : (d.emitOut o).barker = d.barker := rfl
@[simp] theorem Dev.emitOut_ret : (d.emitOut o).ret = d.ret := rfl
@[simp] theorem Dev.emitOut_engs : (d.emitOut o).engs = d.engs := rfl
@[simp] theorem Dev.emitOut_copies : (d.emitOut o).copies = d.copies := rfl
@[simp] theorem Dev.emitOut_nextCopy : (d.emitOut o).nextCopy = d.nextCopy := rfl
@[simp] theorem Dev.emitOut_inflight : (d.emitOut o).inflight = d.inflight := rfl
@[simp] theorem Dev.emitOut_gens : (d.emitOut o).gens = d.gens := rfl
@[simp] theorem Dev.emitOut_waves : (d.emitOut o).waves = d.waves := rfl
@[simp] theorem Dev.emitOut_tumCtx : (d.emitOut o).tumCtx = d.tumCtx := rfl
@[simp] theorem Dev.emitOut_preQ : (d.emitOut o).preQ = d.preQ := rfl
@[simp] theorem Dev.emitOut_tums : (d.emitOut o).tums = d.tums := rfl
@[simp] theorem Dev.emitOut_descs : (d.emitOut o).descs = d.descs := rfl
@[simp] theorem Dev.emitOut_blocks : (d.emitOut o).blocks = d.blocks := rfl
@[simp] theorem Dev.emitOut_flows : (d.emitOut o).flows = d.flows := rfl
@[simp] theorem Dev.emitOut_pins : (d.emitOut o).pins = d.pins := rfl
@[simp] theorem Dev.emitOut_projRec : (d.emitOut o).projRec = d.projRec := rfl
@[simp] theorem Dev.emitOut_migrs : (d.emitOut o).migrs = d.migrs := rfl
@[simp] theorem Dev.emitOut_evacs : (d.emitOut o).evacs = d.evacs := rfl
@[simp] theorem Dev.emitOut_demoted : (d.emitOut o).demoted = d.demoted := rfl
@[simp] theorem Dev.emitOut_newFlows : (d.emitOut o).newFlows = d.newFlows := rfl
@[simp] theorem Dev.emitOut_routers : (d.emitOut o).routers = d.routers := rfl
@[simp] theorem Dev.emitOut_gwIn : (d.emitOut o).gwIn = d.gwIn := rfl
@[simp] theorem Dev.emitOut_rimIn : (d.emitOut o).rimIn = d.rimIn := rfl
@[simp] theorem Dev.emitOut_mirrors : (d.emitOut o).mirrors = d.mirrors := rfl
@[simp] theorem Dev.emitOut_gated : (d.emitOut o).gated = d.gated := rfl
@[simp] theorem Dev.emitOut_ports : (d.emitOut o).ports = d.ports := rfl
@[simp] theorem Dev.emitOut_rimTab : (d.emitOut o).rimTab = d.rimTab := rfl
@[simp] theorem Dev.emitOut_rimBad : (d.emitOut o).rimBad = d.rimBad := rfl
@[simp] theorem Dev.emitOut_rimHeld : (d.emitOut o).rimHeld = d.rimHeld := rfl
@[simp] theorem Dev.emitOut_swIn : (d.emitOut o).swIn = d.swIn := rfl
@[simp] theorem Dev.emitOut_owners : (d.emitOut o).owners = d.owners := rfl
@[simp] theorem Dev.emitOut_nextOwner : (d.emitOut o).nextOwner = d.nextOwner := rfl
@[simp] theorem Dev.emitOut_marksIn : (d.emitOut o).marksIn = d.marksIn := rfl
@[simp] theorem Dev.emitOut_pkIn : (d.emitOut o).pkIn = d.pkIn := rfl
@[simp] theorem Dev.emitOut_xptIn : (d.emitOut o).xptIn = d.xptIn := rfl
@[simp] theorem Dev.emitOut_xptTx : (d.emitOut o).xptTx = d.xptTx := rfl
@[simp] theorem Dev.emitOut_xptRx : (d.emitOut o).xptRx = d.xptRx := rfl
@[simp] theorem Dev.emitOut_endIn : (d.emitOut o).endIn = d.endIn := rfl
@[simp] theorem Dev.emitOut_aero : (d.emitOut o).aero = d.aero := rfl
@[simp] theorem Dev.emitOut_aeroPin : (d.emitOut o).aeroPin = d.aeroPin := rfl
@[simp] theorem Dev.emitOut_sns : (d.emitOut o).sns = d.sns := rfl
@[simp] theorem Dev.emitOut_csi : (d.emitOut o).csi = d.csi := rfl
@[simp] theorem Dev.emitOut_aeri : (d.emitOut o).aeri = d.aeri := rfl
@[simp] theorem Dev.emitOut_crcHeld : (d.emitOut o).crcHeld = d.crcHeld := rfl
@[simp] theorem Dev.emitOut_crcLow : (d.emitOut o).crcLow = d.crcLow := rfl
@[simp] theorem Dev.emitOut_crcDue : (d.emitOut o).crcDue = d.crcDue := rfl
@[simp] theorem Dev.emitOut_pcie : (d.emitOut o).pcie = d.pcie := rfl
@[simp] theorem Dev.emitOut_outRings : (d.emitOut o).outRings = d.outRings := rfl
@[simp] theorem Dev.emitOut_injOut : (d.emitOut o).injOut = d.injOut := rfl
@[simp] theorem Dev.emitOut_injStopped : (d.emitOut o).injStopped = d.injStopped := rfl
@[simp] theorem Dev.emitOut_cmds : (d.emitOut o).cmds = d.cmds := rfl
@[simp] theorem Dev.emitOut_nextCmd : (d.emitOut o).nextCmd = d.nextCmd := rfl
@[simp] theorem Dev.emitOut_cqs : (d.emitOut o).cqs = d.cqs := rfl
@[simp] theorem Dev.emitOut_remoteAlive : (d.emitOut o).remoteAlive = d.remoteAlive := rfl
@[simp] theorem Dev.emitOut_rmRestart : (d.emitOut o).rmRestart = d.rmRestart := rfl
@[simp] theorem Dev.emitOut_sqStopped : (d.emitOut o).sqStopped = d.sqStopped := rfl
@[simp] theorem Dev.emitOut_cqStopped : (d.emitOut o).cqStopped = d.cqStopped := rfl
@[simp] theorem Dev.emitOut_mqs : (d.emitOut o).mqs = d.mqs := rfl
@[simp] theorem Dev.emitOut_staged : (d.emitOut o).staged = d.staged := rfl
@[simp] theorem Dev.emitOut_units : (d.emitOut o).units = d.units := rfl
@[simp] theorem Dev.emitOut_phase : (d.emitOut o).phase = d.phase := rfl
@[simp] theorem Dev.emitOut_lifecycle : (d.emitOut o).lifecycle = d.lifecycle := rfl
@[simp] theorem Dev.emitOut_svnMin : (d.emitOut o).svnMin = d.svnMin := rfl
@[simp] theorem Dev.emitOut_slotA : (d.emitOut o).slotA = d.slotA := rfl
@[simp] theorem Dev.emitOut_slotB : (d.emitOut o).slotB = d.slotB := rfl
@[simp] theorem Dev.emitOut_bootB : (d.emitOut o).bootB = d.bootB := rfl
@[simp] theorem Dev.emitOut_fw : (d.emitOut o).fw = d.fw := rfl
@[simp] theorem Dev.emitOut_netImage : (d.emitOut o).netImage = d.netImage := rfl
@[simp] theorem Dev.emitOut_netBoot : (d.emitOut o).netBoot = d.netBoot := rfl
@[simp] theorem Dev.emitOut_lics : (d.emitOut o).lics = d.lics := rfl
@[simp] theorem Dev.emitOut_cal : (d.emitOut o).cal = d.cal := rfl
@[simp] theorem Dev.emitOut_trims : (d.emitOut o).trims = d.trims := rfl
@[simp] theorem Dev.emitOut_identity : (d.emitOut o).identity = d.identity := rfl
@[simp] theorem Dev.emitOut_savedTime : (d.emitOut o).savedTime = d.savedTime := rfl
@[simp] theorem Dev.emitOut_softRows : (d.emitOut o).softRows = d.softRows := rfl
@[simp] theorem Dev.emitOut_rowRepairs : (d.emitOut o).rowRepairs = d.rowRepairs := rfl
@[simp] theorem Dev.emitOut_retData : (d.emitOut o).retData = d.retData := rfl
@[simp] theorem Dev.emitOut_retPoison : (d.emitOut o).retPoison = d.retPoison := rfl
@[simp] theorem Dev.emitOut_faultN : (d.emitOut o).faultN = d.faultN := rfl
@[simp] theorem Dev.emitOut_wakeN : (d.emitOut o).wakeN = d.wakeN := rfl
@[simp] theorem Dev.emitOut_vid : (d.emitOut o).vid = d.vid := rfl
@[simp] theorem Dev.emitOut_padAero : (d.emitOut o).padAero = d.padAero := rfl
@[simp] theorem Dev.emitOut_smbAddr : (d.emitOut o).smbAddr = d.smbAddr := rfl
@[simp] theorem Dev.emitOut_rails : (d.emitOut o).rails = d.rails := rfl
@[simp] theorem Dev.emitOut_tripReads : (d.emitOut o).tripReads = d.tripReads := rfl
@[simp] theorem Dev.emitOut_tripped : (d.emitOut o).tripped = d.tripped := rfl
@[simp] theorem Dev.emitOut_napFrom : (d.emitOut o).napFrom = d.napFrom := rfl
@[simp] theorem Dev.emitOut_halfGated : (d.emitOut o).halfGated = d.halfGated := rfl
@[simp] theorem Dev.emitOut_tcRestart : (d.emitOut o).tcRestart = d.tcRestart := rfl
@[simp] theorem Dev.emitOut_ctxReset : (d.emitOut o).ctxReset = d.ctxReset := rfl
@[simp] theorem Dev.emitOut_dbgHalt : (d.emitOut o).dbgHalt = d.dbgHalt := rfl
@[simp] theorem Dev.emitOut_dbgTiles : (d.emitOut o).dbgTiles = d.dbgTiles := rfl
@[simp] theorem Dev.emitOut_restore : (d.emitOut o).restore = d.restore := rfl
@[simp] theorem Dev.emitOut_fwTry : (d.emitOut o).fwTry = d.fwTry := rfl
@[simp] theorem Dev.emitOut_tap : (d.emitOut o).tap = d.tap := rfl
@[simp] theorem Dev.emitOut_snsLoss : (d.emitOut o).snsLoss = d.snsLoss := rfl
@[simp] theorem Dev.emitOut_snsLossAt : (d.emitOut o).snsLossAt = d.snsLossAt := rfl
@[simp] theorem Dev.emitOut_tmr : (d.emitOut o).tmr = d.tmr := rfl
@[simp] theorem Dev.emitOut_hcExt : (d.emitOut o).hcExt = d.hcExt := rfl
@[simp] theorem Dev.emitOut_hcRst : (d.emitOut o).hcRst = d.hcRst := rfl
@[simp] theorem Dev.emitOut_hcMark : (d.emitOut o).hcMark = d.hcMark := rfl
@[simp] theorem Dev.emitOut_hcDump : (d.emitOut o).hcDump = d.hcDump := rfl
@[simp] theorem Dev.emitOut_homLap : (d.emitOut o).homLap = d.homLap := rfl
@[simp] theorem Dev.emitOut_poison : (d.emitOut o).poison = d.poison := rfl
end

section
variable (d : Dev) (t e : Nat) (g : Engine)
@[simp] theorem Dev.setEng_regs : (d.setEng t e g).regs = d.regs := rfl
@[simp] theorem Dev.setEng_mem : (d.setEng t e g).mem = d.mem := rfl
@[simp] theorem Dev.setEng_host : (d.setEng t e g).host = d.host := rfl
@[simp] theorem Dev.setEng_outs : (d.setEng t e g).outs = d.outs := rfl
@[simp] theorem Dev.setEng_free : (d.setEng t e g).free = d.free := rfl
@[simp] theorem Dev.setEng_latches : (d.setEng t e g).latches = d.latches := rfl
@[simp] theorem Dev.setEng_barker : (d.setEng t e g).barker = d.barker := rfl
@[simp] theorem Dev.setEng_ret : (d.setEng t e g).ret = d.ret := rfl
@[simp] theorem Dev.setEng_copies : (d.setEng t e g).copies = d.copies := rfl
@[simp] theorem Dev.setEng_nextCopy : (d.setEng t e g).nextCopy = d.nextCopy := rfl
@[simp] theorem Dev.setEng_inflight : (d.setEng t e g).inflight = d.inflight := rfl
@[simp] theorem Dev.setEng_gens : (d.setEng t e g).gens = d.gens := rfl
@[simp] theorem Dev.setEng_waves : (d.setEng t e g).waves = d.waves := rfl
@[simp] theorem Dev.setEng_tumCtx : (d.setEng t e g).tumCtx = d.tumCtx := rfl
@[simp] theorem Dev.setEng_preQ : (d.setEng t e g).preQ = d.preQ := rfl
@[simp] theorem Dev.setEng_tums : (d.setEng t e g).tums = d.tums := rfl
@[simp] theorem Dev.setEng_descs : (d.setEng t e g).descs = d.descs := rfl
@[simp] theorem Dev.setEng_blocks : (d.setEng t e g).blocks = d.blocks := rfl
@[simp] theorem Dev.setEng_flows : (d.setEng t e g).flows = d.flows := rfl
@[simp] theorem Dev.setEng_pins : (d.setEng t e g).pins = d.pins := rfl
@[simp] theorem Dev.setEng_projRec : (d.setEng t e g).projRec = d.projRec := rfl
@[simp] theorem Dev.setEng_migrs : (d.setEng t e g).migrs = d.migrs := rfl
@[simp] theorem Dev.setEng_evacs : (d.setEng t e g).evacs = d.evacs := rfl
@[simp] theorem Dev.setEng_demoted : (d.setEng t e g).demoted = d.demoted := rfl
@[simp] theorem Dev.setEng_newFlows : (d.setEng t e g).newFlows = d.newFlows := rfl
@[simp] theorem Dev.setEng_routers : (d.setEng t e g).routers = d.routers := rfl
@[simp] theorem Dev.setEng_gwIn : (d.setEng t e g).gwIn = d.gwIn := rfl
@[simp] theorem Dev.setEng_rimIn : (d.setEng t e g).rimIn = d.rimIn := rfl
@[simp] theorem Dev.setEng_mirrors : (d.setEng t e g).mirrors = d.mirrors := rfl
@[simp] theorem Dev.setEng_gated : (d.setEng t e g).gated = d.gated := rfl
@[simp] theorem Dev.setEng_ports : (d.setEng t e g).ports = d.ports := rfl
@[simp] theorem Dev.setEng_rimTab : (d.setEng t e g).rimTab = d.rimTab := rfl
@[simp] theorem Dev.setEng_rimBad : (d.setEng t e g).rimBad = d.rimBad := rfl
@[simp] theorem Dev.setEng_rimHeld : (d.setEng t e g).rimHeld = d.rimHeld := rfl
@[simp] theorem Dev.setEng_swIn : (d.setEng t e g).swIn = d.swIn := rfl
@[simp] theorem Dev.setEng_owners : (d.setEng t e g).owners = d.owners := rfl
@[simp] theorem Dev.setEng_nextOwner : (d.setEng t e g).nextOwner = d.nextOwner := rfl
@[simp] theorem Dev.setEng_marksIn : (d.setEng t e g).marksIn = d.marksIn := rfl
@[simp] theorem Dev.setEng_pkIn : (d.setEng t e g).pkIn = d.pkIn := rfl
@[simp] theorem Dev.setEng_xptIn : (d.setEng t e g).xptIn = d.xptIn := rfl
@[simp] theorem Dev.setEng_xptTx : (d.setEng t e g).xptTx = d.xptTx := rfl
@[simp] theorem Dev.setEng_xptRx : (d.setEng t e g).xptRx = d.xptRx := rfl
@[simp] theorem Dev.setEng_endIn : (d.setEng t e g).endIn = d.endIn := rfl
@[simp] theorem Dev.setEng_aero : (d.setEng t e g).aero = d.aero := rfl
@[simp] theorem Dev.setEng_aeroPin : (d.setEng t e g).aeroPin = d.aeroPin := rfl
@[simp] theorem Dev.setEng_sns : (d.setEng t e g).sns = d.sns := rfl
@[simp] theorem Dev.setEng_csi : (d.setEng t e g).csi = d.csi := rfl
@[simp] theorem Dev.setEng_aeri : (d.setEng t e g).aeri = d.aeri := rfl
@[simp] theorem Dev.setEng_crcHeld : (d.setEng t e g).crcHeld = d.crcHeld := rfl
@[simp] theorem Dev.setEng_crcLow : (d.setEng t e g).crcLow = d.crcLow := rfl
@[simp] theorem Dev.setEng_crcDue : (d.setEng t e g).crcDue = d.crcDue := rfl
@[simp] theorem Dev.setEng_pcie : (d.setEng t e g).pcie = d.pcie := rfl
@[simp] theorem Dev.setEng_outRings : (d.setEng t e g).outRings = d.outRings := rfl
@[simp] theorem Dev.setEng_injOut : (d.setEng t e g).injOut = d.injOut := rfl
@[simp] theorem Dev.setEng_injStopped : (d.setEng t e g).injStopped = d.injStopped := rfl
@[simp] theorem Dev.setEng_cmds : (d.setEng t e g).cmds = d.cmds := rfl
@[simp] theorem Dev.setEng_nextCmd : (d.setEng t e g).nextCmd = d.nextCmd := rfl
@[simp] theorem Dev.setEng_cqs : (d.setEng t e g).cqs = d.cqs := rfl
@[simp] theorem Dev.setEng_remoteAlive : (d.setEng t e g).remoteAlive = d.remoteAlive := rfl
@[simp] theorem Dev.setEng_rmRestart : (d.setEng t e g).rmRestart = d.rmRestart := rfl
@[simp] theorem Dev.setEng_sqStopped : (d.setEng t e g).sqStopped = d.sqStopped := rfl
@[simp] theorem Dev.setEng_cqStopped : (d.setEng t e g).cqStopped = d.cqStopped := rfl
@[simp] theorem Dev.setEng_mqs : (d.setEng t e g).mqs = d.mqs := rfl
@[simp] theorem Dev.setEng_staged : (d.setEng t e g).staged = d.staged := rfl
@[simp] theorem Dev.setEng_units : (d.setEng t e g).units = d.units := rfl
@[simp] theorem Dev.setEng_phase : (d.setEng t e g).phase = d.phase := rfl
@[simp] theorem Dev.setEng_lifecycle : (d.setEng t e g).lifecycle = d.lifecycle := rfl
@[simp] theorem Dev.setEng_svnMin : (d.setEng t e g).svnMin = d.svnMin := rfl
@[simp] theorem Dev.setEng_slotA : (d.setEng t e g).slotA = d.slotA := rfl
@[simp] theorem Dev.setEng_slotB : (d.setEng t e g).slotB = d.slotB := rfl
@[simp] theorem Dev.setEng_bootB : (d.setEng t e g).bootB = d.bootB := rfl
@[simp] theorem Dev.setEng_fw : (d.setEng t e g).fw = d.fw := rfl
@[simp] theorem Dev.setEng_netImage : (d.setEng t e g).netImage = d.netImage := rfl
@[simp] theorem Dev.setEng_netBoot : (d.setEng t e g).netBoot = d.netBoot := rfl
@[simp] theorem Dev.setEng_lics : (d.setEng t e g).lics = d.lics := rfl
@[simp] theorem Dev.setEng_cal : (d.setEng t e g).cal = d.cal := rfl
@[simp] theorem Dev.setEng_trims : (d.setEng t e g).trims = d.trims := rfl
@[simp] theorem Dev.setEng_identity : (d.setEng t e g).identity = d.identity := rfl
@[simp] theorem Dev.setEng_savedTime : (d.setEng t e g).savedTime = d.savedTime := rfl
@[simp] theorem Dev.setEng_softRows : (d.setEng t e g).softRows = d.softRows := rfl
@[simp] theorem Dev.setEng_rowRepairs : (d.setEng t e g).rowRepairs = d.rowRepairs := rfl
@[simp] theorem Dev.setEng_retData : (d.setEng t e g).retData = d.retData := rfl
@[simp] theorem Dev.setEng_retPoison : (d.setEng t e g).retPoison = d.retPoison := rfl
@[simp] theorem Dev.setEng_faultN : (d.setEng t e g).faultN = d.faultN := rfl
@[simp] theorem Dev.setEng_wakeN : (d.setEng t e g).wakeN = d.wakeN := rfl
@[simp] theorem Dev.setEng_vid : (d.setEng t e g).vid = d.vid := rfl
@[simp] theorem Dev.setEng_padAero : (d.setEng t e g).padAero = d.padAero := rfl
@[simp] theorem Dev.setEng_smbAddr : (d.setEng t e g).smbAddr = d.smbAddr := rfl
@[simp] theorem Dev.setEng_rails : (d.setEng t e g).rails = d.rails := rfl
@[simp] theorem Dev.setEng_tripReads : (d.setEng t e g).tripReads = d.tripReads := rfl
@[simp] theorem Dev.setEng_tripped : (d.setEng t e g).tripped = d.tripped := rfl
@[simp] theorem Dev.setEng_napFrom : (d.setEng t e g).napFrom = d.napFrom := rfl
@[simp] theorem Dev.setEng_halfGated : (d.setEng t e g).halfGated = d.halfGated := rfl
@[simp] theorem Dev.setEng_tcRestart : (d.setEng t e g).tcRestart = d.tcRestart := rfl
@[simp] theorem Dev.setEng_ctxReset : (d.setEng t e g).ctxReset = d.ctxReset := rfl
@[simp] theorem Dev.setEng_dbgHalt : (d.setEng t e g).dbgHalt = d.dbgHalt := rfl
@[simp] theorem Dev.setEng_dbgTiles : (d.setEng t e g).dbgTiles = d.dbgTiles := rfl
@[simp] theorem Dev.setEng_restore : (d.setEng t e g).restore = d.restore := rfl
@[simp] theorem Dev.setEng_fwTry : (d.setEng t e g).fwTry = d.fwTry := rfl
@[simp] theorem Dev.setEng_tap : (d.setEng t e g).tap = d.tap := rfl
@[simp] theorem Dev.setEng_snsLoss : (d.setEng t e g).snsLoss = d.snsLoss := rfl
@[simp] theorem Dev.setEng_snsLossAt : (d.setEng t e g).snsLossAt = d.snsLossAt := rfl
@[simp] theorem Dev.setEng_tmr : (d.setEng t e g).tmr = d.tmr := rfl
@[simp] theorem Dev.setEng_hcExt : (d.setEng t e g).hcExt = d.hcExt := rfl
@[simp] theorem Dev.setEng_hcRst : (d.setEng t e g).hcRst = d.hcRst := rfl
@[simp] theorem Dev.setEng_hcMark : (d.setEng t e g).hcMark = d.hcMark := rfl
@[simp] theorem Dev.setEng_hcDump : (d.setEng t e g).hcDump = d.hcDump := rfl
@[simp] theorem Dev.setEng_homLap : (d.setEng t e g).homLap = d.homLap := rfl
@[simp] theorem Dev.setEng_poison : (d.setEng t e g).poison = d.poison := rfl
end

section
variable (d : Dev) (c : Nat) (g : Gen)
@[simp] theorem Dev.setGen_regs : (d.setGen c g).regs = d.regs := rfl
@[simp] theorem Dev.setGen_mem : (d.setGen c g).mem = d.mem := rfl
@[simp] theorem Dev.setGen_host : (d.setGen c g).host = d.host := rfl
@[simp] theorem Dev.setGen_outs : (d.setGen c g).outs = d.outs := rfl
@[simp] theorem Dev.setGen_free : (d.setGen c g).free = d.free := rfl
@[simp] theorem Dev.setGen_latches : (d.setGen c g).latches = d.latches := rfl
@[simp] theorem Dev.setGen_barker : (d.setGen c g).barker = d.barker := rfl
@[simp] theorem Dev.setGen_ret : (d.setGen c g).ret = d.ret := rfl
@[simp] theorem Dev.setGen_engs : (d.setGen c g).engs = d.engs := rfl
@[simp] theorem Dev.setGen_copies : (d.setGen c g).copies = d.copies := rfl
@[simp] theorem Dev.setGen_nextCopy : (d.setGen c g).nextCopy = d.nextCopy := rfl
@[simp] theorem Dev.setGen_inflight : (d.setGen c g).inflight = d.inflight := rfl
@[simp] theorem Dev.setGen_waves : (d.setGen c g).waves = d.waves := rfl
@[simp] theorem Dev.setGen_tumCtx : (d.setGen c g).tumCtx = d.tumCtx := rfl
@[simp] theorem Dev.setGen_preQ : (d.setGen c g).preQ = d.preQ := rfl
@[simp] theorem Dev.setGen_tums : (d.setGen c g).tums = d.tums := rfl
@[simp] theorem Dev.setGen_descs : (d.setGen c g).descs = d.descs := rfl
@[simp] theorem Dev.setGen_blocks : (d.setGen c g).blocks = d.blocks := rfl
@[simp] theorem Dev.setGen_flows : (d.setGen c g).flows = d.flows := rfl
@[simp] theorem Dev.setGen_pins : (d.setGen c g).pins = d.pins := rfl
@[simp] theorem Dev.setGen_projRec : (d.setGen c g).projRec = d.projRec := rfl
@[simp] theorem Dev.setGen_migrs : (d.setGen c g).migrs = d.migrs := rfl
@[simp] theorem Dev.setGen_evacs : (d.setGen c g).evacs = d.evacs := rfl
@[simp] theorem Dev.setGen_demoted : (d.setGen c g).demoted = d.demoted := rfl
@[simp] theorem Dev.setGen_newFlows : (d.setGen c g).newFlows = d.newFlows := rfl
@[simp] theorem Dev.setGen_routers : (d.setGen c g).routers = d.routers := rfl
@[simp] theorem Dev.setGen_gwIn : (d.setGen c g).gwIn = d.gwIn := rfl
@[simp] theorem Dev.setGen_rimIn : (d.setGen c g).rimIn = d.rimIn := rfl
@[simp] theorem Dev.setGen_mirrors : (d.setGen c g).mirrors = d.mirrors := rfl
@[simp] theorem Dev.setGen_gated : (d.setGen c g).gated = d.gated := rfl
@[simp] theorem Dev.setGen_ports : (d.setGen c g).ports = d.ports := rfl
@[simp] theorem Dev.setGen_rimTab : (d.setGen c g).rimTab = d.rimTab := rfl
@[simp] theorem Dev.setGen_rimBad : (d.setGen c g).rimBad = d.rimBad := rfl
@[simp] theorem Dev.setGen_rimHeld : (d.setGen c g).rimHeld = d.rimHeld := rfl
@[simp] theorem Dev.setGen_swIn : (d.setGen c g).swIn = d.swIn := rfl
@[simp] theorem Dev.setGen_owners : (d.setGen c g).owners = d.owners := rfl
@[simp] theorem Dev.setGen_nextOwner : (d.setGen c g).nextOwner = d.nextOwner := rfl
@[simp] theorem Dev.setGen_marksIn : (d.setGen c g).marksIn = d.marksIn := rfl
@[simp] theorem Dev.setGen_pkIn : (d.setGen c g).pkIn = d.pkIn := rfl
@[simp] theorem Dev.setGen_xptIn : (d.setGen c g).xptIn = d.xptIn := rfl
@[simp] theorem Dev.setGen_xptTx : (d.setGen c g).xptTx = d.xptTx := rfl
@[simp] theorem Dev.setGen_xptRx : (d.setGen c g).xptRx = d.xptRx := rfl
@[simp] theorem Dev.setGen_endIn : (d.setGen c g).endIn = d.endIn := rfl
@[simp] theorem Dev.setGen_aero : (d.setGen c g).aero = d.aero := rfl
@[simp] theorem Dev.setGen_aeroPin : (d.setGen c g).aeroPin = d.aeroPin := rfl
@[simp] theorem Dev.setGen_sns : (d.setGen c g).sns = d.sns := rfl
@[simp] theorem Dev.setGen_csi : (d.setGen c g).csi = d.csi := rfl
@[simp] theorem Dev.setGen_aeri : (d.setGen c g).aeri = d.aeri := rfl
@[simp] theorem Dev.setGen_crcHeld : (d.setGen c g).crcHeld = d.crcHeld := rfl
@[simp] theorem Dev.setGen_crcLow : (d.setGen c g).crcLow = d.crcLow := rfl
@[simp] theorem Dev.setGen_crcDue : (d.setGen c g).crcDue = d.crcDue := rfl
@[simp] theorem Dev.setGen_pcie : (d.setGen c g).pcie = d.pcie := rfl
@[simp] theorem Dev.setGen_outRings : (d.setGen c g).outRings = d.outRings := rfl
@[simp] theorem Dev.setGen_injOut : (d.setGen c g).injOut = d.injOut := rfl
@[simp] theorem Dev.setGen_injStopped : (d.setGen c g).injStopped = d.injStopped := rfl
@[simp] theorem Dev.setGen_cmds : (d.setGen c g).cmds = d.cmds := rfl
@[simp] theorem Dev.setGen_nextCmd : (d.setGen c g).nextCmd = d.nextCmd := rfl
@[simp] theorem Dev.setGen_cqs : (d.setGen c g).cqs = d.cqs := rfl
@[simp] theorem Dev.setGen_remoteAlive : (d.setGen c g).remoteAlive = d.remoteAlive := rfl
@[simp] theorem Dev.setGen_rmRestart : (d.setGen c g).rmRestart = d.rmRestart := rfl
@[simp] theorem Dev.setGen_sqStopped : (d.setGen c g).sqStopped = d.sqStopped := rfl
@[simp] theorem Dev.setGen_cqStopped : (d.setGen c g).cqStopped = d.cqStopped := rfl
@[simp] theorem Dev.setGen_mqs : (d.setGen c g).mqs = d.mqs := rfl
@[simp] theorem Dev.setGen_staged : (d.setGen c g).staged = d.staged := rfl
@[simp] theorem Dev.setGen_units : (d.setGen c g).units = d.units := rfl
@[simp] theorem Dev.setGen_phase : (d.setGen c g).phase = d.phase := rfl
@[simp] theorem Dev.setGen_lifecycle : (d.setGen c g).lifecycle = d.lifecycle := rfl
@[simp] theorem Dev.setGen_svnMin : (d.setGen c g).svnMin = d.svnMin := rfl
@[simp] theorem Dev.setGen_slotA : (d.setGen c g).slotA = d.slotA := rfl
@[simp] theorem Dev.setGen_slotB : (d.setGen c g).slotB = d.slotB := rfl
@[simp] theorem Dev.setGen_bootB : (d.setGen c g).bootB = d.bootB := rfl
@[simp] theorem Dev.setGen_fw : (d.setGen c g).fw = d.fw := rfl
@[simp] theorem Dev.setGen_netImage : (d.setGen c g).netImage = d.netImage := rfl
@[simp] theorem Dev.setGen_netBoot : (d.setGen c g).netBoot = d.netBoot := rfl
@[simp] theorem Dev.setGen_lics : (d.setGen c g).lics = d.lics := rfl
@[simp] theorem Dev.setGen_cal : (d.setGen c g).cal = d.cal := rfl
@[simp] theorem Dev.setGen_trims : (d.setGen c g).trims = d.trims := rfl
@[simp] theorem Dev.setGen_identity : (d.setGen c g).identity = d.identity := rfl
@[simp] theorem Dev.setGen_savedTime : (d.setGen c g).savedTime = d.savedTime := rfl
@[simp] theorem Dev.setGen_softRows : (d.setGen c g).softRows = d.softRows := rfl
@[simp] theorem Dev.setGen_rowRepairs : (d.setGen c g).rowRepairs = d.rowRepairs := rfl
@[simp] theorem Dev.setGen_retData : (d.setGen c g).retData = d.retData := rfl
@[simp] theorem Dev.setGen_retPoison : (d.setGen c g).retPoison = d.retPoison := rfl
@[simp] theorem Dev.setGen_faultN : (d.setGen c g).faultN = d.faultN := rfl
@[simp] theorem Dev.setGen_wakeN : (d.setGen c g).wakeN = d.wakeN := rfl
@[simp] theorem Dev.setGen_vid : (d.setGen c g).vid = d.vid := rfl
@[simp] theorem Dev.setGen_padAero : (d.setGen c g).padAero = d.padAero := rfl
@[simp] theorem Dev.setGen_smbAddr : (d.setGen c g).smbAddr = d.smbAddr := rfl
@[simp] theorem Dev.setGen_rails : (d.setGen c g).rails = d.rails := rfl
@[simp] theorem Dev.setGen_tripReads : (d.setGen c g).tripReads = d.tripReads := rfl
@[simp] theorem Dev.setGen_tripped : (d.setGen c g).tripped = d.tripped := rfl
@[simp] theorem Dev.setGen_napFrom : (d.setGen c g).napFrom = d.napFrom := rfl
@[simp] theorem Dev.setGen_halfGated : (d.setGen c g).halfGated = d.halfGated := rfl
@[simp] theorem Dev.setGen_tcRestart : (d.setGen c g).tcRestart = d.tcRestart := rfl
@[simp] theorem Dev.setGen_ctxReset : (d.setGen c g).ctxReset = d.ctxReset := rfl
@[simp] theorem Dev.setGen_dbgHalt : (d.setGen c g).dbgHalt = d.dbgHalt := rfl
@[simp] theorem Dev.setGen_dbgTiles : (d.setGen c g).dbgTiles = d.dbgTiles := rfl
@[simp] theorem Dev.setGen_restore : (d.setGen c g).restore = d.restore := rfl
@[simp] theorem Dev.setGen_fwTry : (d.setGen c g).fwTry = d.fwTry := rfl
@[simp] theorem Dev.setGen_tap : (d.setGen c g).tap = d.tap := rfl
@[simp] theorem Dev.setGen_snsLoss : (d.setGen c g).snsLoss = d.snsLoss := rfl
@[simp] theorem Dev.setGen_snsLossAt : (d.setGen c g).snsLossAt = d.snsLossAt := rfl
@[simp] theorem Dev.setGen_tmr : (d.setGen c g).tmr = d.tmr := rfl
@[simp] theorem Dev.setGen_hcExt : (d.setGen c g).hcExt = d.hcExt := rfl
@[simp] theorem Dev.setGen_hcRst : (d.setGen c g).hcRst = d.hcRst := rfl
@[simp] theorem Dev.setGen_hcMark : (d.setGen c g).hcMark = d.hcMark := rfl
@[simp] theorem Dev.setGen_hcDump : (d.setGen c g).hcDump = d.hcDump := rfl
@[simp] theorem Dev.setGen_homLap : (d.setGen c g).homLap = d.homLap := rfl
@[simp] theorem Dev.setGen_poison : (d.setGen c g).poison = d.poison := rfl
end

section
variable (d : Dev) (t : Nat) (g : TumTile)
@[simp] theorem Dev.setTum_regs : (d.setTum t g).regs = d.regs := rfl
@[simp] theorem Dev.setTum_mem : (d.setTum t g).mem = d.mem := rfl
@[simp] theorem Dev.setTum_host : (d.setTum t g).host = d.host := rfl
@[simp] theorem Dev.setTum_outs : (d.setTum t g).outs = d.outs := rfl
@[simp] theorem Dev.setTum_free : (d.setTum t g).free = d.free := rfl
@[simp] theorem Dev.setTum_latches : (d.setTum t g).latches = d.latches := rfl
@[simp] theorem Dev.setTum_barker : (d.setTum t g).barker = d.barker := rfl
@[simp] theorem Dev.setTum_ret : (d.setTum t g).ret = d.ret := rfl
@[simp] theorem Dev.setTum_engs : (d.setTum t g).engs = d.engs := rfl
@[simp] theorem Dev.setTum_copies : (d.setTum t g).copies = d.copies := rfl
@[simp] theorem Dev.setTum_nextCopy : (d.setTum t g).nextCopy = d.nextCopy := rfl
@[simp] theorem Dev.setTum_inflight : (d.setTum t g).inflight = d.inflight := rfl
@[simp] theorem Dev.setTum_gens : (d.setTum t g).gens = d.gens := rfl
@[simp] theorem Dev.setTum_waves : (d.setTum t g).waves = d.waves := rfl
@[simp] theorem Dev.setTum_tumCtx : (d.setTum t g).tumCtx = d.tumCtx := rfl
@[simp] theorem Dev.setTum_preQ : (d.setTum t g).preQ = d.preQ := rfl
@[simp] theorem Dev.setTum_descs : (d.setTum t g).descs = d.descs := rfl
@[simp] theorem Dev.setTum_blocks : (d.setTum t g).blocks = d.blocks := rfl
@[simp] theorem Dev.setTum_flows : (d.setTum t g).flows = d.flows := rfl
@[simp] theorem Dev.setTum_pins : (d.setTum t g).pins = d.pins := rfl
@[simp] theorem Dev.setTum_projRec : (d.setTum t g).projRec = d.projRec := rfl
@[simp] theorem Dev.setTum_migrs : (d.setTum t g).migrs = d.migrs := rfl
@[simp] theorem Dev.setTum_evacs : (d.setTum t g).evacs = d.evacs := rfl
@[simp] theorem Dev.setTum_demoted : (d.setTum t g).demoted = d.demoted := rfl
@[simp] theorem Dev.setTum_newFlows : (d.setTum t g).newFlows = d.newFlows := rfl
@[simp] theorem Dev.setTum_routers : (d.setTum t g).routers = d.routers := rfl
@[simp] theorem Dev.setTum_gwIn : (d.setTum t g).gwIn = d.gwIn := rfl
@[simp] theorem Dev.setTum_rimIn : (d.setTum t g).rimIn = d.rimIn := rfl
@[simp] theorem Dev.setTum_mirrors : (d.setTum t g).mirrors = d.mirrors := rfl
@[simp] theorem Dev.setTum_gated : (d.setTum t g).gated = d.gated := rfl
@[simp] theorem Dev.setTum_ports : (d.setTum t g).ports = d.ports := rfl
@[simp] theorem Dev.setTum_rimTab : (d.setTum t g).rimTab = d.rimTab := rfl
@[simp] theorem Dev.setTum_rimBad : (d.setTum t g).rimBad = d.rimBad := rfl
@[simp] theorem Dev.setTum_rimHeld : (d.setTum t g).rimHeld = d.rimHeld := rfl
@[simp] theorem Dev.setTum_swIn : (d.setTum t g).swIn = d.swIn := rfl
@[simp] theorem Dev.setTum_owners : (d.setTum t g).owners = d.owners := rfl
@[simp] theorem Dev.setTum_nextOwner : (d.setTum t g).nextOwner = d.nextOwner := rfl
@[simp] theorem Dev.setTum_marksIn : (d.setTum t g).marksIn = d.marksIn := rfl
@[simp] theorem Dev.setTum_pkIn : (d.setTum t g).pkIn = d.pkIn := rfl
@[simp] theorem Dev.setTum_xptIn : (d.setTum t g).xptIn = d.xptIn := rfl
@[simp] theorem Dev.setTum_xptTx : (d.setTum t g).xptTx = d.xptTx := rfl
@[simp] theorem Dev.setTum_xptRx : (d.setTum t g).xptRx = d.xptRx := rfl
@[simp] theorem Dev.setTum_endIn : (d.setTum t g).endIn = d.endIn := rfl
@[simp] theorem Dev.setTum_aero : (d.setTum t g).aero = d.aero := rfl
@[simp] theorem Dev.setTum_aeroPin : (d.setTum t g).aeroPin = d.aeroPin := rfl
@[simp] theorem Dev.setTum_sns : (d.setTum t g).sns = d.sns := rfl
@[simp] theorem Dev.setTum_csi : (d.setTum t g).csi = d.csi := rfl
@[simp] theorem Dev.setTum_aeri : (d.setTum t g).aeri = d.aeri := rfl
@[simp] theorem Dev.setTum_crcHeld : (d.setTum t g).crcHeld = d.crcHeld := rfl
@[simp] theorem Dev.setTum_crcLow : (d.setTum t g).crcLow = d.crcLow := rfl
@[simp] theorem Dev.setTum_crcDue : (d.setTum t g).crcDue = d.crcDue := rfl
@[simp] theorem Dev.setTum_pcie : (d.setTum t g).pcie = d.pcie := rfl
@[simp] theorem Dev.setTum_outRings : (d.setTum t g).outRings = d.outRings := rfl
@[simp] theorem Dev.setTum_injOut : (d.setTum t g).injOut = d.injOut := rfl
@[simp] theorem Dev.setTum_injStopped : (d.setTum t g).injStopped = d.injStopped := rfl
@[simp] theorem Dev.setTum_cmds : (d.setTum t g).cmds = d.cmds := rfl
@[simp] theorem Dev.setTum_nextCmd : (d.setTum t g).nextCmd = d.nextCmd := rfl
@[simp] theorem Dev.setTum_cqs : (d.setTum t g).cqs = d.cqs := rfl
@[simp] theorem Dev.setTum_remoteAlive : (d.setTum t g).remoteAlive = d.remoteAlive := rfl
@[simp] theorem Dev.setTum_rmRestart : (d.setTum t g).rmRestart = d.rmRestart := rfl
@[simp] theorem Dev.setTum_sqStopped : (d.setTum t g).sqStopped = d.sqStopped := rfl
@[simp] theorem Dev.setTum_cqStopped : (d.setTum t g).cqStopped = d.cqStopped := rfl
@[simp] theorem Dev.setTum_mqs : (d.setTum t g).mqs = d.mqs := rfl
@[simp] theorem Dev.setTum_staged : (d.setTum t g).staged = d.staged := rfl
@[simp] theorem Dev.setTum_units : (d.setTum t g).units = d.units := rfl
@[simp] theorem Dev.setTum_phase : (d.setTum t g).phase = d.phase := rfl
@[simp] theorem Dev.setTum_lifecycle : (d.setTum t g).lifecycle = d.lifecycle := rfl
@[simp] theorem Dev.setTum_svnMin : (d.setTum t g).svnMin = d.svnMin := rfl
@[simp] theorem Dev.setTum_slotA : (d.setTum t g).slotA = d.slotA := rfl
@[simp] theorem Dev.setTum_slotB : (d.setTum t g).slotB = d.slotB := rfl
@[simp] theorem Dev.setTum_bootB : (d.setTum t g).bootB = d.bootB := rfl
@[simp] theorem Dev.setTum_fw : (d.setTum t g).fw = d.fw := rfl
@[simp] theorem Dev.setTum_netImage : (d.setTum t g).netImage = d.netImage := rfl
@[simp] theorem Dev.setTum_netBoot : (d.setTum t g).netBoot = d.netBoot := rfl
@[simp] theorem Dev.setTum_lics : (d.setTum t g).lics = d.lics := rfl
@[simp] theorem Dev.setTum_cal : (d.setTum t g).cal = d.cal := rfl
@[simp] theorem Dev.setTum_trims : (d.setTum t g).trims = d.trims := rfl
@[simp] theorem Dev.setTum_identity : (d.setTum t g).identity = d.identity := rfl
@[simp] theorem Dev.setTum_savedTime : (d.setTum t g).savedTime = d.savedTime := rfl
@[simp] theorem Dev.setTum_softRows : (d.setTum t g).softRows = d.softRows := rfl
@[simp] theorem Dev.setTum_rowRepairs : (d.setTum t g).rowRepairs = d.rowRepairs := rfl
@[simp] theorem Dev.setTum_retData : (d.setTum t g).retData = d.retData := rfl
@[simp] theorem Dev.setTum_retPoison : (d.setTum t g).retPoison = d.retPoison := rfl
@[simp] theorem Dev.setTum_faultN : (d.setTum t g).faultN = d.faultN := rfl
@[simp] theorem Dev.setTum_wakeN : (d.setTum t g).wakeN = d.wakeN := rfl
@[simp] theorem Dev.setTum_vid : (d.setTum t g).vid = d.vid := rfl
@[simp] theorem Dev.setTum_padAero : (d.setTum t g).padAero = d.padAero := rfl
@[simp] theorem Dev.setTum_smbAddr : (d.setTum t g).smbAddr = d.smbAddr := rfl
@[simp] theorem Dev.setTum_rails : (d.setTum t g).rails = d.rails := rfl
@[simp] theorem Dev.setTum_tripReads : (d.setTum t g).tripReads = d.tripReads := rfl
@[simp] theorem Dev.setTum_tripped : (d.setTum t g).tripped = d.tripped := rfl
@[simp] theorem Dev.setTum_napFrom : (d.setTum t g).napFrom = d.napFrom := rfl
@[simp] theorem Dev.setTum_halfGated : (d.setTum t g).halfGated = d.halfGated := rfl
@[simp] theorem Dev.setTum_tcRestart : (d.setTum t g).tcRestart = d.tcRestart := rfl
@[simp] theorem Dev.setTum_ctxReset : (d.setTum t g).ctxReset = d.ctxReset := rfl
@[simp] theorem Dev.setTum_dbgHalt : (d.setTum t g).dbgHalt = d.dbgHalt := rfl
@[simp] theorem Dev.setTum_dbgTiles : (d.setTum t g).dbgTiles = d.dbgTiles := rfl
@[simp] theorem Dev.setTum_restore : (d.setTum t g).restore = d.restore := rfl
@[simp] theorem Dev.setTum_fwTry : (d.setTum t g).fwTry = d.fwTry := rfl
@[simp] theorem Dev.setTum_tap : (d.setTum t g).tap = d.tap := rfl
@[simp] theorem Dev.setTum_snsLoss : (d.setTum t g).snsLoss = d.snsLoss := rfl
@[simp] theorem Dev.setTum_snsLossAt : (d.setTum t g).snsLossAt = d.snsLossAt := rfl
@[simp] theorem Dev.setTum_tmr : (d.setTum t g).tmr = d.tmr := rfl
@[simp] theorem Dev.setTum_hcExt : (d.setTum t g).hcExt = d.hcExt := rfl
@[simp] theorem Dev.setTum_hcRst : (d.setTum t g).hcRst = d.hcRst := rfl
@[simp] theorem Dev.setTum_hcMark : (d.setTum t g).hcMark = d.hcMark := rfl
@[simp] theorem Dev.setTum_hcDump : (d.setTum t g).hcDump = d.hcDump := rfl
@[simp] theorem Dev.setTum_homLap : (d.setTum t g).homLap = d.homLap := rfl
@[simp] theorem Dev.setTum_poison : (d.setTum t g).poison = d.poison := rfl
end

section
variable (d : Dev) (t : Nat) (g : Router)
@[simp] theorem Dev.setRouter_regs : (d.setRouter t g).regs = d.regs := rfl
@[simp] theorem Dev.setRouter_mem : (d.setRouter t g).mem = d.mem := rfl
@[simp] theorem Dev.setRouter_host : (d.setRouter t g).host = d.host := rfl
@[simp] theorem Dev.setRouter_outs : (d.setRouter t g).outs = d.outs := rfl
@[simp] theorem Dev.setRouter_free : (d.setRouter t g).free = d.free := rfl
@[simp] theorem Dev.setRouter_latches : (d.setRouter t g).latches = d.latches := rfl
@[simp] theorem Dev.setRouter_barker : (d.setRouter t g).barker = d.barker := rfl
@[simp] theorem Dev.setRouter_ret : (d.setRouter t g).ret = d.ret := rfl
@[simp] theorem Dev.setRouter_engs : (d.setRouter t g).engs = d.engs := rfl
@[simp] theorem Dev.setRouter_copies : (d.setRouter t g).copies = d.copies := rfl
@[simp] theorem Dev.setRouter_nextCopy : (d.setRouter t g).nextCopy = d.nextCopy := rfl
@[simp] theorem Dev.setRouter_inflight : (d.setRouter t g).inflight = d.inflight := rfl
@[simp] theorem Dev.setRouter_gens : (d.setRouter t g).gens = d.gens := rfl
@[simp] theorem Dev.setRouter_waves : (d.setRouter t g).waves = d.waves := rfl
@[simp] theorem Dev.setRouter_tumCtx : (d.setRouter t g).tumCtx = d.tumCtx := rfl
@[simp] theorem Dev.setRouter_preQ : (d.setRouter t g).preQ = d.preQ := rfl
@[simp] theorem Dev.setRouter_tums : (d.setRouter t g).tums = d.tums := rfl
@[simp] theorem Dev.setRouter_descs : (d.setRouter t g).descs = d.descs := rfl
@[simp] theorem Dev.setRouter_blocks : (d.setRouter t g).blocks = d.blocks := rfl
@[simp] theorem Dev.setRouter_flows : (d.setRouter t g).flows = d.flows := rfl
@[simp] theorem Dev.setRouter_pins : (d.setRouter t g).pins = d.pins := rfl
@[simp] theorem Dev.setRouter_projRec : (d.setRouter t g).projRec = d.projRec := rfl
@[simp] theorem Dev.setRouter_migrs : (d.setRouter t g).migrs = d.migrs := rfl
@[simp] theorem Dev.setRouter_evacs : (d.setRouter t g).evacs = d.evacs := rfl
@[simp] theorem Dev.setRouter_demoted : (d.setRouter t g).demoted = d.demoted := rfl
@[simp] theorem Dev.setRouter_newFlows : (d.setRouter t g).newFlows = d.newFlows := rfl
@[simp] theorem Dev.setRouter_gwIn : (d.setRouter t g).gwIn = d.gwIn := rfl
@[simp] theorem Dev.setRouter_rimIn : (d.setRouter t g).rimIn = d.rimIn := rfl
@[simp] theorem Dev.setRouter_mirrors : (d.setRouter t g).mirrors = d.mirrors := rfl
@[simp] theorem Dev.setRouter_gated : (d.setRouter t g).gated = d.gated := rfl
@[simp] theorem Dev.setRouter_ports : (d.setRouter t g).ports = d.ports := rfl
@[simp] theorem Dev.setRouter_rimTab : (d.setRouter t g).rimTab = d.rimTab := rfl
@[simp] theorem Dev.setRouter_rimBad : (d.setRouter t g).rimBad = d.rimBad := rfl
@[simp] theorem Dev.setRouter_rimHeld : (d.setRouter t g).rimHeld = d.rimHeld := rfl
@[simp] theorem Dev.setRouter_swIn : (d.setRouter t g).swIn = d.swIn := rfl
@[simp] theorem Dev.setRouter_owners : (d.setRouter t g).owners = d.owners := rfl
@[simp] theorem Dev.setRouter_nextOwner : (d.setRouter t g).nextOwner = d.nextOwner := rfl
@[simp] theorem Dev.setRouter_marksIn : (d.setRouter t g).marksIn = d.marksIn := rfl
@[simp] theorem Dev.setRouter_pkIn : (d.setRouter t g).pkIn = d.pkIn := rfl
@[simp] theorem Dev.setRouter_xptIn : (d.setRouter t g).xptIn = d.xptIn := rfl
@[simp] theorem Dev.setRouter_xptTx : (d.setRouter t g).xptTx = d.xptTx := rfl
@[simp] theorem Dev.setRouter_xptRx : (d.setRouter t g).xptRx = d.xptRx := rfl
@[simp] theorem Dev.setRouter_endIn : (d.setRouter t g).endIn = d.endIn := rfl
@[simp] theorem Dev.setRouter_aero : (d.setRouter t g).aero = d.aero := rfl
@[simp] theorem Dev.setRouter_aeroPin : (d.setRouter t g).aeroPin = d.aeroPin := rfl
@[simp] theorem Dev.setRouter_sns : (d.setRouter t g).sns = d.sns := rfl
@[simp] theorem Dev.setRouter_csi : (d.setRouter t g).csi = d.csi := rfl
@[simp] theorem Dev.setRouter_aeri : (d.setRouter t g).aeri = d.aeri := rfl
@[simp] theorem Dev.setRouter_crcHeld : (d.setRouter t g).crcHeld = d.crcHeld := rfl
@[simp] theorem Dev.setRouter_crcLow : (d.setRouter t g).crcLow = d.crcLow := rfl
@[simp] theorem Dev.setRouter_crcDue : (d.setRouter t g).crcDue = d.crcDue := rfl
@[simp] theorem Dev.setRouter_pcie : (d.setRouter t g).pcie = d.pcie := rfl
@[simp] theorem Dev.setRouter_outRings : (d.setRouter t g).outRings = d.outRings := rfl
@[simp] theorem Dev.setRouter_injOut : (d.setRouter t g).injOut = d.injOut := rfl
@[simp] theorem Dev.setRouter_injStopped : (d.setRouter t g).injStopped = d.injStopped := rfl
@[simp] theorem Dev.setRouter_cmds : (d.setRouter t g).cmds = d.cmds := rfl
@[simp] theorem Dev.setRouter_nextCmd : (d.setRouter t g).nextCmd = d.nextCmd := rfl
@[simp] theorem Dev.setRouter_cqs : (d.setRouter t g).cqs = d.cqs := rfl
@[simp] theorem Dev.setRouter_remoteAlive : (d.setRouter t g).remoteAlive = d.remoteAlive := rfl
@[simp] theorem Dev.setRouter_rmRestart : (d.setRouter t g).rmRestart = d.rmRestart := rfl
@[simp] theorem Dev.setRouter_sqStopped : (d.setRouter t g).sqStopped = d.sqStopped := rfl
@[simp] theorem Dev.setRouter_cqStopped : (d.setRouter t g).cqStopped = d.cqStopped := rfl
@[simp] theorem Dev.setRouter_mqs : (d.setRouter t g).mqs = d.mqs := rfl
@[simp] theorem Dev.setRouter_staged : (d.setRouter t g).staged = d.staged := rfl
@[simp] theorem Dev.setRouter_units : (d.setRouter t g).units = d.units := rfl
@[simp] theorem Dev.setRouter_phase : (d.setRouter t g).phase = d.phase := rfl
@[simp] theorem Dev.setRouter_lifecycle : (d.setRouter t g).lifecycle = d.lifecycle := rfl
@[simp] theorem Dev.setRouter_svnMin : (d.setRouter t g).svnMin = d.svnMin := rfl
@[simp] theorem Dev.setRouter_slotA : (d.setRouter t g).slotA = d.slotA := rfl
@[simp] theorem Dev.setRouter_slotB : (d.setRouter t g).slotB = d.slotB := rfl
@[simp] theorem Dev.setRouter_bootB : (d.setRouter t g).bootB = d.bootB := rfl
@[simp] theorem Dev.setRouter_fw : (d.setRouter t g).fw = d.fw := rfl
@[simp] theorem Dev.setRouter_netImage : (d.setRouter t g).netImage = d.netImage := rfl
@[simp] theorem Dev.setRouter_netBoot : (d.setRouter t g).netBoot = d.netBoot := rfl
@[simp] theorem Dev.setRouter_lics : (d.setRouter t g).lics = d.lics := rfl
@[simp] theorem Dev.setRouter_cal : (d.setRouter t g).cal = d.cal := rfl
@[simp] theorem Dev.setRouter_trims : (d.setRouter t g).trims = d.trims := rfl
@[simp] theorem Dev.setRouter_identity : (d.setRouter t g).identity = d.identity := rfl
@[simp] theorem Dev.setRouter_savedTime : (d.setRouter t g).savedTime = d.savedTime := rfl
@[simp] theorem Dev.setRouter_softRows : (d.setRouter t g).softRows = d.softRows := rfl
@[simp] theorem Dev.setRouter_rowRepairs : (d.setRouter t g).rowRepairs = d.rowRepairs := rfl
@[simp] theorem Dev.setRouter_retData : (d.setRouter t g).retData = d.retData := rfl
@[simp] theorem Dev.setRouter_retPoison : (d.setRouter t g).retPoison = d.retPoison := rfl
@[simp] theorem Dev.setRouter_faultN : (d.setRouter t g).faultN = d.faultN := rfl
@[simp] theorem Dev.setRouter_wakeN : (d.setRouter t g).wakeN = d.wakeN := rfl
@[simp] theorem Dev.setRouter_vid : (d.setRouter t g).vid = d.vid := rfl
@[simp] theorem Dev.setRouter_padAero : (d.setRouter t g).padAero = d.padAero := rfl
@[simp] theorem Dev.setRouter_smbAddr : (d.setRouter t g).smbAddr = d.smbAddr := rfl
@[simp] theorem Dev.setRouter_rails : (d.setRouter t g).rails = d.rails := rfl
@[simp] theorem Dev.setRouter_tripReads : (d.setRouter t g).tripReads = d.tripReads := rfl
@[simp] theorem Dev.setRouter_tripped : (d.setRouter t g).tripped = d.tripped := rfl
@[simp] theorem Dev.setRouter_napFrom : (d.setRouter t g).napFrom = d.napFrom := rfl
@[simp] theorem Dev.setRouter_halfGated : (d.setRouter t g).halfGated = d.halfGated := rfl
@[simp] theorem Dev.setRouter_tcRestart : (d.setRouter t g).tcRestart = d.tcRestart := rfl
@[simp] theorem Dev.setRouter_ctxReset : (d.setRouter t g).ctxReset = d.ctxReset := rfl
@[simp] theorem Dev.setRouter_dbgHalt : (d.setRouter t g).dbgHalt = d.dbgHalt := rfl
@[simp] theorem Dev.setRouter_dbgTiles : (d.setRouter t g).dbgTiles = d.dbgTiles := rfl
@[simp] theorem Dev.setRouter_restore : (d.setRouter t g).restore = d.restore := rfl
@[simp] theorem Dev.setRouter_fwTry : (d.setRouter t g).fwTry = d.fwTry := rfl
@[simp] theorem Dev.setRouter_tap : (d.setRouter t g).tap = d.tap := rfl
@[simp] theorem Dev.setRouter_snsLoss : (d.setRouter t g).snsLoss = d.snsLoss := rfl
@[simp] theorem Dev.setRouter_snsLossAt : (d.setRouter t g).snsLossAt = d.snsLossAt := rfl
@[simp] theorem Dev.setRouter_tmr : (d.setRouter t g).tmr = d.tmr := rfl
@[simp] theorem Dev.setRouter_hcExt : (d.setRouter t g).hcExt = d.hcExt := rfl
@[simp] theorem Dev.setRouter_hcRst : (d.setRouter t g).hcRst = d.hcRst := rfl
@[simp] theorem Dev.setRouter_hcMark : (d.setRouter t g).hcMark = d.hcMark := rfl
@[simp] theorem Dev.setRouter_hcDump : (d.setRouter t g).hcDump = d.hcDump := rfl
@[simp] theorem Dev.setRouter_homLap : (d.setRouter t g).homLap = d.homLap := rfl
@[simp] theorem Dev.setRouter_poison : (d.setRouter t g).poison = d.poison := rfl
end

section
variable (d : Dev) (p : Nat) (g : PortSt)
@[simp] theorem Dev.setPort_regs : (d.setPort p g).regs = d.regs := rfl
@[simp] theorem Dev.setPort_mem : (d.setPort p g).mem = d.mem := rfl
@[simp] theorem Dev.setPort_host : (d.setPort p g).host = d.host := rfl
@[simp] theorem Dev.setPort_outs : (d.setPort p g).outs = d.outs := rfl
@[simp] theorem Dev.setPort_free : (d.setPort p g).free = d.free := rfl
@[simp] theorem Dev.setPort_latches : (d.setPort p g).latches = d.latches := rfl
@[simp] theorem Dev.setPort_barker : (d.setPort p g).barker = d.barker := rfl
@[simp] theorem Dev.setPort_ret : (d.setPort p g).ret = d.ret := rfl
@[simp] theorem Dev.setPort_engs : (d.setPort p g).engs = d.engs := rfl
@[simp] theorem Dev.setPort_copies : (d.setPort p g).copies = d.copies := rfl
@[simp] theorem Dev.setPort_nextCopy : (d.setPort p g).nextCopy = d.nextCopy := rfl
@[simp] theorem Dev.setPort_inflight : (d.setPort p g).inflight = d.inflight := rfl
@[simp] theorem Dev.setPort_gens : (d.setPort p g).gens = d.gens := rfl
@[simp] theorem Dev.setPort_waves : (d.setPort p g).waves = d.waves := rfl
@[simp] theorem Dev.setPort_tumCtx : (d.setPort p g).tumCtx = d.tumCtx := rfl
@[simp] theorem Dev.setPort_preQ : (d.setPort p g).preQ = d.preQ := rfl
@[simp] theorem Dev.setPort_tums : (d.setPort p g).tums = d.tums := rfl
@[simp] theorem Dev.setPort_descs : (d.setPort p g).descs = d.descs := rfl
@[simp] theorem Dev.setPort_blocks : (d.setPort p g).blocks = d.blocks := rfl
@[simp] theorem Dev.setPort_flows : (d.setPort p g).flows = d.flows := rfl
@[simp] theorem Dev.setPort_pins : (d.setPort p g).pins = d.pins := rfl
@[simp] theorem Dev.setPort_projRec : (d.setPort p g).projRec = d.projRec := rfl
@[simp] theorem Dev.setPort_migrs : (d.setPort p g).migrs = d.migrs := rfl
@[simp] theorem Dev.setPort_evacs : (d.setPort p g).evacs = d.evacs := rfl
@[simp] theorem Dev.setPort_demoted : (d.setPort p g).demoted = d.demoted := rfl
@[simp] theorem Dev.setPort_newFlows : (d.setPort p g).newFlows = d.newFlows := rfl
@[simp] theorem Dev.setPort_routers : (d.setPort p g).routers = d.routers := rfl
@[simp] theorem Dev.setPort_gwIn : (d.setPort p g).gwIn = d.gwIn := rfl
@[simp] theorem Dev.setPort_rimIn : (d.setPort p g).rimIn = d.rimIn := rfl
@[simp] theorem Dev.setPort_mirrors : (d.setPort p g).mirrors = d.mirrors := rfl
@[simp] theorem Dev.setPort_gated : (d.setPort p g).gated = d.gated := rfl
@[simp] theorem Dev.setPort_rimTab : (d.setPort p g).rimTab = d.rimTab := rfl
@[simp] theorem Dev.setPort_rimBad : (d.setPort p g).rimBad = d.rimBad := rfl
@[simp] theorem Dev.setPort_rimHeld : (d.setPort p g).rimHeld = d.rimHeld := rfl
@[simp] theorem Dev.setPort_swIn : (d.setPort p g).swIn = d.swIn := rfl
@[simp] theorem Dev.setPort_owners : (d.setPort p g).owners = d.owners := rfl
@[simp] theorem Dev.setPort_nextOwner : (d.setPort p g).nextOwner = d.nextOwner := rfl
@[simp] theorem Dev.setPort_marksIn : (d.setPort p g).marksIn = d.marksIn := rfl
@[simp] theorem Dev.setPort_pkIn : (d.setPort p g).pkIn = d.pkIn := rfl
@[simp] theorem Dev.setPort_xptIn : (d.setPort p g).xptIn = d.xptIn := rfl
@[simp] theorem Dev.setPort_xptTx : (d.setPort p g).xptTx = d.xptTx := rfl
@[simp] theorem Dev.setPort_xptRx : (d.setPort p g).xptRx = d.xptRx := rfl
@[simp] theorem Dev.setPort_endIn : (d.setPort p g).endIn = d.endIn := rfl
@[simp] theorem Dev.setPort_aero : (d.setPort p g).aero = d.aero := rfl
@[simp] theorem Dev.setPort_aeroPin : (d.setPort p g).aeroPin = d.aeroPin := rfl
@[simp] theorem Dev.setPort_sns : (d.setPort p g).sns = d.sns := rfl
@[simp] theorem Dev.setPort_csi : (d.setPort p g).csi = d.csi := rfl
@[simp] theorem Dev.setPort_aeri : (d.setPort p g).aeri = d.aeri := rfl
@[simp] theorem Dev.setPort_crcHeld : (d.setPort p g).crcHeld = d.crcHeld := rfl
@[simp] theorem Dev.setPort_crcLow : (d.setPort p g).crcLow = d.crcLow := rfl
@[simp] theorem Dev.setPort_crcDue : (d.setPort p g).crcDue = d.crcDue := rfl
@[simp] theorem Dev.setPort_pcie : (d.setPort p g).pcie = d.pcie := rfl
@[simp] theorem Dev.setPort_outRings : (d.setPort p g).outRings = d.outRings := rfl
@[simp] theorem Dev.setPort_injOut : (d.setPort p g).injOut = d.injOut := rfl
@[simp] theorem Dev.setPort_injStopped : (d.setPort p g).injStopped = d.injStopped := rfl
@[simp] theorem Dev.setPort_cmds : (d.setPort p g).cmds = d.cmds := rfl
@[simp] theorem Dev.setPort_nextCmd : (d.setPort p g).nextCmd = d.nextCmd := rfl
@[simp] theorem Dev.setPort_cqs : (d.setPort p g).cqs = d.cqs := rfl
@[simp] theorem Dev.setPort_remoteAlive : (d.setPort p g).remoteAlive = d.remoteAlive := rfl
@[simp] theorem Dev.setPort_rmRestart : (d.setPort p g).rmRestart = d.rmRestart := rfl
@[simp] theorem Dev.setPort_sqStopped : (d.setPort p g).sqStopped = d.sqStopped := rfl
@[simp] theorem Dev.setPort_cqStopped : (d.setPort p g).cqStopped = d.cqStopped := rfl
@[simp] theorem Dev.setPort_mqs : (d.setPort p g).mqs = d.mqs := rfl
@[simp] theorem Dev.setPort_staged : (d.setPort p g).staged = d.staged := rfl
@[simp] theorem Dev.setPort_units : (d.setPort p g).units = d.units := rfl
@[simp] theorem Dev.setPort_phase : (d.setPort p g).phase = d.phase := rfl
@[simp] theorem Dev.setPort_lifecycle : (d.setPort p g).lifecycle = d.lifecycle := rfl
@[simp] theorem Dev.setPort_svnMin : (d.setPort p g).svnMin = d.svnMin := rfl
@[simp] theorem Dev.setPort_slotA : (d.setPort p g).slotA = d.slotA := rfl
@[simp] theorem Dev.setPort_slotB : (d.setPort p g).slotB = d.slotB := rfl
@[simp] theorem Dev.setPort_bootB : (d.setPort p g).bootB = d.bootB := rfl
@[simp] theorem Dev.setPort_fw : (d.setPort p g).fw = d.fw := rfl
@[simp] theorem Dev.setPort_netImage : (d.setPort p g).netImage = d.netImage := rfl
@[simp] theorem Dev.setPort_netBoot : (d.setPort p g).netBoot = d.netBoot := rfl
@[simp] theorem Dev.setPort_lics : (d.setPort p g).lics = d.lics := rfl
@[simp] theorem Dev.setPort_cal : (d.setPort p g).cal = d.cal := rfl
@[simp] theorem Dev.setPort_trims : (d.setPort p g).trims = d.trims := rfl
@[simp] theorem Dev.setPort_identity : (d.setPort p g).identity = d.identity := rfl
@[simp] theorem Dev.setPort_savedTime : (d.setPort p g).savedTime = d.savedTime := rfl
@[simp] theorem Dev.setPort_softRows : (d.setPort p g).softRows = d.softRows := rfl
@[simp] theorem Dev.setPort_rowRepairs : (d.setPort p g).rowRepairs = d.rowRepairs := rfl
@[simp] theorem Dev.setPort_retData : (d.setPort p g).retData = d.retData := rfl
@[simp] theorem Dev.setPort_retPoison : (d.setPort p g).retPoison = d.retPoison := rfl
@[simp] theorem Dev.setPort_faultN : (d.setPort p g).faultN = d.faultN := rfl
@[simp] theorem Dev.setPort_wakeN : (d.setPort p g).wakeN = d.wakeN := rfl
@[simp] theorem Dev.setPort_vid : (d.setPort p g).vid = d.vid := rfl
@[simp] theorem Dev.setPort_padAero : (d.setPort p g).padAero = d.padAero := rfl
@[simp] theorem Dev.setPort_smbAddr : (d.setPort p g).smbAddr = d.smbAddr := rfl
@[simp] theorem Dev.setPort_rails : (d.setPort p g).rails = d.rails := rfl
@[simp] theorem Dev.setPort_tripReads : (d.setPort p g).tripReads = d.tripReads := rfl
@[simp] theorem Dev.setPort_tripped : (d.setPort p g).tripped = d.tripped := rfl
@[simp] theorem Dev.setPort_napFrom : (d.setPort p g).napFrom = d.napFrom := rfl
@[simp] theorem Dev.setPort_halfGated : (d.setPort p g).halfGated = d.halfGated := rfl
@[simp] theorem Dev.setPort_tcRestart : (d.setPort p g).tcRestart = d.tcRestart := rfl
@[simp] theorem Dev.setPort_ctxReset : (d.setPort p g).ctxReset = d.ctxReset := rfl
@[simp] theorem Dev.setPort_dbgHalt : (d.setPort p g).dbgHalt = d.dbgHalt := rfl
@[simp] theorem Dev.setPort_dbgTiles : (d.setPort p g).dbgTiles = d.dbgTiles := rfl
@[simp] theorem Dev.setPort_restore : (d.setPort p g).restore = d.restore := rfl
@[simp] theorem Dev.setPort_fwTry : (d.setPort p g).fwTry = d.fwTry := rfl
@[simp] theorem Dev.setPort_tap : (d.setPort p g).tap = d.tap := rfl
@[simp] theorem Dev.setPort_snsLoss : (d.setPort p g).snsLoss = d.snsLoss := rfl
@[simp] theorem Dev.setPort_snsLossAt : (d.setPort p g).snsLossAt = d.snsLossAt := rfl
@[simp] theorem Dev.setPort_tmr : (d.setPort p g).tmr = d.tmr := rfl
@[simp] theorem Dev.setPort_hcExt : (d.setPort p g).hcExt = d.hcExt := rfl
@[simp] theorem Dev.setPort_hcRst : (d.setPort p g).hcRst = d.hcRst := rfl
@[simp] theorem Dev.setPort_hcMark : (d.setPort p g).hcMark = d.hcMark := rfl
@[simp] theorem Dev.setPort_hcDump : (d.setPort p g).hcDump = d.hcDump := rfl
@[simp] theorem Dev.setPort_homLap : (d.setPort p g).homLap = d.homLap := rfl
@[simp] theorem Dev.setPort_poison : (d.setPort p g).poison = d.poison := rfl
end

section
variable (d : Dev) (ty ix st re : Nat)
@[simp] theorem Dev.setUnit_regs : (d.setUnit ty ix st re).regs = d.regs := rfl
@[simp] theorem Dev.setUnit_mem : (d.setUnit ty ix st re).mem = d.mem := rfl
@[simp] theorem Dev.setUnit_host : (d.setUnit ty ix st re).host = d.host := rfl
@[simp] theorem Dev.setUnit_outs : (d.setUnit ty ix st re).outs = d.outs := rfl
@[simp] theorem Dev.setUnit_free : (d.setUnit ty ix st re).free = d.free := rfl
@[simp] theorem Dev.setUnit_latches : (d.setUnit ty ix st re).latches = d.latches := rfl
@[simp] theorem Dev.setUnit_barker : (d.setUnit ty ix st re).barker = d.barker := rfl
@[simp] theorem Dev.setUnit_ret : (d.setUnit ty ix st re).ret = d.ret := rfl
@[simp] theorem Dev.setUnit_engs : (d.setUnit ty ix st re).engs = d.engs := rfl
@[simp] theorem Dev.setUnit_copies : (d.setUnit ty ix st re).copies = d.copies := rfl
@[simp] theorem Dev.setUnit_nextCopy : (d.setUnit ty ix st re).nextCopy = d.nextCopy := rfl
@[simp] theorem Dev.setUnit_inflight : (d.setUnit ty ix st re).inflight = d.inflight := rfl
@[simp] theorem Dev.setUnit_gens : (d.setUnit ty ix st re).gens = d.gens := rfl
@[simp] theorem Dev.setUnit_waves : (d.setUnit ty ix st re).waves = d.waves := rfl
@[simp] theorem Dev.setUnit_tumCtx : (d.setUnit ty ix st re).tumCtx = d.tumCtx := rfl
@[simp] theorem Dev.setUnit_preQ : (d.setUnit ty ix st re).preQ = d.preQ := rfl
@[simp] theorem Dev.setUnit_tums : (d.setUnit ty ix st re).tums = d.tums := rfl
@[simp] theorem Dev.setUnit_descs : (d.setUnit ty ix st re).descs = d.descs := rfl
@[simp] theorem Dev.setUnit_blocks : (d.setUnit ty ix st re).blocks = d.blocks := rfl
@[simp] theorem Dev.setUnit_flows : (d.setUnit ty ix st re).flows = d.flows := rfl
@[simp] theorem Dev.setUnit_pins : (d.setUnit ty ix st re).pins = d.pins := rfl
@[simp] theorem Dev.setUnit_projRec : (d.setUnit ty ix st re).projRec = d.projRec := rfl
@[simp] theorem Dev.setUnit_migrs : (d.setUnit ty ix st re).migrs = d.migrs := rfl
@[simp] theorem Dev.setUnit_evacs : (d.setUnit ty ix st re).evacs = d.evacs := rfl
@[simp] theorem Dev.setUnit_demoted : (d.setUnit ty ix st re).demoted = d.demoted := rfl
@[simp] theorem Dev.setUnit_newFlows : (d.setUnit ty ix st re).newFlows = d.newFlows := rfl
@[simp] theorem Dev.setUnit_routers : (d.setUnit ty ix st re).routers = d.routers := rfl
@[simp] theorem Dev.setUnit_gwIn : (d.setUnit ty ix st re).gwIn = d.gwIn := rfl
@[simp] theorem Dev.setUnit_rimIn : (d.setUnit ty ix st re).rimIn = d.rimIn := rfl
@[simp] theorem Dev.setUnit_mirrors : (d.setUnit ty ix st re).mirrors = d.mirrors := rfl
@[simp] theorem Dev.setUnit_gated : (d.setUnit ty ix st re).gated = d.gated := rfl
@[simp] theorem Dev.setUnit_ports : (d.setUnit ty ix st re).ports = d.ports := rfl
@[simp] theorem Dev.setUnit_rimTab : (d.setUnit ty ix st re).rimTab = d.rimTab := rfl
@[simp] theorem Dev.setUnit_rimBad : (d.setUnit ty ix st re).rimBad = d.rimBad := rfl
@[simp] theorem Dev.setUnit_rimHeld : (d.setUnit ty ix st re).rimHeld = d.rimHeld := rfl
@[simp] theorem Dev.setUnit_swIn : (d.setUnit ty ix st re).swIn = d.swIn := rfl
@[simp] theorem Dev.setUnit_owners : (d.setUnit ty ix st re).owners = d.owners := rfl
@[simp] theorem Dev.setUnit_nextOwner : (d.setUnit ty ix st re).nextOwner = d.nextOwner := rfl
@[simp] theorem Dev.setUnit_marksIn : (d.setUnit ty ix st re).marksIn = d.marksIn := rfl
@[simp] theorem Dev.setUnit_pkIn : (d.setUnit ty ix st re).pkIn = d.pkIn := rfl
@[simp] theorem Dev.setUnit_xptIn : (d.setUnit ty ix st re).xptIn = d.xptIn := rfl
@[simp] theorem Dev.setUnit_xptTx : (d.setUnit ty ix st re).xptTx = d.xptTx := rfl
@[simp] theorem Dev.setUnit_xptRx : (d.setUnit ty ix st re).xptRx = d.xptRx := rfl
@[simp] theorem Dev.setUnit_endIn : (d.setUnit ty ix st re).endIn = d.endIn := rfl
@[simp] theorem Dev.setUnit_aero : (d.setUnit ty ix st re).aero = d.aero := rfl
@[simp] theorem Dev.setUnit_aeroPin : (d.setUnit ty ix st re).aeroPin = d.aeroPin := rfl
@[simp] theorem Dev.setUnit_sns : (d.setUnit ty ix st re).sns = d.sns := rfl
@[simp] theorem Dev.setUnit_csi : (d.setUnit ty ix st re).csi = d.csi := rfl
@[simp] theorem Dev.setUnit_aeri : (d.setUnit ty ix st re).aeri = d.aeri := rfl
@[simp] theorem Dev.setUnit_crcHeld : (d.setUnit ty ix st re).crcHeld = d.crcHeld := rfl
@[simp] theorem Dev.setUnit_crcLow : (d.setUnit ty ix st re).crcLow = d.crcLow := rfl
@[simp] theorem Dev.setUnit_crcDue : (d.setUnit ty ix st re).crcDue = d.crcDue := rfl
@[simp] theorem Dev.setUnit_pcie : (d.setUnit ty ix st re).pcie = d.pcie := rfl
@[simp] theorem Dev.setUnit_outRings : (d.setUnit ty ix st re).outRings = d.outRings := rfl
@[simp] theorem Dev.setUnit_injOut : (d.setUnit ty ix st re).injOut = d.injOut := rfl
@[simp] theorem Dev.setUnit_injStopped : (d.setUnit ty ix st re).injStopped = d.injStopped := rfl
@[simp] theorem Dev.setUnit_cmds : (d.setUnit ty ix st re).cmds = d.cmds := rfl
@[simp] theorem Dev.setUnit_nextCmd : (d.setUnit ty ix st re).nextCmd = d.nextCmd := rfl
@[simp] theorem Dev.setUnit_cqs : (d.setUnit ty ix st re).cqs = d.cqs := rfl
@[simp] theorem Dev.setUnit_remoteAlive : (d.setUnit ty ix st re).remoteAlive = d.remoteAlive := rfl
@[simp] theorem Dev.setUnit_rmRestart : (d.setUnit ty ix st re).rmRestart = d.rmRestart := rfl
@[simp] theorem Dev.setUnit_sqStopped : (d.setUnit ty ix st re).sqStopped = d.sqStopped := rfl
@[simp] theorem Dev.setUnit_cqStopped : (d.setUnit ty ix st re).cqStopped = d.cqStopped := rfl
@[simp] theorem Dev.setUnit_mqs : (d.setUnit ty ix st re).mqs = d.mqs := rfl
@[simp] theorem Dev.setUnit_staged : (d.setUnit ty ix st re).staged = d.staged := rfl
@[simp] theorem Dev.setUnit_phase : (d.setUnit ty ix st re).phase = d.phase := rfl
@[simp] theorem Dev.setUnit_lifecycle : (d.setUnit ty ix st re).lifecycle = d.lifecycle := rfl
@[simp] theorem Dev.setUnit_svnMin : (d.setUnit ty ix st re).svnMin = d.svnMin := rfl
@[simp] theorem Dev.setUnit_slotA : (d.setUnit ty ix st re).slotA = d.slotA := rfl
@[simp] theorem Dev.setUnit_slotB : (d.setUnit ty ix st re).slotB = d.slotB := rfl
@[simp] theorem Dev.setUnit_bootB : (d.setUnit ty ix st re).bootB = d.bootB := rfl
@[simp] theorem Dev.setUnit_fw : (d.setUnit ty ix st re).fw = d.fw := rfl
@[simp] theorem Dev.setUnit_netImage : (d.setUnit ty ix st re).netImage = d.netImage := rfl
@[simp] theorem Dev.setUnit_netBoot : (d.setUnit ty ix st re).netBoot = d.netBoot := rfl
@[simp] theorem Dev.setUnit_lics : (d.setUnit ty ix st re).lics = d.lics := rfl
@[simp] theorem Dev.setUnit_cal : (d.setUnit ty ix st re).cal = d.cal := rfl
@[simp] theorem Dev.setUnit_trims : (d.setUnit ty ix st re).trims = d.trims := rfl
@[simp] theorem Dev.setUnit_identity : (d.setUnit ty ix st re).identity = d.identity := rfl
@[simp] theorem Dev.setUnit_savedTime : (d.setUnit ty ix st re).savedTime = d.savedTime := rfl
@[simp] theorem Dev.setUnit_softRows : (d.setUnit ty ix st re).softRows = d.softRows := rfl
@[simp] theorem Dev.setUnit_rowRepairs : (d.setUnit ty ix st re).rowRepairs = d.rowRepairs := rfl
@[simp] theorem Dev.setUnit_retData : (d.setUnit ty ix st re).retData = d.retData := rfl
@[simp] theorem Dev.setUnit_retPoison : (d.setUnit ty ix st re).retPoison = d.retPoison := rfl
@[simp] theorem Dev.setUnit_faultN : (d.setUnit ty ix st re).faultN = d.faultN := rfl
@[simp] theorem Dev.setUnit_wakeN : (d.setUnit ty ix st re).wakeN = d.wakeN := rfl
@[simp] theorem Dev.setUnit_vid : (d.setUnit ty ix st re).vid = d.vid := rfl
@[simp] theorem Dev.setUnit_padAero : (d.setUnit ty ix st re).padAero = d.padAero := rfl
@[simp] theorem Dev.setUnit_smbAddr : (d.setUnit ty ix st re).smbAddr = d.smbAddr := rfl
@[simp] theorem Dev.setUnit_rails : (d.setUnit ty ix st re).rails = d.rails := rfl
@[simp] theorem Dev.setUnit_tripReads : (d.setUnit ty ix st re).tripReads = d.tripReads := rfl
@[simp] theorem Dev.setUnit_tripped : (d.setUnit ty ix st re).tripped = d.tripped := rfl
@[simp] theorem Dev.setUnit_napFrom : (d.setUnit ty ix st re).napFrom = d.napFrom := rfl
@[simp] theorem Dev.setUnit_halfGated : (d.setUnit ty ix st re).halfGated = d.halfGated := rfl
@[simp] theorem Dev.setUnit_tcRestart : (d.setUnit ty ix st re).tcRestart = d.tcRestart := rfl
@[simp] theorem Dev.setUnit_ctxReset : (d.setUnit ty ix st re).ctxReset = d.ctxReset := rfl
@[simp] theorem Dev.setUnit_dbgHalt : (d.setUnit ty ix st re).dbgHalt = d.dbgHalt := rfl
@[simp] theorem Dev.setUnit_dbgTiles : (d.setUnit ty ix st re).dbgTiles = d.dbgTiles := rfl
@[simp] theorem Dev.setUnit_restore : (d.setUnit ty ix st re).restore = d.restore := rfl
@[simp] theorem Dev.setUnit_fwTry : (d.setUnit ty ix st re).fwTry = d.fwTry := rfl
@[simp] theorem Dev.setUnit_tap : (d.setUnit ty ix st re).tap = d.tap := rfl
@[simp] theorem Dev.setUnit_snsLoss : (d.setUnit ty ix st re).snsLoss = d.snsLoss := rfl
@[simp] theorem Dev.setUnit_snsLossAt : (d.setUnit ty ix st re).snsLossAt = d.snsLossAt := rfl
@[simp] theorem Dev.setUnit_tmr : (d.setUnit ty ix st re).tmr = d.tmr := rfl
@[simp] theorem Dev.setUnit_hcExt : (d.setUnit ty ix st re).hcExt = d.hcExt := rfl
@[simp] theorem Dev.setUnit_hcRst : (d.setUnit ty ix st re).hcRst = d.hcRst := rfl
@[simp] theorem Dev.setUnit_hcMark : (d.setUnit ty ix st re).hcMark = d.hcMark := rfl
@[simp] theorem Dev.setUnit_hcDump : (d.setUnit ty ix st re).hcDump = d.hcDump := rfl
@[simp] theorem Dev.setUnit_homLap : (d.setUnit ty ix st re).homLap = d.homLap := rfl
@[simp] theorem Dev.setUnit_poison : (d.setUnit ty ix st re).poison = d.poison := rfl
end

end Sys2Proof.Machine
end

