-- ==== Sys2Proof/Laws/Ops.lean ====
section
/-! SUPPORT. What each operation shared by the meanings can do: one lemma for each, to be cited in place of its unfolding. -/

namespace Sys2Proof.Machine

/-- What every step of a fold keeps, the fold keeps. -/
theorem foldl_keeps {α β γ : Type} (p : α → γ) (f : α → β → α) (h : ∀ a b, p (f a b) = p a) :
    ∀ (l : List β) (a : α), p (l.foldl f a) = p a
  | [], _ => rfl
  | b :: l, a => (foldl_keeps p f h l (f a b)).trans (h a b)

/-- A meaning that changes the device alone answers the next state that it says. -/
@[simp] theorem run_eq (f : Dev → Dev) (s : State) : run f s = .next { s with dev := f s.dev } := rfl

/-- A meaning that also reads the fuses answers the next state that it says. -/
@[simp] theorem runF_eq (f : Fuses → Dev → Dev) (s : State) : runF f s = .next { s with dev := f s.fuses s.dev } := rfl

section
variable (d : Dev)

/-- A counter that counts changes registers and nothing else. -/
theorem Dev.bump_frame (r : Reg) (i n : Nat) : ∃ g, d.bump r i n = { d with regs := g } := by
  unfold Dev.bump
  dsimp only
  repeat' split
  all_goals exact ⟨_, rfl⟩

/-- A violation changes registers and nothing else. -/
theorem Dev.violation_frame (func kind off : Nat) : ∃ g, d.violation func kind off = { d with regs := g } := by
  obtain ⟨g, h⟩ := d.bump_frame SEC_VIOLATIONS 0 1
  unfold Dev.violation
  rw [h]
  exact ⟨_, rfl⟩

/-- A message of a vector goes out or is held pending, and nothing else changes. -/
theorem Dev.msix_frame (fn vec : Nat) : ∃ q o, d.msix fn vec = { d with pcie := q, outs := o } := by
  unfold Dev.msix
  repeat' split
  all_goals exact ⟨_, _, rfl⟩

/-- A signal of the recorder changes registers and may send an interrupt. -/
theorem Dev.brkSignal_frame (sev : Nat) : ∃ g q o, d.brkSignal sev = { d with regs := g, pcie := q, outs := o } := by
  unfold Dev.brkSignal
  dsimp only
  repeat' split
  · obtain ⟨q, o, h⟩ := (d.setF BRK_STATUS 0 BRK_STATUS_ERR 1).msix_frame 0 0
    exact ⟨_, q, o, h⟩
  · exact ⟨_, _, _, rfl⟩
  · exact ⟨_, _, _, rfl⟩

/-- A record counted and signalled changes registers and may send an interrupt. -/
theorem Dev.count_signal_frame (b : Barker) (sev : Nat) :
    ∃ g q o, (Dev.bump { d with barker := b } BRK_CNT 3 1).brkSignal sev = { d with regs := g, barker := b, pcie := q, outs := o } := by
  obtain ⟨g, h⟩ := Dev.bump_frame { d with barker := b } BRK_CNT 3 1
  rw [h]
  exact Dev.brkSignal_frame { d with barker := b, regs := g } sev

/-- A record that opens changes the recorder and registers, and may send an interrupt. -/
theorem Dev.brkOpen_frame (x : BrkRec) : ∃ g b q o, d.brkOpen x = { d with regs := g, barker := b, pcie := q, outs := o } := by
  unfold Dev.brkOpen
  split
  · obtain ⟨g, h⟩ := Dev.bump_frame { d with barker := { d.barker with staged := match d.barker.staged.reverse with
      | [] => []
      | x :: xs => ({ x with rep := min 65535 (x.rep + 1) } :: xs).reverse } } BRK_CNT 2 1
    exact ⟨g, _, _, _, h⟩
  · obtain ⟨g, q, o, h⟩ := d.count_signal_frame { d.barker with staged := d.barker.staged ++ [x] } x.sev
    exact ⟨g, _, q, o, h⟩

/-- An occurrence of a recorder code changes the recorder and registers, and may send an interrupt. -/
theorem Dev.occur_frame (code sev ctx src : Nat) (detail : BitVec 96) :
    ∃ g b q o, d.occur code sev ctx src detail = { d with regs := g, barker := b, pcie := q, outs := o } := by
  have open_ : ∀ (b : Barker) (x : BrkRec), ∃ g c q o, Dev.brkOpen { d with barker := b } x = { d with regs := g, barker := c, pcie := q, outs := o } :=
    fun b x => Dev.brkOpen_frame { d with barker := b } x
  have count : ∀ (b : Barker) (i n : Nat), ∃ g c q o, Dev.bump { d with barker := b } BRK_CNT i n = { d with regs := g, barker := c, pcie := q, outs := o } :=
    fun b i n => (Dev.bump_frame { d with barker := b } BRK_CNT i n).elim fun g h => ⟨g, _, _, _, h⟩
  unfold Dev.occur
  dsimp only
  repeat' split
  all_goals first
    | exact ⟨_, _, _, _, rfl⟩
    | exact open_ _ _
    | exact count _ _ _

/-- A drop changes its counter, the recorder and the sensor losses, and may send an interrupt. -/
theorem Dev.drop_frame (p : DropPt) (place ctx cls key n : Nat) :
    ∃ g b q o l, d.drop p place ctx cls key n = { d with regs := g, barker := b, pcie := q, outs := o, snsLoss := l } := by
  have both : ∀ (l : Tab Nat) (r : Reg) (i code src : Nat) (x : BitVec 96), ∃ g b q o l',
      (Dev.bump { d with snsLoss := l } r i n).occur code 2 ctx src x = { d with regs := g, barker := b, pcie := q, outs := o, snsLoss := l' } := by
    intro l r i code src x
    obtain ⟨g, h⟩ := Dev.bump_frame { d with snsLoss := l } r i n
    obtain ⟨g', b, q, o, h'⟩ := Dev.occur_frame { d with regs := g, snsLoss := l } code 2 ctx src x
    exact ⟨g', b, q, o, l, by rw [h]; exact h'⟩
  exact both _ _ _ _ _ _

/-- A free value costs one step of the counter and nothing else. -/
theorem Dev.takeFree_eq (w : Nat) : d.takeFree w = (Config.freeBits w d.free, { d with free := d.free + 1 }) := rfl

/-- A command that ends changes the held commands alone, and those with another identity not at all. -/
theorem Dev.finish_frame (id status detail : Nat) (result : List Byte) :
    (∃ l, d.finish id status detail result = { d with cmds := l })
    ∧ ∀ x ∈ d.cmds, x.id ≠ id → x ∈ (d.finish id status detail result).cmds :=
  ⟨⟨_, rfl⟩, fun x hx hn => List.mem_map.2 ⟨x, hx, by simp [hn]⟩⟩

/-- A row of an opcode does nothing, or what it does to the taken command that it names, now in stage 1. -/
theorem Dev.command_cases (id op : Nat) (f : Cmd → Dev → Dev) :
    d.command id op f = d ∨
    ∃ c, d.cmds.find? (fun c => c.id == id) = some c ∧ c.opcode = op ∧ d.mayRun c = true ∧ d.command id op f = f c (d.started id) := by
  unfold Dev.command
  split
  · split
    · rename_i c hc h
      exact .inr ⟨c, hc, h.1, h.2, rfl⟩
    · exact .inl rfl
  · exact .inl rfl

/-- A row of a context command does nothing, ends it out of range or closed off, or does what it does. -/
theorem Dev.ctxCommand_cases (id op : Nat) (k : Closing) (shut : List Byte) (f : Cmd → Dev → Dev) :
    d.ctxCommand id op k shut f = d ∨
    ∃ c, d.cmds.find? (fun c => c.id == id) = some c ∧ c.opcode = op ∧ d.mayRun c = true ∧
      ((c.priv = true ∧ c.ctx > 7 ∧ d.ctxCommand id op k shut f = (d.started id).outOfRange id 0xFFFC)
      ∨ (c.priv = true ∧ d.ctxCommand id op k shut f = ((d.started id).violation 0 5 op).ok id shut)
      ∨ d.ctxCommand id op k shut f = f c (d.started id)) := by
  rcases d.command_cases id op (fun c d =>
    if c.priv ∧ c.ctx > 7 then d.outOfRange id 0xFFFC
    else if c.priv ∧ k ≠ .usual ∧ d.confidential c.ctx then (d.violation 0 5 op).ok id shut
    else f c d) with h | ⟨c, h1, h2, h3, h⟩
  · exact .inl h
  · refine .inr ⟨c, h1, h2, h3, ?_⟩
    unfold Dev.ctxCommand
    rw [h]
    split
    · rename_i hc
      exact .inl ⟨hc.1, hc.2, rfl⟩
    · split
      · rename_i hc
        exact .inr (.inl ⟨hc.1, rfl⟩)
      · exact .inr (.inr rfl)

/-- A command that reads bytes ends out of range, ends with the DMA's failure, or goes on with the bytes. -/
theorem Dev.withData_cases (c : Cmd) (pos n : Nat) (data : Option (List Byte)) (f : List Byte → Dev) :
    (c.p pos 8 % 8 ≠ 0 ∧ d.withData c pos n data f = d.outOfRange c.id pos)
    ∨ (d.dmaRead c (c.p pos 8) n data = none ∧ d.withData c pos n data f = d.dmaFailed c.id)
    ∨ ∃ b, d.dmaRead c (c.p pos 8) n data = some b ∧ d.withData c pos n data f = f b := by
  unfold Dev.withData
  dsimp only
  split
  · rename_i h
    exact .inl ⟨h, rfl⟩
  · split
    · rename_i h
      exact .inr (.inl ⟨h, rfl⟩)
    · rename_i b h
      exact .inr (.inr ⟨b, h, rfl⟩)

end

end Sys2Proof.Machine
end

