-- ==== Sys2Proof/Laws/Tab.lean ====
section
/-! SUPPORT. Laws of sparse tables: read after write, and the canonical form. -/

namespace Sys2Proof.Machine

theorem Tab.get_append_absent {α : Type} (dflt : α) (a b : Tab α) (k : Nat) (h : ∀ p ∈ a, p.1 ≠ k) :
    Tab.get dflt (a ++ b) k = Tab.get dflt b k := by
  induction a with
  | nil => rfl
  | cons x r ih =>
    obtain ⟨j, v⟩ := x
    have hj : j ≠ k := h (j, v) (by simp)
    have hr : ∀ p ∈ r, p.1 ≠ k := fun p hp => h p (by simp [hp])
    simp [Tab.get, hj, ih hr]

theorem Tab.get_absent {α : Type} (dflt : α) (a : Tab α) (k : Nat) (h : ∀ p ∈ a, p.1 ≠ k) : Tab.get dflt a k = dflt := by
  have := Tab.get_append_absent dflt a [] k h
  simpa [Tab.get] using this

theorem Tab.below_keys {α : Type} (t : Tab α) (k : Nat) : ∀ p ∈ t.below k, p.1 ≠ k := by
  intro p hp; simp [Tab.below] at hp; omega

theorem Tab.above_keys {α : Type} (t : Tab α) (k : Nat) : ∀ p ∈ t.above k, p.1 ≠ k := by
  intro p hp; simp [Tab.above] at hp; omega

/-- Reading the key just written gives the value written. -/
@[simp] theorem Tab.get_set_same {α : Type} [DecidableEq α] (dflt : α) (t : Tab α) (k : Nat) (v : α) : Tab.get dflt (Tab.set dflt t k v) k = v := by
  unfold Tab.set
  rw [Tab.get_append_absent _ _ _ _ (Tab.below_keys t k)]
  split
  · next h => rw [Tab.get_absent _ _ _ (Tab.above_keys t k), h]
  · simp [Tab.get]

theorem Tab.get_below {α : Type} (dflt : α) (t : Tab α) (k j : Nat) (h : j < k) : Tab.get dflt (t.below k) j = Tab.get dflt t j := by
  induction t with
  | nil => rfl
  | cons x r ih =>
    obtain ⟨i, v⟩ := x
    by_cases hi : i < k
    · simp only [Tab.below, List.filter_cons, hi, decide_true, if_true, Tab.get] at ih ⊢; split <;> simp_all
    · have : i ≠ j := by omega
      simp_all [Tab.below, Tab.get]

theorem Tab.get_above {α : Type} (dflt : α) (t : Tab α) (k j : Nat) (h : k < j) : Tab.get dflt (t.above k) j = Tab.get dflt t j := by
  induction t with
  | nil => rfl
  | cons x r ih =>
    obtain ⟨i, v⟩ := x
    by_cases hi : k < i
    · simp only [Tab.above, List.filter_cons, hi, decide_true, if_true, Tab.get] at ih ⊢; split <;> simp_all
    · have : i ≠ j := by omega
      simp_all [Tab.above, Tab.get]

theorem Tab.get_append_below {α : Type} (dflt : α) (t b : Tab α) (k j : Nat) (h : j < k) (hb : ∀ p ∈ b, p.1 ≠ j) :
    Tab.get dflt (t.below k ++ b) j = Tab.get dflt t j := by
  induction t with
  | nil => rw [show Tab.below ([] : Tab α) k ++ b = b from rfl, Tab.get_absent dflt b j hb]; rfl
  | cons x r ih =>
    obtain ⟨i, v⟩ := x
    by_cases hi : i < k
    · simp only [Tab.below, List.filter_cons, hi, decide_true, if_true, List.cons_append, Tab.get] at ih ⊢; split <;> simp_all
    · have : i ≠ j := by omega
      simp_all [Tab.below, Tab.get]

/-- Reading another key gives what it held. -/
theorem Tab.get_set_other {α : Type} [DecidableEq α] (dflt : α) (t : Tab α) (k j : Nat) (v : α) (h : j ≠ k) :
    Tab.get dflt (Tab.set dflt t k v) j = Tab.get dflt t j := by
  unfold Tab.set
  rcases Nat.lt_or_gt_of_ne h with hj | hj
  · refine Tab.get_append_below dflt t _ k j hj ?_
    intro p hp
    split at hp
    · simp [Tab.above] at hp; omega
    · rcases List.mem_cons.mp hp with rfl | hp
      · omega
      · simp [Tab.above] at hp; omega
  · have hb : ∀ p ∈ t.below k, p.1 ≠ j := by intro p hp; simp [Tab.below] at hp; omega
    rw [Tab.get_append_absent _ _ _ _ hb]
    split
    · exact Tab.get_above dflt t k j hj
    · have : k ≠ j := by omega
      simp [Tab.get, this, Tab.get_above dflt t k j hj]

/-- Reading after a write, at any key. -/
theorem Tab.get_set {α : Type} [DecidableEq α] (dflt : α) (t : Tab α) (k j : Nat) (v : α) :
    Tab.get dflt (Tab.set dflt t k v) j = if j = k then v else Tab.get dflt t j := by
  split
  · next h => subst h; simp
  · next h => exact Tab.get_set_other dflt t k j v h

@[simp] theorem Tab.get_nil {α : Type} (dflt : α) (k : Nat) : Tab.get dflt ([] : Tab α) k = dflt := rfl

@[simp] theorem Tab.get_upd_same {α : Type} [DecidableEq α] (dflt : α) (t : Tab α) (k : Nat) (f : α → α) :
    Tab.get dflt (Tab.upd dflt t k f) k = f (Tab.get dflt t k) := by simp [Tab.upd]

theorem Tab.get_upd_other {α : Type} [DecidableEq α] (dflt : α) (t : Tab α) (k j : Nat) (f : α → α) (h : j ≠ k) :
    Tab.get dflt (Tab.upd dflt t k f) j = Tab.get dflt t j := Tab.get_set_other dflt t k j _ h

end Sys2Proof.Machine
end

