-- ==== Sys2Proof/Laws/Regs.lean ====
section
/-! SUPPORT. Laws of registers and their fields: read after write, disjoint fields, other registers. -/

namespace Sys2Proof.Machine

/-! ## Registers -/

@[simp] theorem Dev.rd_wr_same (d : Dev) (r : Reg) (i : Nat) (v : W64) : (d.wr r i v).rd r i = v := by
  simp [Dev.rd, Dev.wr]

theorem Dev.rd_wr_other (d : Dev) (r r' : Reg) (i i' : Nat) (v : W64) (h : r'.key i' ≠ r.key i) :
    (d.wr r i v).rd r' i' = d.rd r' i' := by
  simp only [Dev.rd, Dev.wr]
  by_cases hk : r'.reset i' = r.reset i
  · rw [hk]; exact Tab.get_set_other _ _ _ _ _ h
  · -- the default matters only for a key that is not listed
    have key : ∀ (a : Tab W64), Tab.get (r'.reset i') (Tab.set (r.reset i) a (r.key i) v) (r'.key i') = Tab.get (r'.reset i') a (r'.key i') := by
      intro a
      have := Tab.get_set_other (r'.reset i') a (r.key i) (r'.key i') v h
      unfold Tab.set at this ⊢
      by_cases h1 : v = r.reset i <;> by_cases h2 : v = r'.reset i' <;> simp only [h1, h2, if_true, if_false] at this ⊢
      · exact absurd (h2 ▸ h1 : r'.reset i' = r.reset i) hk
      · have hn : r.key i ≠ r'.key i' := fun e => h e.symm
        rw [← this]
        have hr : ¬ r.reset i = r'.reset i' := fun e => hk e.symm
        simp only [hr, if_false]
        clear this
        induction a.below (r.key i) with
        | nil => simp [Tab.get, hn]
        | cons x l ih => obtain ⟨j, w⟩ := x; simp only [List.cons_append, Tab.get]; split <;> simp_all
      · have hn : r.key i ≠ r'.key i' := fun e => h e.symm
        rw [← this]
        have hr : ¬ r'.reset i' = r.reset i := hk
        simp only [hr, if_false]
        clear this
        induction a.below (r.key i) with
        | nil => simp [Tab.get, hn]
        | cons x l ih => obtain ⟨j, w⟩ := x; simp only [List.cons_append, Tab.get]; split <;> simp_all
      · exact this
    exact key d.regs

/-- Register keys differ when the registers do, or the instances do. -/
theorem Reg.key_ne (r r' : Reg) (i i' : Nat) (hi : i < 2 ^ 20) (hi' : i' < 2 ^ 20) (h : r'.id ≠ r.id ∨ i' ≠ i) : r'.key i' ≠ r.key i := by
  unfold Reg.key; omega

/-! ## Fields -/

theorem Fld.mask_bit (f : Fld) (i : Nat) (hi : i < 64) : f.mask.getLsbD i = (decide (f.lo ≤ i) && decide (i < f.lo + (f.hi + 1 - f.lo))) := by
  unfold Fld.mask
  rw [BitVec.getLsbD_ofNat, Nat.testBit_mul_two_pow, Nat.testBit_two_pow_sub_one]
  simp only [hi, decide_true, Bool.true_and]
  by_cases h : f.lo ≤ i
  · simp only [h, decide_true, Bool.true_and]
    congr 1
    exact propext ⟨fun _ => by omega, fun _ => by omega⟩
  · simp [h]

theorem Fld.put_bit (f : Fld) (v : W64) (n i : Nat) (hi : i < 64) :
    (f.put v n).getLsbD i = if f.lo ≤ i ∧ i < f.lo + (f.hi + 1 - f.lo) then n.testBit (i - f.lo) else v.getLsbD i := by
  unfold Fld.put
  rw [BitVec.getLsbD_or, BitVec.getLsbD_and, BitVec.getLsbD_and, BitVec.getLsbD_not, Fld.mask_bit f i hi,
    BitVec.getLsbD_ofNat, Nat.testBit_mul_two_pow]
  by_cases h1 : f.lo ≤ i <;> by_cases h2 : i < f.lo + (f.hi + 1 - f.lo) <;> simp [h1, h2, hi]

theorem Fld.get_bit (f : Fld) (v : W64) (i : Nat) : (f.get v).testBit i = (decide (i < f.hi + 1 - f.lo) && v.getLsbD (f.lo + i)) := by
  unfold Fld.get bits
  rw [Nat.testBit_mod_two_pow, Nat.testBit_div_two_pow, BitVec.testBit_toNat, Nat.add_comm i f.lo]

/-- A field holds what was put into it, to its width. -/
theorem Fld.get_put_same (f : Fld) (v : W64) (n : Nat) (h : f.hi < 64) : f.get (f.put v n) = n % 2 ^ (f.hi + 1 - f.lo) := by
  apply Nat.eq_of_testBit_eq
  intro i
  rw [Fld.get_bit, Nat.testBit_mod_two_pow]
  by_cases hi : i < f.hi + 1 - f.lo
  · rw [Fld.put_bit f v n _ (by omega), if_pos ⟨by omega, by omega⟩]
    simp [hi]
  · simp [hi]

/-- A field keeps its value when a field apart from it is written. -/
theorem Fld.get_put_other (f g : Fld) (v : W64) (n : Nat) (h : f.hi < g.lo ∨ g.hi < f.lo) (hf : f.hi < 64) (hl : g.lo ≤ g.hi) :
    f.get (g.put v n) = f.get v := by
  apply Nat.eq_of_testBit_eq
  intro i
  rw [Fld.get_bit, Fld.get_bit]
  by_cases hi : i < f.hi + 1 - f.lo
  · rw [Fld.put_bit g v n _ (by omega), if_neg (by omega)]
  · simp [hi]

theorem Dev.fld_setF_same (d : Dev) (r : Reg) (i : Nat) (f : Fld) (n : Nat) (h : f.hi < 64) :
    (d.setF r i f n).fld r i f = n % 2 ^ (f.hi + 1 - f.lo) := by
  simp [Dev.fld, Dev.setF, Fld.get_put_same _ _ _ h]

theorem Dev.fld_setF_other (d : Dev) (r : Reg) (i : Nat) (f g : Fld) (n : Nat) (h : f.hi < g.lo ∨ g.hi < f.lo) (hf : f.hi < 64)
    (hl : g.lo ≤ g.hi) : (d.setF r i g n).fld r i f = d.fld r i f := by
  simp [Dev.fld, Dev.setF, Fld.get_put_other f g _ n h hf hl]

theorem Dev.rd_setF_other (d : Dev) (r r' : Reg) (i i' : Nat) (f : Fld) (n : Nat) (h : r'.key i' ≠ r.key i) :
    (d.setF r i f n).rd r' i' = d.rd r' i' := Dev.rd_wr_other d r r' i i' _ h

theorem Dev.fld_setF_apart (d : Dev) (r r' : Reg) (i i' : Nat) (f g : Fld) (n : Nat) (h : r'.key i' ≠ r.key i) :
    (d.setF r i g n).fld r' i' f = d.fld r' i' f := by
  simp [Dev.fld, Dev.rd_setF_other d r r' i i' g n h]

end Sys2Proof.Machine
end

