-- ==== Sys2Proof/Laws/Synapse.lean ====
section
/-! SUPPORT. The source index where nothing is written. -/

namespace Sys2Proof.Machine

/-- Bytes of zeros make the number zero. -/
theorem leNat_zeros : ∀ l : List Byte, (∀ b ∈ l, b = 0) → leNat l = 0
  | [], _ => rfl
  | b :: l, h => by
    have hb := h b (by simp)
    have hl := leNat_zeros l (fun x hx => h x (by simp [hx]))
    simp [leNat, hb, hl]

/-- An unlisted byte of a source index reads zero. -/
theorem memDflt_sidx (t e j : Nat) (ht : t < 32) (he : e < 9) (hj : j < 131072) : memDflt (engBase t e + 0x280000 + j) = 0 := by
  have h1 : ¬ flashBase ≤ engBase t e + 0x280000 + j := by simp only [flashBase, engBase, tileBase]; omega
  have h2 : ¬ 0x2F8000 ≤ (engBase t e + 0x280000 + j - 0x1000000000) % 0x2000000 % 0x300000 := by
    simp only [engBase, tileBase]
    omega
  unfold memDflt
  simp only [h1, h2, false_and, and_false, if_false]
  split <;> rfl

/-- A descriptor of the source index that no listed byte touches is zero. -/
theorem Dev.sidx_absent (d : Dev) (t e i : Nat) (ht : t < 32) (he : e < 9) (hi : i < 8192)
    (h : ∀ p ∈ d.mem, p.1 < engBase t e + 0x280000 + i * 16 ∨ engBase t e + 0x280000 + i * 16 + 16 ≤ p.1) : d.sidx t e i = 0 := by
  have z : d.ld (engBase t e + 0x280000 + i * 16) 16 = 0 := by
    refine leNat_zeros _ (fun b hb => ?_)
    obtain ⟨k, hk, rfl⟩ := List.mem_map.1 hb
    have hk := List.mem_range.1 hk
    unfold Dev.ldB
    split
    · rw [Memory.get_absent _ _ (fun p hp => by have := h p hp; omega), Nat.add_assoc, memDflt_sidx t e _ ht he (by omega)]
    · rfl
  unfold Dev.sidx
  rw [z]
  rfl

/-- A valid entry of a source index is one of `validEntries`, and no other. -/
theorem Dev.mem_validEntries (d : Dev) (t e i : Nat) (ht : t < 32) (he : e < 9) :
    i ∈ d.validEntries t e ↔ i < 8192 ∧ rdBits (d.sidx t e i) 95 95 = 1 := by
  unfold Dev.validEntries
  simp only [List.mem_filter, List.mem_range, Bool.and_eq_true, beq_iff_eq]
  refine ⟨fun h => ⟨h.1, h.2.2⟩, fun h => ⟨h.1, ?_, h.2⟩⟩
  refine Decidable.byContradiction (fun hc => absurd h.2 ?_)
  have z : d.sidx t e i = 0 := d.sidx_absent t e i ht he h.1 (fun p hp => Decidable.byContradiction (fun ho => hc (by
    unfold Dev.sidxListed
    rw [List.contains_iff_mem, List.mem_eraseDups, List.mem_filterMap]
    exact ⟨p, hp, by rw [if_pos (by omega)]; exact congrArg some (by omega)⟩)))
  rw [z]
  decide

end Sys2Proof.Machine
end

