-- ==== Sys2Proof/Laws/Usher.lean ====
section
/-! SUPPORT. What Usher's work on a placement keeps: the flows of the contexts. -/

namespace Sys2Proof.Machine

/-- The flows of a device, as a plain definition: the kernel compares its arguments before it unfolds it. -/
def Dev.flowsOf (d : Dev) : Tab (List Flow) := d.flows

section
variable (d : Dev)

theorem Dev.stBytes_flows : ∀ (bs : List Byte) (d : Dev) (a : Nat), (d.stBytes a bs).flowsOf = d.flowsOf
  | [], _, _ => rfl
  | b :: bs, d, a => (Dev.stBytes_flows bs (d.stB a b) (a + 1)).trans (d.stB_flows a b)

theorem Dev.stB_flowsOf (a : Nat) (b : Byte) : (d.stB a b).flowsOf = d.flowsOf := rfl

theorem Dev.sidxDrop_flows (t e i : Nat) : (d.sidxDrop t e i).flowsOf = d.flowsOf := by
  unfold Dev.sidxDrop
  exact Dev.stB_flowsOf ..

theorem Dev.bump_flows (r : Reg) (i n : Nat) : (d.bump r i n).flowsOf = d.flowsOf := by
  obtain ⟨g, h⟩ := d.bump_frame r i n
  rw [h]
  rfl

theorem Dev.drop_flows (p : DropPt) (place ctx cls key n : Nat) : (d.drop p place ctx cls key n).flowsOf = d.flowsOf := by
  obtain ⟨g, b, q, o, l, h⟩ := d.drop_frame p place ctx cls key n
  rw [h]
  rfl

theorem Dev.st_flowsOf (a n v : Nat) : (d.st a n v).flowsOf = d.flowsOf := Dev.stBytes_flows _ d a

theorem Dev.touch_flowsOf (t e s i : Nat) : (d.touch t e s i).flowsOf = d.flowsOf := by
  unfold Dev.touch
  exact Dev.stB_flowsOf ..

theorem Dev.free_flowsOf (n : Nat) : ({ d with free := n } : Dev).flowsOf = d.flowsOf := rfl

theorem Dev.slotAdd_flows (t e : Nat) (p : Desc) (i m : Nat) (v : Int) : (d.slotAdd t e p i m v).flowsOf = d.flowsOf := by
  unfold Dev.slotAdd Dev.takeFree
  dsimp only
  split <;> split <;> simp -implicitDefEqProofs only [Dev.bump_flows, Dev.touch_flowsOf, Dev.st_flowsOf, Dev.free_flowsOf]

theorem Dev.setEng_flowsOf (t e : Nat) (g : Engine) : (d.setEng t e g).flowsOf = d.flowsOf := rfl

theorem addOne_flows (t e : Nat) (p : Desc) (cls i m : Nat) (v : Int) (acc : AddAcc) :
    (addOne t e p cls i m v acc).d.flowsOf = acc.d.flowsOf := by
  unfold addOne
  extract_lets c g u d ahead
  have h : d.flowsOf = acc.d.flowsOf := Dev.bump_flows ..
  clear_value d ahead u
  repeat' split
  · exact h
  · exact (Dev.bump_flows ..).trans ((Dev.slotAdd_flows ..).trans h)
  · exact (Dev.slotAdd_flows ..).trans h
  · exact h

theorem Dev.roundStep_flows (t e lane : Nat) (used : Bool) : (d.roundStep t e lane used).flowsOf = d.flowsOf := by
  cases used <;> rfl

theorem addProduct_flows (t e proj : Nat) (p : Desc) (cls lane sgrp i m : Nat) (prod : Int) (acc : AddAcc) :
    (addProduct t e proj p cls lane sgrp i m prod acc).d.flowsOf = acc.d.flowsOf :=
  (addOne_flows t e p cls i m _ { acc with d := acc.d.roundStep t e lane _ }).trans (Dev.roundStep_flows ..)

theorem Dev.copyDone_flows (t copy : Nat) : (d.copyDone t copy).flowsOf = d.flowsOf := by
  unfold Dev.copyDone
  dsimp only
  repeat' split
  all_goals rfl

theorem Dev.endPiece_flows (t e copy : Nat) : (d.endPiece t e copy).flowsOf = d.flowsOf := by
  unfold Dev.endPiece
  dsimp only
  split
  · exact (Dev.copyDone_flows _ _ _).trans rfl
  · rfl

theorem Dev.lateDrops_flows (t e ctx cls key late early : Nat) : (d.lateDrops t e ctx cls key late early).flowsOf = d.flowsOf := by
  unfold Dev.lateDrops
  dsimp only
  split <;> split <;> simp -implicitDefEqProofs only [Dev.drop_flows]

theorem addProducts_flows (t e : Nat) (h : Gather) (p : Desc) (cls : Nat) : ∀ (l : List (Nat × Int)) (a : AddAcc),
    (l.foldl (fun acc x => addProduct t e h.proj p cls (x.1 % 32) h.sgrp x.1 h.tick x.2 acc) a).d.flowsOf = a.d.flowsOf
  | [], _ => rfl
  | x :: l, a => by rw [List.foldl_cons, addProducts_flows t e h p cls l, addProduct_flows]

theorem AddAcc.start_flows : ({ d := d } : AddAcc).d.flowsOf = d.flowsOf := rfl

theorem Dev.flushAdds_flows (t e : Nat) (h : Gather) : (d.flushAdds t e h).d.flowsOf = d.flowsOf := by
  unfold Dev.flushAdds
  rw [addProducts_flows, AddAcc.start_flows, Dev.setEng_flowsOf]

/-- A flush of the held gather state keeps the flows. -/
theorem Dev.gatherFlush_flows (t e : Nat) : (d.gatherFlush t e).flowsOf = d.flowsOf := by
  unfold Dev.gatherFlush
  split
  · rfl
  · exact (foldl_keeps Dev.flowsOf _ (fun (a : Dev) c => a.endPiece_flows t e c) _ _).trans ((Dev.bump_flows ..).trans
      ((Dev.bump_flows ..).trans ((Dev.bump_flows ..).trans ((Dev.lateDrops_flows ..).trans (Dev.flushAdds_flows ..)))))

theorem Dev.projDrop_flows (t e p : Nat) : (d.projDrop t e p).flowsOf = d.flowsOf := by
  have h : (d.projDrop t e p).flowsOf = (d.flushProj t e p).flowsOf := rfl
  rw [h]
  unfold Dev.flushProj
  split
  · exact d.gatherFlush_flows t e
  · rfl

theorem Dev.boundsDrop_flows (t e c : Nat) : (d.boundsDrop t e c).flowsOf = d.flowsOf :=
  foldl_keeps Dev.flowsOf _ (fun a b => by dsimp only; split <;> rfl) _ _

theorem Dev.popDrop_flows (t e n : Nat) : (d.popDrop t e n).flowsOf = d.flowsOf := rfl

/-- Freeing an engine keeps the flows. -/
theorem Dev.freeEngine_flows (c t e : Nat) : (d.freeEngine c t e).flowsOf = d.flowsOf := by
  unfold Dev.freeEngine
  rw [Dev.boundsDrop_flows, foldl_keeps Dev.flowsOf _ (fun a b => a.sidxDrop_flows t e b), foldl_keeps Dev.flowsOf]
  intro a b
  rw [Dev.popDrop_flows, foldl_keeps Dev.flowsOf _ (fun a b => a.projDrop_flows t e b)]

theorem Dev.freeEngines_flows (c : Nat) (l : List Nat) :
    (l.foldl (fun d k => d.freeEngine c (k / 9) (k % 9)) d).flowsOf = d.flowsOf :=
  foldl_keeps Dev.flowsOf _ (fun (a : Dev) k => a.freeEngine_flows c (k / 9) (k % 9)) l d

theorem Dev.wr_flowsOf (r : Reg) (i : Nat) (v : W64) : (d.wr r i v).flowsOf = d.flowsOf := rfl

theorem Dev.setF_flowsOf (r : Reg) (i : Nat) (f : Fld) (n : Nat) : (d.setF r i f n).flowsOf = d.flowsOf := rfl

theorem Dev.freed_flowsOf (b : Tab (List Block)) (f g : Tab (List Flow)) (w : Tab (List (Nat × Block))) (m : List Demoted) (x : Tab (List (Nat × Nat))) :
    ({ d with blocks := b, flows := f, newFlows := g, away := w, touched := x, demoted := m } : Dev).flowsOf = f := rfl

/-- Freeing a placement frees the flows of its context. -/
theorem Dev.freePlacement_flows (c : Nat) : (d.freePlacement c).flowsOf = Tab.set [] d.flowsOf c [] := by
  rw [← d.freeEngines_flows c (List.range 288)]
  unfold Dev.freePlacement
  generalize (List.range 288).foldl (fun d k => d.freeEngine c (k / 9) (k % 9)) d = x
  dsimp only
  rw [Dev.wr_flowsOf, Dev.setF_flowsOf, Dev.setF_flowsOf, Dev.setF_flowsOf, Dev.freed_flowsOf, Dev.flowsOf]

/-- Clearing a context's slot entries keeps the flows. -/
theorem Dev.clearFlows_flows (c : Nat) (v : Nat → Nat) : (d.clearFlows c v).flowsOf = d.flowsOf := by
  unfold Dev.clearFlows
  exact foldl_keeps Dev.flowsOf _ (fun a b => a.setF_flowsOf ..) _ _

theorem Dev.setRouter_flowsOf (t : Nat) (g : Router) : (d.setRouter t g).flowsOf = d.flowsOf := rfl

theorem Dev.clear_flowsOf (a n : Nat) : (d.clear a n).flowsOf = d.flowsOf := rfl

/-- Emptying a context's tables keeps the flows. -/
theorem Dev.putTables_flows (c : Nat) : (d.putTables c {}).flowsOf = d.flowsOf := by
  unfold Dev.putTables
  generalize hx : (List.range 32).foldl _ d = x
  have h : x.flowsOf = d.flowsOf := by
    rw [← hx]
    refine foldl_keeps Dev.flowsOf _ (fun a b => ?_) _ _
    dsimp only
    rw [Dev.setRouter_flowsOf, Dev.clear_flowsOf]
  rw [← h]
  unfold Dev.flowsOf
  dsimp only [List.foldl_nil]

theorem Dev.blocks_flowsOf (b : Tab (List Block)) (w : Tab (List (Nat × Block))) (x : Tab (List (Nat × Nat))) :
    ({ d with blocks := b, away := w, touched := x } : Dev).flowsOf = d.flowsOf := rfl

/-- Placing an empty plan frees the flows of its context. -/
theorem Dev.placed_flows (c : Nat) (rs : List Rec) : (d.placed c rs {}).flowsOf = Tab.set [] d.flowsOf c [] := by
  rw [← d.freePlacement_flows c]
  unfold Dev.placed Dev.putPlan
  generalize d.freePlacement c = x
  have h : Sys2Proof.Machine.enginesOf {} = [] := rfl
  rw [h]
  simp -implicitDefEqProofs only [List.foldl_nil, Dev.clearFlows_flows, Dev.putTables_flows, Dev.blocks_flowsOf]

/-- A plan of nothing passes no limit once in place (R212). -/
theorem Dev.placedFault_empty (c : Nat) (v : Nat → Nat) (rv : Nat) : d.placedFault c v rv [] {} = none := rfl

/-- Usher's search makes a plan of nothing of a description without records (R208 to R210). -/
theorem Dev.usherMade_empty (d' : Dev) (c : Nat) : d.usherMade d' c [] {} = true := rfl

/-- A device that holds no flow has no flow that breaks a rule (R213 to R216). -/
theorem Dev.flowFault_none (c : Nat) (h : d.flowsOf = []) : d.flowFault c [] = none := by
  have f : d.flows = [] := h
  have hn : ∀ k, (if k = c then [] else Tab.get [] d.flows k) = ([] : List Flow) := fun k => by
    rw [f]
    split <;> rfl
  unfold Dev.flowFault
  have h0 : (List.range 8).flatMap (fun _ => ([] : List (Nat × Flow))) = [] := rfl
  simp [hn, h0]

/-- A description without records is scheduled with no flow (R213). -/
theorem Dev.scheduleCtx_empty (c : Nat) (h : d.flowFault c [] = none) : d.scheduleCtx c [] [] = (.inr [], d) := by
  unfold Dev.scheduleCtx
  rw [show flowOrder [] = [] by simp [flowOrder]]
  simp only [Dev.scheduleAll, h]

end

end Sys2Proof.Machine
end

