-- ==== Sys2Proof/WellFormed.lean ====
section
/-! DEFINITION. The operands that a command's step can bring where their types allow more. -/

namespace Sys2Proof

/-- Whether an access of `n` bytes at `a` lies within one 64-byte unit (R352). -/
def oneUnit (a n : Nat) : Bool := decide (0 < n) && decide (a % 64 + n ≤ 64)

/-- Whether the bytes that a write brings are as many as it stores. -/
def dataFits (n : Nat) (data : Option (List Byte)) : Bool := data.all (fun b => b.length == n)

/-- Whether a command's operands are ones that its step can bring: a register access of 1 to 8 bytes; an aperture or debug access
within one unit with as many bytes as it stores (R352); a fetched packet of 64 bytes (R372); at most 272 symbols of a codeword on a lane (R275);
16 sensors and 4 rails (R363, R565); a firmware agent and at most 248 bytes of payload (R393, R395); a flash write of at least a
byte. -/
def Instr.wellFormed : Instr → Bool
  | .registerWrite _ _ n _ _ _ _ => decide (1 ≤ n.val)
  | .lowHalfRead _ _ n => decide (1 ≤ n.val)
  | .loadSummaryExchange _ payload => decide (payload.length ≤ 248)
  | .codewordReceive _ lane0 lane1 _ => decide (lane0.length ≤ 272) && decide (lane1.length ≤ 272)
  | .commandTake _ packet => packet.all (fun b => b.length == 64)
  | .firmwareSend a _ payload => decide (a.val ≤ 32) && decide (payload.length ≤ 248)
  | .debugRawAccess addr n data => oneUnit addr.toNat n.val && dataFits n.val data
  | .thermalSensorRead raw _ rails => raw.length == 16 && rails.length == 4
  | .apertureAccess _ off n data _ _ => oneUnit off.toNat n.val && dataFits n.val data
  | .flashWrite off bytes => decide (0 < bytes.length) && decide (off.toNat + bytes.length ≤ 2 ^ 27)
  | .highHalfRead .. | .tickDue .. | .tickStart .. | .updatePhaseBegin .. | .ld .. | .st .. | .add .. | .sub ..
  | .mulk .. | .shr .. | .decay .. | .slot .. | .cmpge .. | .cmplt .. | .sel .. | .clr .. | .noise .. | .refr ..
  | .emit .. | .emitContinue .. | .endLine .. | .runningOrderFault .. | .stateWriteback .. | .postCountWrite ..
  | .updateComplete .. | .descriptorWrite .. | .descriptorTakeEffect .. | .neNoiseSeedWrite .. | .neSrSeedWrite ..
  | .neDbgRecLoRead .. | .neDbgRecHiWrite .. | .neDbgRecLoWrite .. | .runningOrderWrite .. | .neProjWrite ..
  | .spillMaxWrite .. | .eventTake .. | .gatherFlushIdle .. | .gatherFlushAge .. | .spillRowLand ..
  | .refetchReturn .. | .clpPeriodWrite .. | .clpPeriodEffect .. | .clpSyncWrite .. | .clpSyncLoad ..
  | .clpStaggerWrite .. | .clpStepWrite .. | .steppedTickDue .. | .stretchFallback .. | .drainWave ..
  | .intermissionRequest .. | .intermissionOpen .. | .intermissionDone .. | .tickMarkerReceive ..
  | .drainTokenSend .. | .drainTokenReceive .. | .tumEpochLenWrite .. | .tumPlWrite .. | .tumSeedWrite ..
  | .ruleApertureWrite .. | .ruleWriteApply .. | .tumPreRecord .. | .tumModulator .. | .sweepWordRead .. | .lrnAdd ..
  | .lrnSub .. | .lrnMul .. | .lrnMulk .. | .lrnShr .. | .lrnMin .. | .lrnMax .. | .lrnCmpge .. | .lrnCmplt ..
  | .lrnSel .. | .lrnSrnd .. | .lrnMov .. | .lrnEnd .. | .sweepWordWrite .. | .sweepEnd .. | .writeThroughComplete ..
  | .loadDescription .. | .place .. | .pinHint .. | .rebalancePeriod .. | .backgroundCopyDone .. | .holdOverEnd ..
  | .demoteFree .. | .scheduleRebuild .. | .fabricIntermissionAnnounce .. | .fabricIntermissionDone ..
  | .fabricIntermissionGo .. | .fanoutLookup .. | .policerRefill .. | .gatewayEntry .. | .flitRoute ..
  | .outputGrant .. | .creditReturn .. | .combineRelease .. | .localPortPresent .. | .midFtLoRead ..
  | .midFtHiWrite .. | .midFtLoWrite .. | .slotTableWrite .. | .midFtRegionWrite .. | .midCombWrite ..
  | .midC0polWrite .. | .fanoutEntryRewrite .. | .tableUpdate .. | .tableSwitch .. | .elkCtrlWrite ..
  | .elkRetrain .. | .laneTrainingDone .. | .trainTimeout .. | .frameReceive .. | .frameTransmit ..
  | .replayTimeout .. | .linkDown .. | .laneFail .. | .rimLookup .. | .rimGatewayIngress .. | .outputRingTimer ..
  | .aeroSend .. | .aeroAckRise .. | .aeroHsTimeout .. | .aeroStuck .. | .xptRetransmit .. | .xptReceiveBulk ..
  | .bulkWrite .. | .xptReceiveMessage .. | .xptSkip .. | .ackSend .. | .ackReceive .. | .rimReset ..
  | .rimTabLoRead .. | .rimTabHiWrite .. | .rimTabLoWrite .. | .rimTabRegionWrite .. | .rimTableRewrite ..
  | .csiPacketReceive .. | .aeriReqRise .. | .aeriAckRaise .. | .aeriReqFall .. | .aeriHsTimeout .. | .pixelScan ..
  | .snsInCfgWrite .. | .snsCsiCtrlWrite .. | .crcParamWrite .. | .crcCfgWrite .. | .perstAssert ..
  | .perstDeassert .. | .hotReset .. | .pfFlr .. | .vfFlr .. | .injTailWrite .. | .injCtrlWrite .. | .injFetch ..
  | .injFetchComplete .. | .outHeadWrite .. | .outCtrlWrite .. | .smbStatusRead .. | .smbHottestRead ..
  | .smbSensorRead .. | .smbPowerRead .. | .smbRailRead .. | .smbRecordsRead .. | .smbSerialRead ..
  | .smbFwVersionRead .. | .smbClearAlert .. | .smbUnknownCode .. | .smbClockLowTimeout .. | .extest ..
  | .samplePreload .. | .idcode .. | .clamp .. | .highz .. | .extestPulse .. | .extestTrain .. | .bypass ..
  | .privateTapInstruction .. | .tapReset .. | .sqTailWrite .. | .sqCtrlWrite .. | .cqCtrlWrite .. | .cqHeadWrite ..
  | .cqRecordWrite .. | .cqSignalTimer .. | .remoteCommand .. | .nopCmd .. | .identify .. | .readReg ..
  | .writeReg .. | .readCounters .. | .startContext .. | .stopContext .. | .setTickPeriod .. | .step ..
  | .snapshot .. | .restore .. | .injectEvents .. | .attachOutput .. | .retireUnit .. | .reinstateUnit ..
  | .learnConfig .. | .epochControl .. | .powerState .. | .fwStage .. | .fwActivate .. | .licenceInstall ..
  | .attest .. | .calRead .. | .calWrite .. | .recorderRead .. | .recorderClear .. | .mqSend .. | .messageArrive ..
  | .stagedMessageWrite .. | .stallTimeout .. | .mqDataRead .. | .mqCfgWrite .. | .engineWatchdog .. | .tcWatchdog ..
  | .rmWatchdog .. | .lpddrReadTimeout .. | .engineReset .. | .engineResetEnd .. | .tileReset ..
  | .ringmasterRestartEnd .. | .contextResetWindowEnd .. | .scrubComplete .. | .unitTestComplete ..
  | .roustaboutRegionTest .. | .runningOrderRewrite .. | .pageCopyDone .. | .secCtxCnfWrite .. | .secDbgLock ..
  | .debugHalt .. | .powerOnReset .. | .coldReset .. | .warmReset .. | .netBootServe .. | .netBootTimeout ..
  | .netBootSlotWrite .. | .portWaitEnd .. | .keepFRegisterWrite .. | .referenceClockLoss .. | .sysclkRecovery ..
  | .tileClockGate .. | .wakeEvent .. | .padRelease .. | .thermalTripRelease .. | .thermAlertClear ..
  | .pkgPowerRead .. | .timerStep .. | .tmrPeriodWrite .. | .tmrCountWrite .. | .tmrCmpWrite .. | .tmrCmpRelWrite ..
  | .tmrSyncWrite .. | .tmrStaggerWrite .. | .headcountFreeze .. | .hcNowWrite .. | .headcountDumpComplete ..
  | .hcChainWrite .. | .barkerProgram .. | .optimeAdvance .. | .optimeSave .. | .mirrorPacketSend ..
  | .homSessWrite .. | .memCtxWrite .. | .memRetWrite .. | .flashErase .. | .flashBusyEnd .. | .pwrGoodRise ..
  | .powerLoss .. | .referenceClockReturn .. | .pcieLinkDown .. | .pcieLinkUp .. | .tileControllerRestartEnd ..
  | .debugHaltRelease .. | .slotTableRewrite .. => true

end Sys2Proof
end

