-- ==== Sys2Proof/Tests/Slice0.lean ====
section
/-! SUPPORT. Tests: ill-formed commands that the check refuses, the manual's worked examples, and, for every statement of the
certificate with hypotheses, states and operands that meet them. -/

set_option maxRecDepth 100000
set_option Elab.async false

namespace Sys2Proof.Tests

open Sys2Proof Sys2Proof.Machine

/-! ## Small states -/

/-- The device after reset. -/
def base : Dev := State.reset.dev

/-- The state after reset with another device. -/
def st (d : Dev) : State := { State.reset with dev := d }

/-- A line of lanes 0, 2 and 31 of population 0. -/
def line0 : Line := { job := ⟨0, 0, 0x80000005⟩, lanes := (List.range 32).map (fun l => { v := BitVec.ofNat 24 (0x7FFFF0 + l), i := 0xFFFFFF, dt := 70, p := l == 0 }) }

/-- The last engine of the last tile changed. -/
def eng (d : Dev) (f : Engine → Engine) : Dev := d.setEng 31 8 (f (d.eng 31 8))

/-- A word in the running-order table of the last engine, where the line stands. -/
def roAt (d : Dev) (w : Nat) : Dev := d.st (engBase 31 8 + 0x2F8000 + (d.pop 31 8 0).l NE_POP_LO_ROUTINE * 512) 8 w

/-- The last engine runs a line whose next word is given, in the phase of tick 5 of context 7. -/
def runs (d : Dev) (w : Nat) : Dev := roAt (eng d (fun g => { g with phase := some (7, 5), line := some line0 })) w

/-- A taken command of the physical function's queue 7. -/
def cmd (op ctx : Nat) (params : List Byte) : Cmd := { id := 5, sq := 7, opcode := op, ctx := ctx, plen := params.length, params := params }

/-- The Box Office holds one taken command. -/
def took (d : Dev) (x : Cmd) : Dev := { d with cmds := [x] }

/-- A record of a description. -/
def mkRec (type id : Nat) (body : List Byte) : List Byte := leBytes 2 type ++ leBytes 2 id ++ leBytes 4 (8 + body.length) ++ body

/-- A description of records, with its CRC. -/
def mkDesc (n : Nat) (body : List Byte) : List Byte :=
  leBytes 4 0x58424C42 ++ leBytes 2 1 ++ leBytes 2 n ++ leBytes 4 (32 + body.length) ++ leBytes 4 200 ++ leBytes 12 0 ++ leBytes 4 (crc32c body) ++ body

/-- A POP record of `n` neurons with RT-LIF. -/
def popRec (id key n : Nat) : List Byte := mkRec 1 id (leBytes 4 key ++ leBytes 4 n ++ [0, 1, 0, 0, 0xFF, 0xFF, 0xFF, 0xFF, 0, 0, 0, 0, 0, 0, 0, 0])

/-! ## Ill-formed commands -/

/-- A register access of no bytes is refused. -/
theorem test_illformed_registerWrite : (Instr.registerWrite .pf 0 0 0 false 0 {}).wellFormed = false := by decide

/-- A half read of no bytes is refused. -/
theorem test_illformed_lowHalfRead : (Instr.lowHalfRead .pf 0 0).wellFormed = false := by decide

/-- A message of more than 248 bytes is refused. -/
theorem test_illformed_loadSummaryExchange : (Instr.loadSummaryExchange 0 (List.replicate 249 0)).wellFormed = false := by
  decide

/-- A lane that brings 273 symbols is refused. -/
theorem test_illformed_codewordReceive : (Instr.codewordReceive 0 (List.replicate 273 0) [] false).wellFormed = false := by decide

/-- A fetched packet of 63 bytes is refused. -/
theorem test_illformed_commandTake : (Instr.commandTake 0 (some (List.replicate 63 0))).wellFormed = false := by decide

/-- A message of an agent that runs no firmware is refused. -/
theorem test_illformed_firmwareSend_agent : (Instr.firmwareSend 33 0 []).wellFormed = false := by decide

/-- Firmware's message of more than 248 bytes is refused. -/
theorem test_illformed_firmwareSend_length : (Instr.firmwareSend 0 0 (List.replicate 249 0)).wellFormed = false := by decide

/-- A debug access across two units of 64 bytes is refused. -/
theorem test_illformed_debugRawAccess_unit : (Instr.debugRawAccess 63 2 none).wellFormed = false := by decide

/-- A debug access of no bytes is refused. -/
theorem test_illformed_debugRawAccess_empty : (Instr.debugRawAccess 0 0 none).wellFormed = false := by decide

/-- A debug write that brings fewer bytes than it stores is refused. -/
theorem test_illformed_debugRawAccess_data : (Instr.debugRawAccess 0 2 (some [1])).wellFormed = false := by decide

/-- Readings of 15 sensors are refused. -/
theorem test_illformed_thermalSensorRead_sensors :
    (Instr.thermalSensorRead (List.replicate 15 0) none [0, 0, 0, 0]).wellFormed = false := by decide

/-- Readings of three rails are refused. -/
theorem test_illformed_thermalSensorRead_rails :
    (Instr.thermalSensorRead (List.replicate 16 0) none [0, 0, 0]).wellFormed = false := by decide

/-- An aperture access across two units of 64 bytes is refused. -/
theorem test_illformed_apertureAccess_unit : (Instr.apertureAccess .pf 32 33 none .clean false).wellFormed = false := by decide

/-- An aperture write that brings more bytes than it stores is refused. -/
theorem test_illformed_apertureAccess_data : (Instr.apertureAccess .pf 0 1 (some [1, 2]) .clean false).wellFormed = false := by decide

/-- A flash write of no bytes is refused. -/
theorem test_illformed_flashWrite_empty : (Instr.flashWrite 0 []).wellFormed = false := by decide

/-- A flash write past the flash's end is refused. -/
theorem test_illformed_flashWrite_end : (Instr.flashWrite (2 ^ 27 - 1) [1, 2]).wellFormed = false := by decide

/-! ## Worked examples of the manual -/

/-- The words of RT-LIF as R86 prints them are the micro-ops that R86 names. -/
theorem test_rtlif_words :
    [0x0400000000000000, 0x0600000000000000, 0x3800800000000000, 0x1E40000001000000, 0x2000000000000000, 0x0E54000000000000,
     0x1C00000000000000, 0x0C0B000000000000, 0x2413010000000000, 0x3C01000000000000, 0x3001000000000000, 0x3801000002000000,
     0x0800000000000000, 0x0A00000000000000, 0xFC00000000000000].map microDecode =
    [some (.ld 0 0), some (.ld 2 0), some (.refr 0x800000 0), some (.decay 2 2 1 0), some (.slot 0), some (.add 2 2 5 0 0),
     some (.decay 0 0 0 0), some (.add 0 0 2 0 3), some (.cmpge 0 4 0x010000 3), some (.emit 0 0 1), some (.clr 0 0 1),
     some (.refr 2 1), some (.st 0 0), some (.st 2 0), some (.fin 0)] := by decide +kernel

/-- OP 0x00 is illegal (R66). -/
theorem test_op_zero_illegal : microDecode 0 = none := by decide +kernel

/-- The checksum of the nine ASCII bytes "123456789" by the parameters of chapter 9's example (R338). -/
theorem test_crc_example : crc 16 0x1021 0xFFFF 0 false false ((List.range 9).map (fun i => BitVec.ofNat 8 (0x31 + i))) = 0x29B1 := by
  decide +kernel

/-- NE_POP_LO_3 of engine E2 of tile 9 stands where chapter 2's example puts it. -/
theorem test_address_ne_pop_lo : NE_POP_LO.addr (engIx 9 2 * 64 + 3) = 0x00464430 := by decide +kernel

/-- MID_VER_SEL of tile 11 stands where chapter 7's example puts it. -/
theorem test_address_mid_ver_sel : MID_VER_SEL.addr 11 = 0x004C8010 := by decide +kernel

/-- The line of R86's example: lane 5 was last updated four ticks ago. -/
def workedLine : Line :=
  { job := ⟨0, 34, 0x20⟩, lanes := (List.range 32).map (fun l => if l = 5 then { v := 62000, i := 12000, t := 9600, dt := 4 } else {}) }

/-- The last engine runs the line of R86's example at a word, with entry 4 of decay table 0. -/
def worked (w factor : Nat) : Dev :=
  let d := eng base (fun g => { g with phase := some (7, 1000), line := some workedLine })
  (d.st (engBase 31 8 + 0x2F8000) 8 w).setF NE_DECAY (287 * 1024 + 4) NE_DECAY_FACTOR factor

/-- Lane 5 after one step. -/
def lane5 (i : Instr) (s : State) : Option Lane :=
  match step { s with pending := [i] } with
  | .next t => (t.dev.eng 31 8).line.bind (fun ln => ln.lanes[5]?)
  | _ => none

/-- R86's example, word 3: 12,000 decays by 29,447 to 5,392. -/
theorem test_decay_current :
    (lane5 (.decay 31 8 2 2 0 0) (st (worked (MicroOp.encode (.decay 2 2 0 0)) 29447))).map (·.i) = some 5392 := by decide +kernel

/-- R86's example, word 6: 62,000 decays by 53,656 to 50,761. -/
theorem test_decay_membrane :
    (lane5 (.decay 31 8 0 0 0 0) (st (worked (MicroOp.encode (.decay 0 0 0 0)) 53656))).map (·.v) = some 50761 := by decide +kernel

/-- ADD I, I, T of the example's word 5: 12,000 and 9,600 are 21,600. -/
theorem test_add : (lane5 (.add 31 8 2 2 5 0 0) (st (worked 0x0E54000000000000 0))).map (·.i) = some 21600 := by decide +kernel

/-- CMPGE against 65,536 clears P below the threshold (R86, word 8). -/
theorem test_cmpge : (lane5 (.cmpge 31 8 0 4 0x010000 3) (st (worked 0x2413010000000000 0))).map (·.p) = some false := by
  decide +kernel

/-- A command that is not the sequencer's next word leaves the line. -/
theorem test_other_word_waits :
    (lane5 (.sub 31 8 2 2 5 0 0) (st (worked 0x0E54000000000000 0))).map (·.i) = some 12000 := by decide +kernel

/-- With no command waiting the block idles. -/
theorem test_idle : step State.reset = .next State.reset := rfl

/-- The memory of the reset state is in its canonical form. -/
theorem test_reset_memory : Memory.wf State.reset.dev.mem = true := by decide

/-! ## Operands of the witnesses -/

/-- The line with lane 31 held back. -/
def heldLine : Line := { line0 with held := 0x80000000 }

/-- A device with a confidential context's neuron. -/
def closedNeuron (d : Dev) : Dev :=
  ((((d.wr NE_POP_LO (287 * 64 + 63) 0).setF NE_POP_LO (287 * 64 + 63) NE_POP_LO_VALID 1).setF NE_POP_LO (287 * 64 + 63)
    NE_POP_LO_CONTEXT 7).wr NE_POP_HI (287 * 64 + 63) 0x20000000).setF SEC_CTX_STATUS 7 SEC_CTX_STATUS_CONFIDENTIAL 1

/-- An event with the highest key, of class 1 and parity 1. -/
def synEvent : Delivered := ⟨evWord 1 5 0xFFFFFFFF 0, 7, 1, 1, 3⟩

/-- A gather of the last projection and synapse group. -/
def gatherLast : Gather :=
  { ctx := 7, proj := 31, sgrp := 4095, tick := 5, window := 10, express := false, events := 1, partials := [(0, 5)], copies := [3] }

/-- A spilled row's job at the last source-index entry. -/
def rowJob : RowJob :=
  { desc := BitVec.ofNat 128 (2 ^ 95 + 7 * 2 ^ 91 + 2 ^ 88 + 31 * 2 ^ 83 + 5 * 2 ^ 45 + 20 * 2 ^ 31), index := 8191 }

/-- A parked row job. -/
def parked : Parked := { ev := synEvent, express := false, job := rowJob }

/-- A refetch that has found no row. -/
def refetch : Refetch := { unit := engBase 31 8 + 640, ev := synEvent, express := false, rows := some [] }

/-- A generator one cycle before its period ends. -/
def genBeforeDue : Gen := { running := true, period := 200, count := 199, edge := 10 }

/-- A tick marker with the last tick. -/
def markerWord : W64 := evWord 4 4095 0 0

/-- A port that is up, whose peer has capabilities. -/
def portUp (b : Dev) (p : Nat) (cap : W64) : Dev := (b.setF ELK_STATUS p ELK_STATUS_STATE 4).wr ELK_PEER_CAP p cap

/-- A learning lane without a rule. -/
def laneRule4 : LrnLane := { rule := 4 }

/-- A learning lane with every register at an end of its range. -/
def laneFull : LrnLane :=
  { rule := 3, pc := 15, w := 127, e := -128, dl := 64, tt := 32767, x := 255, y := 7, m := -32768, p := true, pre := true, oldD := 64, maxD := 63, done := false }

/-- Sixteen learning lanes, the last of them full. -/
def lanesFull : List LrnLane := List.replicate 15 laneRule4 ++ [laneFull]

/-- A sweep with a word in flight. -/
def sweepWord : Sweep :=
  { ctx := 7, epoch := 9, since := 0, eng := some 8, engines := [], mods := [0, 0, 0, 0], word := some (32000, lanesFull) }

/-- The last tile's sweep runs a lane whose next rule word is given. -/
def learns (b : Dev) (op : LrnOp) : Dev := (b.setTum 31 { b.tum 31 with sweep := some sweepWord }).st (ruleAddr 31 7 3 15) 4
  (LrnOp.encode op)

/-- A sweep at a row. -/
def sweepRow : Sweep :=
  { ctx := 7, epoch := 9, since := 0, eng := some 8, engines := [], mods := [0, 0, 0, 0], row := some (8191, 1) }

/-- A row's descriptor with a length. -/
def rowDesc (n : Nat) : Nat := 2 ^ 95 + 7 * 2 ^ 91 + 31 * 2 ^ 83 + 100 * 2 ^ 45 + n * 2 ^ 31

/-- The last tile sweeps. -/
def sweeping (b : Dev) (sw : Sweep) : Dev := b.setTum 31 { b.tum 31 with sweep := some sw }

/-- A learning lane that has ended. -/
def laneDone : LrnLane := { laneFull with done := true }

/-- Sixteen learning lanes that have ended. -/
def lanesDone : List LrnLane := laneDone :: (List.replicate 14 { rule := 4 }) ++ [laneDone]

/-- A sweep whose word's lanes have ended. -/
def sweepDone : Sweep := { sweepRow with word := some (32000, lanesDone) }

/-- A sweep with no engine left, of the last epoch. -/
def sweepEmpty : Sweep := { ctx := 7, epoch := 4294967295, since := 0, engines := [], mods := [0, 0, 0, 0] }

/-- A context's epochs of four ticks. -/
def epochOfFour : TumCtx := { len := 4, base := 0 }

/-- A modulator event. -/
def modEvent : Delivered := ⟨evWord 3 0 0xFFFFFFFF 0x8000, 7, 1, 0, 0⟩

/-- A description of one population. -/
def descGood : List Byte := mkDesc 1 (popRec 9 0x100 5)

/-- A description whose population's key is not a multiple of its size. -/
def descBadKey : List Byte := mkDesc 1 (popRec 9 0x101 5)

/-- LOAD_DESCRIPTION of 64 bytes for context 7. -/
def loadCmd : Cmd := cmd 0x10 7 (leBytes 8 0x1000 ++ leBytes 4 64)

/-- A PROJ record. -/
def projRecord : List Byte := mkRec 2 3 (leBytes 2 9 ++ leBytes 2 10 ++ [4, 0, 0, 0] ++ leBytes 8 0 ++ leBytes 4 0 ++ [1, 5, 5, 1,
  3, 3] ++ leBytes 2 0xFFFF ++ leBytes 2 0xFFFF ++ leBytes 10 0)

/-- A FLOW record. -/
def flowRecord : List Byte := mkRec 8 2 (leBytes 2 9 ++ [4, 2, 1, 0, 0, 0])

/-- A description of two populations, a projection and a flow. -/
def descFour : List Byte := mkDesc 4 (popRec 9 0x100 3 ++ popRec 10 0x200 2 ++ projRecord ++ flowRecord)

/-- A block in the first tile. -/
def blockA : Block :=
  { pop := 9, first := 0, size := 3, tile := 7, eng := 8, desc := 63, base := 8160, slotBase := 262016, routine := 0, dtab := [0, 0, 0, 0] }

/-- A block in the last tile. -/
def blockB : Block :=
  { pop := 10, first := 0, size := 2, tile := 31, eng := 1, desc := 0, base := 0, slotBase := 0, routine := 0, dtab := [0, 0, 0, 15] }

/-- PLACE of context 7. -/
def placeCmd : Cmd := cmd 0x11 7 (leBytes 2 0)

/-- PLACE of a description of four records. -/
def placeTwo (b : Dev) : Dev :=
  { took ((((b.setF SEC_LIC 0 SEC_LIC_TILES 32).wr MID_FT_REGION 63 (MID_FT_REGION_COUNT.put (MID_FT_REGION_BASE.put 0 3576) 8)).wr MEM_CTX 7 (MEM_CTX_HOME.put (MEM_CTX_SIZE.put 0 1) 1))) placeCmd with descs := [(7, descFour)] }

/-- PIN_HINT of no tile. -/
def pinNone : Cmd := cmd 0x22 7 (leBytes 2 9 ++ leBytes 2 0 ++ leBytes 4 0)

/-- PIN_HINT of a tile beyond the licence. -/
def pinBeyond : Cmd := cmd 0x22 7 (leBytes 2 9 ++ leBytes 2 0 ++ leBytes 4 0x80000000)

/-- The record of population 9. -/
def pinRec : Rec := (recFind (({ base with descs := [(7, descFour)] } : Dev).recs 7) 1 9).getD
  { type := 0, id := 0, ix := 0, body := [] }

/-- A placed context of two blocks with a command. -/
def pinTwo (b : Dev) (x : Cmd) : Dev := { took b x with descs := [(7, descFour)], blocks := [(7, [blockA, blockB])] }.setF
  USH_STATUS 7 USH_STATUS_PLACED 1

/-- TABLE_UPDATE of entries. -/
def tableUpdateCmd (t tile first n : Nat) : Cmd := cmd 0x28 7 (leBytes 8 0x1000 ++ leBytes 1 t ++ leBytes 1 tile ++ leBytes 2
  first ++ leBytes 2 n)

/-- TABLE_SWITCH of context 7. -/
def tableSwitchCmd : Cmd := cmd 0x29 7 []

/-- A migration whose block is to be copied. -/
def migrOpen : Migr :=
  { ctx := 7, src := blockB, dst := { blockB with tile := 30, eng := 8 }, plan := { blocks := [{ blockB with tile := 30, eng := 8 }] }, step := 2 }

/-- An open migration whose copy is done. -/
def copyDone (b : Dev) : Dev := { b with migrs := [migrOpen], blocks := [(7, [blockB])], descs := [(7, [0])] }.setGen 7
  { running := true } |>.setF CLP_INTERM_MAX 7 CLP_INTERM_MAX_INTERM_MAX 100

/-- A promotion of the last row. -/
def rowMove : RowMove := { tile := 31, eng := 8, index := 8191, addr := 32700 }

/-- A migration whose block is copied. -/
def migrCopied : Migr :=
  { ctx := 7, src := blockB, dst := { blockB with tile := 30, eng := 8 }, plan := { blocks := [{ blockB with tile := 30, eng := 8 }] }, step := 2, copied := true }

/-- Intermissions of context 7 may take 100 cycles. -/
def intermLimit (b : Dev) : Dev := b.setF CLP_INTERM_MAX 7 CLP_INTERM_MAX_INTERM_MAX 100

/-- The features of learning are licensed. -/
def learnLicensed (b : Dev) : Dev := (intermLimit b).setF SEC_LIC 0 SEC_LIC_FEATURES 4

/-- A fan-out entry for one key. -/
def fanEntry : Nat := 0x100 * 2 ^ 96 + 2 ^ 95 + 24 * 2 ^ 89 + 2 ^ 87 + 0x80000001 * 2 ^ 32

/-- A fan-out entry in a version of the last tile's table. -/
def fanTable (b : Dev) (v : Nat) (e : Nat) : Dev := (((b.wr MID_FT_REGION 255 (MID_FT_REGION_COUNT.put (MID_FT_REGION_BASE.put 0
  4095) 1)).setF MID_VER_SEL 31 MID_VER_SEL_VER (v * 128)).st (ftAddr 31 v 4095) 16 e).setRouter 31 {}

/-- An emitted event. -/
def emitted : Emitted := ⟨evWord 1 0xFFF 0x1FF 0xFFFF, 7, false⟩

/-- An event that came in at the gateway. -/
def inbound : Inbound := ⟨evWord 1 0xFFF 0x1FF 0xFFFF, 7, 1, 1, 0⟩

/-- The last tile's router. -/
def routerAt (b : Dev) (r : Router) : Dev := b.setRouter 31 r

/-- A flit of a class, mask and auxiliary field. -/
def flit (cls : Nat) (mask aux : Nat) : Flit := { hdr := hdrOf cls 1 1 3 0 7 mask aux, words := [evWord 1 7 0x55 3] }

/-- A flit of a modulator event. -/
def flitModulator : Flit := { hdr := hdrOf 1 1 1 3 0 7 1 0, words := [evWord 3 7 0x55 0xFFFF] }

/-- One fan-out entry of context 7, selected in a version. -/
def fanRegion (b : Dev) (ver st : Nat) : Dev := (((b.wr MID_FT_SEL 31 (MID_FT_SEL_INDEX.put (MID_FT_SEL_VERSION.put 0 ver)
  4095)).wr MID_FT_REGION 255 (MID_FT_REGION_COUNT.put (MID_FT_REGION_BASE.put 0 4095) 1)).setF MID_VER_SEL 31 MID_VER_SEL_VER
  0).setF MID_VER_STATUS 31 MID_VER_STATUS_DRAINED st

/-- The chip's ports are licensed, port 5 in a state. -/
def port5 (b : Dev) (state : Nat) (x : PortSt) : Dev := ((((b.wr ELK_STATUS 5 0).setF ELK_STATUS 5 ELK_STATUS_STATE state).setF
  SEC_LIC 0 SEC_LIC_PORTS 6).setF ELK_CTRL 5 ELK_CTRL_EN 1).setPort 5 x

/-- One flit to send. -/
def txItem : TxItem := ⟨[flit 1 1 0], []⟩

/-- A port with queues and stored slots in use. -/
def portBusy : PortSt :=
  { trained := 3, c0 := [txItem], q := [(1, [txItem]), (2, [txItem])], stored := [⟨5, [some (flit 1 1 0), none, none, none]⟩] }

/-- A value of ELK_CTRL. -/
def elkCtrl (en re replay : Nat) : W32 := BitVec.ofNat 32 (ELK_CTRL_EN.put (ELK_CTRL_RETRAIN.put (ELK_CTRL_REPLAY_TO.put 0 replay)
  re) en).toNat

/-- The message of codeword 0 with a payload of zeros. -/
def blankMessage : List Nat := messageOf 0 (List.replicate 640 0)

/-- Its symbols. -/
def blankCodeword : List (BitVec 10) := (rsEncode blankMessage).map (BitVec.ofNat 10)

/-- A frame of four idle slots with a control word. -/
def idleFrame (c : Nat) : List Byte := let y := List.replicate 128 0 ++ leBytes 6 c; y ++ leBytes 4 (crc32c y)

/-- A frame of idle slots with the last SEQ and ACK. -/
def lastFrame : List Byte := idleFrame (4095 * 2 ^ 36 + 4095 * 2 ^ 24 + 2 ^ 5)

/-- A port that has sent NAK and waits for frame 4095. -/
def portLate : PortSt := { expect := 4095, nak := true, badRun := 10, rxBytes := lastFrame, rxPos := 44022 }

/-- One class-0 flit with its slot. -/
def slotItem : TxItem := ⟨[flit 0 1 0], [4]⟩

/-- An event word from the host. -/
def hostWord : RimWord := ⟨evWord 1 9 0x1FF 3, 7, 1, none, 0, none⟩

/-- A rim entry for one key. -/
def rimEntry : Nat := 0x100 * 2 ^ 96 + 2 ^ 95 + 24 * 2 ^ 89 + 128 * 2 ^ 69

/-- The last rim entry of context 7. -/
def rimTableOf (b : Dev) (e : Nat) : Dev :=
  { ((b.setGen 7 { running := true }).wr RIM_TAB_REGION 7 (RIM_TAB_REGION_COUNT.put (RIM_TAB_REGION_BASE.put 0 16383) 1)).setF RIM_VER_SEL 0 RIM_VER_SEL_VER 255 with rimTab := [(32767, e)] }

/-- A transport packet of a class and a byte count. -/
def packet (cls : Nat) (addr n : Nat) : Packet :=
  { hdr := hdrOf cls 0 2 0 0 7 0 1, words := [xptWord 0x7FFF 0x7FFE 0xFFFF 7 0 0, BitVec.ofNat 64 (255 * 2 ^ 56 + (n - 1) * 2 ^ 47 + addr)], data := [(List.range 32).map (fun i => BitVec.ofNat 8 (i + 1))] }

/-- The chip has the last identity. -/
def chipLast (b : Dev) : Dev := b.setF RIM_TOPO 0 RIM_TOPO_CHIP_ID 0x7FFF

/-- A flit with one hop. -/
def flitOne : Flit := { hdr := hdrOf 1 1 1 0 0 7 1 0, words := [evWord 2 7 0x55 3] }

/-- A channel with two packets not acknowledged. -/
def txOpen : XptTx := { next := 3, unacked := [(2, 0, packet 2 0 32), (0xFFFF, 2, packet 3 0 1)] }

/-- A packet of the message queues. -/
def packetQueue : Packet := { packet 3 0 1 with words := [xptWord 0x7FFF 0x7FFE 0xFFFF 7 0 0, BitVec.ofNat 64 (1 * 2 ^ 38)] }

/-- An acknowledgement. -/
def packetAck : Packet :=
  { hdr := hdrOf 2 0 3 0 0 7 0 0, words := [xptWord 0x7FFF 0x7FFE 0 7 1 0, BitVec.ofNat 64 (2 * 2 ^ 62 + 1), 5] }

/-- A fan-out region of context 7. -/
def fanOfSeven (b : Dev) : Dev := ((b.wr MID_FT_REGION 255 (MID_FT_REGION_COUNT.put (MID_FT_REGION_BASE.put 0 4095) 1)).setF
  MID_VER_SEL 31 MID_VER_SEL_VER 0).setF MID_VER_STATUS 31 MID_VER_STATUS_DRAINED 127

/-- One rim entry of context 7, selected in a version. -/
def rimRegion (b : Dev) (ver st : Nat) : Dev := ((((b.wr RIM_TAB_SEL 0 (RIM_TAB_SEL_INDEX.put (RIM_TAB_SEL_VERSION.put 0 ver)
  16383)).wr RIM_TAB_REGION 7 (RIM_TAB_REGION_COUNT.put (RIM_TAB_REGION_BASE.put 0 16383) 1)).setF RIM_VER_SEL 0 RIM_VER_SEL_VER
  0)).setF RIM_VER_STATUS 0 RIM_VER_STATUS_DRAINED st

/-- Receiver 3 and its channel 3 are enabled. -/
def csi (b : Dev) : Dev :=
  { (b.setF SNS_CSI_CTRL 3 SNS_CSI_CTRL_EN 1).wr SNS_IN_CFG 15 (SNS_IN_CFG_EN.put (SNS_IN_CFG_DT_MASK.put 0 1) 1) with csi := [(3, (2, 0))] }

/-- A header word with its check bits. -/
def csiWord (v : Nat) : W32 := BitVec.ofNat 32 (v % 2 ^ 24 + csiEcc v * 2 ^ 24 + v / 2 ^ 24 * 2 ^ 30)

/-- Channel 3 takes event words of a layout. -/
def sensorLayout (b : Dev) : Dev := ((csi b).wr SNS_LAYOUT_A 15 (SNS_LAYOUT_A_WSIZE.put (SNS_LAYOUT_A_TYPE_POS.put
  (SNS_LAYOUT_A_TYPE_W.put (SNS_LAYOUT_A_EV_TYPE.put (SNS_LAYOUT_A_TB_TYPE.put 0 8) 1) 4) 28) 1)).wr SNS_LAYOUT_B 15
  (SNS_LAYOUT_B_TB_W.put (SNS_LAYOUT_B_TB_POS.put 0 0) 28)

/-- Four bytes with their CRC. -/
def timeWord : List Byte := [1, 2, 3, 0x84] ++ leBytes 2 (crc 16 0x1021 0xFFFF 0 true true [1, 2, 3, 0x84])

/-- AER input 1 with events waiting. -/
def aerInput (b : Dev) (x : Aeri) (n : Nat) : Dev :=
  { b.wr SNS_IN_CFG 17 (SNS_IN_CFG_EN.put (SNS_IN_CFG_CTX.put 0 7) 1) with aeri := [(1, x)], swIn := [(6, List.replicate n ⟨evWord 1 0 0 0, 7, 1, none, 0, some (17, 5)⟩)] }

/-- A sensor input with all that it keeps. -/
def snsInput : SnsIn := { off := some 5, tmax := some 3, alive := true, bucket := some (3, 4) }

/-- The last injection ring. -/
def injRing (b : Dev) (en size head tail out : Nat) : Dev :=
  { (b.wr HST_INJ_CTRL 7 (HST_INJ_CTRL_EN.put (HST_INJ_CTRL_SIZE.put 0 size) en)).wr HST_INJ_PTR 7 (HST_INJ_PTR_HEAD.put (HST_INJ_PTR_TAIL.put 0 tail) head) with injOut := if out = 0 then [] else [(7, out)] }

/-- The last output ring. -/
def outRing (b : Dev) (en size : Nat) : Dev :=
  { b.wr HST_OUT_CTRL 31 (HST_OUT_CTRL_EN.put (HST_OUT_CTRL_SIZE.put 0 size) en) with outRings := [(31, { since := 3, phase := false })] }

/-- An event word with every field full. -/
def hostEvent : W64 := evWord 3 4095 0xFFFFFFFF 0xFFFF

/-- What the SMBus reads, in Hibernate. -/
def sideband (b : Dev) : Dev :=
  { b with phase := .hibernate, smbAddr := 0x7F, rails := [(3, 0xFFFF), (0, 3)], faultN := true, fw := { b.fw with version := 0xFFFFFFFF } }

/-- An alert that ends at a temperature. -/
def cooling (b : Dev) (t : Nat) : Dev := (sideband b).setF PWR_THERM_STATUS 0 PWR_THERM_STATUS_TEMP t |>.setF PWR_THERM_STATUS 0
  PWR_THERM_STATUS_ALERT 1 |>.setF PWR_THERM_CFG 0 PWR_THERM_CFG_ALERT_C 100 |>.setF PWR_THERM_CFG 0 PWR_THERM_CFG_HYST_C 0

/-- The TAP in a lifecycle state. -/
def tapAt (b : Dev) (lc : Nat) : Dev :=
  { b with lifecycle := lc, tap := { ir := 6, pins := 2, pulse := 2, boundary := [true, false], data := [true] } }

/-- The TAP of a deployed part with an unlock. -/
def debugScope (b : Dev) (v : Nat) : Dev := ((tapAt b 1).setF SEC_DBG_STATUS 0 SEC_DBG_STATUS_SCOPE v)

/-- What PERST drops. -/
def hostHeld (b : Dev) : Dev :=
  { injRing b 1 16 3 4 5 with cmds := [cmd 1 0 []], outRings := [(3, { since := 4 })], injStopped := [5], wakeN := true }

/-- A submission ring. -/
def sqAt (b : Dev) (q en size head tail : Nat) : Dev :=
  ({ b.wr HST_SQ_CTRL q (HST_SQ_CTRL_EN.put (HST_SQ_CTRL_SIZE.put 0 size) en) with phase := .ready, pcie := {}, cmds := [], sqStopped := [] }).wr
  HST_SQ_PTR q (HST_SQ_PTR_HEAD.put (HST_SQ_PTR_TAIL.put 0 tail) head)

/-- A completion ring. -/
def cqAt (b : Dev) (q en size head tail : Nat) : Dev :=
  { b.wr HST_CQ_CTRL q (HST_CQ_CTRL_EN.put (HST_CQ_CTRL_SIZE.put 0 size) en) with phase := .ready, pcie := {}, cqStopped := [] }.wr
  HST_CQ_PTR q (HST_CQ_PTR_HEAD.put (HST_CQ_PTR_TAIL.put 0 tail) head)

/-- A write of a submission tail. -/
def sqTail (n : Nat) : W32 := BitVec.ofNat 32 (HST_SQ_PTR_TAIL.put 0 n).toNat

/-- A write of a completion head. -/
def cqHead (n : Nat) : W32 := BitVec.ofNat 32 (HST_CQ_PTR_HEAD.put 0 n).toNat

/-- A submission ring with a command, and its completion ring. -/
def sqReady (b : Dev) : Dev := (cqAt ((sqAt b 23 1 4 15 0).setF HST_SQ_CTRL 23 HST_SQ_CTRL_CQ 1) 23 1 12 0 0).setF HST_SQ_STATUS
  23 HST_SQ_STATUS_OUTSTANDING 0

/-- A command packet with its checksum off by some. -/
def packetOf (op flags ctx alive : Nat) (params : List Byte) (sum : Nat) : List Byte :=
  let p := (leBytes 1 op ++ leBytes 1 flags ++ leBytes 2 7 ++ leBytes 1 ctx ++ leBytes 1 alive ++ leBytes 2 params.length ++
    params ++ List.replicate 60 0).take 60
  p ++ leBytes 4 (crc32c p + sum)

/-- A command that has ended. -/
def cmdEnded : Cmd :=
  { cmd 0x30 7 [1] with sq := 23, cq := 23, stage := 2, status := 0x0301, detail := 0x0101, result := [1, 2, 3], cid := 0xFFFF, head := 3 }

/-- A completion ring with an ended command. -/
def recordsReady (b : Dev) : Dev :=
  { cqAt b 23 1 12 0 4094 with cmds := [{ cmdEnded with sq := 5, id := 9 }, cmdEnded, { cmdEnded with id := 6, stage := 0 }], cqs := [(23, { phase := false, since := 3 })] }.setF
  PWR_STATUS 0 PWR_STATUS_STATE 0

/-- A message of 64 bytes in queue 15 of the Ringmaster. -/
def msgWaiting (b : Dev) : Dev := (({ b with cmds := [], phase := .ready, mqs := [] }.wr MQ_CFG 15 (MQ_CFG_SIZE.put 0 1)).mqPlace
  0 15 (64 * 2 ^ 40 + 15 * 2 ^ 28 + 0x3F * 2 ^ 22 + 0x7FFF) (packetOf 0 0 0xFF 0 [] 3)).getD b

/-- A command from another device waits in queue 15. -/
def goodRemote (b : Dev) : Dev := (({ b with cmds := [], remoteAlive := [], phase := .ready, mqs := [] }.wr MQ_CFG 15
  (MQ_CFG_SIZE.put 0 1)).mqPlace 0 15 (64 * 2 ^ 40 + 15 * 2 ^ 28 + 0x3F * 2 ^ 22 + 0x7FFF) (packetOf 0 0 0xFF 9 [] 0)).getD b

/-- What is read from it. -/
def goodRemoteRead (b : Dev) : Nat × List Byte × Dev := ((goodRemote b).popMessage 0 15).getD (0, [], b)

/-- That message and the device without it. -/
def msgPopped (b : Dev) : Nat × List Byte × Dev := ((msgWaiting b).popMessage 0 15).getD (0, [], b)

/-- A taken command in Run. -/
def held (b : Dev) (x : Cmd) : Dev := { took b x with phase := .ready }.setF PWR_STATUS 0 PWR_STATUS_STATE 0

/-- NOP. -/
def nopCmd : Cmd := cmd 0 0xFF []

/-- IDENTIFY. -/
def identifyCmd : Cmd := cmd 1 0xFF []

/-- READ_REGISTER. -/
def readRegCmd (n off : Nat) : Cmd := cmd 2 0xFF (leBytes 8 off ++ leBytes 1 n)

/-- WRITE_REGISTER. -/
def writeRegCmd (n off v : Nat) : Cmd := cmd 3 0xFF (leBytes 8 off ++ leBytes 8 n ++ leBytes 8 v)

/-- READ_COUNTERS. -/
def readCountersCmd (n off fl : Nat) : Cmd := cmd 4 0xFF (leBytes 8 0x1000 ++ leBytes 4 off ++ leBytes 2 n ++ leBytes 1 fl)

/-- A taken command of context 7. -/
def heldOf7 (b : Dev) (x : Cmd) (g : Gen) : Dev := ((held b x).setF SEC_CTX_STATUS 7 SEC_CTX_STATUS_CONFIDENTIAL 0).setGen 7 g

/-- PLACED of context 7. -/
def placed7 (b : Dev) (n : Nat) : Dev := b.setF USH_STATUS 7 USH_STATUS_PLACED n

/-- START_CONTEXT. -/
def startCmd : Cmd := cmd 0x12 7 []

/-- STOP_CONTEXT. -/
def stopCmd : Cmd := cmd 0x13 7 []

/-- SET_TICK_PERIOD. -/
def tickPeriodCmd (n fl : Nat) : Cmd := cmd 0x14 7 (leBytes 4 n ++ leBytes 4 0xFFFFFFFF ++ leBytes 1 fl)

/-- STEP_TICKS. -/
def stepCmd (n : Nat) : Cmd := cmd 0x15 7 (leBytes 2 n)

/-- The period of context 7. -/
def period7 (b : Dev) (n : Nat) : Dev := b.setF CLP_PERIOD 7 CLP_PERIOD_PERIOD n

/-- SNAPSHOT. -/
def snapshotCmd (part len : Nat) : Cmd := cmd 0x16 7 (leBytes 8 0x1000 ++ leBytes 8 0 ++ leBytes 8 len ++ leBytes 1 part)

/-- RESTORE. -/
def restoreCmd (part fl : Nat) : Cmd := cmd 0x17 7 (leBytes 8 0x1000 ++ leBytes 8 0 ++ leBytes 8 64 ++ leBytes 1 part ++ leBytes 1
  fl)

/-- INJECT. -/
def injectCmd (n : Nat) : Cmd := cmd 0x18 7 (leBytes 8 0x1000 ++ leBytes 4 n)

/-- ATTACH_OUTPUT. -/
def attachOutputCmd (ring size en addr : Nat) : Cmd := cmd 0x19 7 (leBytes 1 ring ++ leBytes 1 size ++ leBytes 1 en ++ leBytes 5 0
  ++ leBytes 8 addr)

/-- LEARN_CONFIG. -/
def learnConfigCmd (slot rule a b' : Nat) : Cmd := cmd 0x30 7 ([BitVec.ofNat 8 slot, BitVec.ofNat 8 rule, BitVec.ofNat 8 a,
  BitVec.ofNat 8 b', 0xFF, 0x80, 1, 2] ++ leBytes 8 0 ++ leBytes 4 0xFFFFFFFF ++ leBytes 4 0)

/-- The last tile holds context 7. -/
def tileHolds7 (b : Dev) : Dev := b.wr NE_POP_LO (287*64+63) (NE_POP_LO_VALID.put (NE_POP_LO_CONTEXT.put 0 7) 1)

/-- LEARN_CONFIG of a rule for the last tile. -/
def learnConfigOpen (b : Dev) (r : Nat) : Dev :=
  { (tileHolds7 (heldOf7 b (learnConfigCmd 3 r 3 0xFE) {})).setTum 31 {} with phase := .ready }

/-- EPOCH_CONTROL. -/
def epochCmd (m f : Nat) : Cmd := cmd 0x31 7 (leBytes 2 0xFFFF ++ [BitVec.ofNat 8 m, BitVec.ofNat 8 f] ++ leBytes 6 77)

/-- MQ_SEND. -/
def mqSendCmd : Cmd :=
  { cmd 0x58 0xFF (leBytes 8 (16 * 2 ^ 40 + 0x3F * 2 ^ 32 + 2 ^ 28 + 2 ^ 21 + 0x7FFF) ++ List.replicate 16 5) with sq := 0 }

/-- A taken command in Run. -/
def heldInRun (b : Dev) (x : Cmd) : Dev := { took b x with phase := .ready, rmRestart := false, dbgHalt := false }.setF PWR_STATUS
  0 PWR_STATUS_STATE 0

/-- A unit command. -/
def unitCmd (op ty t e pl a : Nat) : Cmd := cmd op 0xFF (leBytes 1 ty ++ leBytes 1 t ++ leBytes 1 e ++ leBytes 1 pl ++ leBytes 8
  a)

/-- A unit in a state, named by a taken command. -/
def unitAt (b : Dev) (x : Cmd) (st : Nat) : Dev := (heldInRun b x).moveUnit x.unitOf.1 x.unitOf.2.1 st 0

/-- A command that waits for a unit's test. -/
def testCmd (op ty t e a : Nat) : Cmd :=
  { unitCmd op ty t e 0 a with wait := .test ty (unitCmd op ty t e 0 a).unitOf.2.1, stage := 1 }

/-- SET_POWER_STATE. -/
def powerCmd (s a c : Nat) : Cmd := cmd 0x38 0xFF [BitVec.ofNat 8 s, BitVec.ofNat 8 a, BitVec.ofNat 8 c, 0]

/-- A taken command in a power state. -/
def heldInPower (b : Dev) (x : Cmd) (s : Nat) : Dev := (heldInRun b x).setF PWR_STATUS 0 PWR_STATUS_STATE s

/-- A firmware image. -/
def image : FwImage := ⟨7, 3, true, 0, 0⟩

/-- FW_STAGE. -/
def fwStageCmd (n off fl : Nat) : Cmd := cmd 0x40 0xFF (leBytes 8 0x1000 ++ leBytes 4 n ++ leBytes 4 off ++ leBytes 1 fl)

/-- Slot B in a state. -/
def slotBAt (b : Dev) (x : Cmd) (st : Nat) (i : Option FwImage) : Dev :=
  { heldInRun b x with pcie := {}, slotB := { state := st, image := i, bytes := [(0, 5), (2 ^ 24 - 4097, 1)] } }.setF GLB_BOOT 0
  GLB_BOOT_FW_SLOT 0

/-- FW_ACTIVATE. -/
def fwActivateCmd (fl : Nat) : Cmd := cmd 0x41 0xFF [BitVec.ofNat 8 fl]

/-- LICENCE_INSTALL. -/
def licenceCmd (n : Nat) : Cmd := cmd 0x48 0xFF (leBytes 8 0x1000 ++ leBytes 4 n)

/-- ATTEST. -/
def attestCmd (a : Nat) : Cmd := cmd 0x49 0xFF (List.replicate 32 7 ++ leBytes 8 a)

/-- CAL_READ. -/
def calReadCmd : Cmd := cmd 0x4A 0xFF (leBytes 8 0x1000)

/-- CAL_WRITE. -/
def calWriteCmd : Cmd := cmd 0x4B 0xFF (leBytes 8 0x1000 ++ leBytes 4 1164)

/-- A calibration set with its checksum off by some. -/
def calSet (x : Nat) : List Byte := let y := leBytes 4 0x4C41435A ++ leBytes 2 1 ++ leBytes 2 1164 ++ List.replicate 1152 3; y ++
  leBytes 4 (crc32c y + x)

/-- RECORDER_READ. -/
def recorderReadCmd : Cmd := cmd 0x50 0xFF (leBytes 8 0x1000 ++ leBytes 2 0 ++ leBytes 2 0)

/-- RECORDER_CLEAR. -/
def recorderClearCmd : Cmd := cmd 0x51 0xFF []

/-- A message header. -/
def msgHeader (len dst dq ret : Nat) : Nat := len * 2 ^ 40 + dst * 2 ^ 32 + dq * 2 ^ 28 + 0x30 * 2 ^ 22 + ret * 2 ^ 21 + 0x7FFF

/-- A packet that carries a message. -/
def msgPacket (h : Nat) : Packet := { hdr := hdrOf 3 0 2 0 0 7 0 0, words := [xptWord 0 0x7FFE 3 0 0 0, BitVec.ofNat 64 h] }

/-- A message queue of an agent. -/
def mqAt (b : Dev) (a q size : Nat) (r : Ring) : Dev :=
  { (b.wr MQ_CFG (mqIx a q) (MQ_CFG_SIZE.put 0 size)).setF RIM_TOPO 0 RIM_TOPO_CHIP_ID 0 with phase := .ready, mqs := [(mqIx a q, r)], staged := [] }

/-- A staged message. -/
def stagedMsg (q cmd : Nat) : Staged := ⟨q, msgHeader 0 0x37 q 0, [], 0x7FFE, cmd⟩

/-- Staged messages of the last virtual function. -/
def stagedAt (b : Dev) (l : List Staged) : Dev := { mqAt b 0x37 1 1 { tail := 0, words := 127 } with staged := [(0x37, l)] }

/-- Two staged messages. -/
def stagedTwo (b : Dev) (t w : Nat) : Dev :=
  { mqAt b 0x37 1 1 { tail := t, words := w } with staged := [(0x37, [stagedMsg 2 0, stagedMsg 1 0])] }

/-- A value of MQ_CFG. -/
def mqCfg (n base : Nat) : W32 := BitVec.ofNat 32 (MQ_CFG_SIZE.put (MQ_CFG_BASE.put 0 base) n).toNat

/-- A block in an engine. -/
def blockAt (t e : Nat) : Block :=
  { pop := 9, first := 0, size := 3, tile := t, eng := e, desc := 63, base := 8160, slotBase := 262016, routine := 0, dtab := [0, 0, 0, 0] }

/-- Context 7 runs in two engines. -/
def twoBlocks (b : Dev) : Dev := { b.setGen 7 { running := true } with blocks := [(7, [blockAt 30 8, blockAt 31 8])] }

/-- An engine with work everywhere. -/
def engineBusy : Engine :=
  { phase := some (7, 5), line := some line0, qO := [⟨5, 7, 1, 0, 3⟩], qX := [⟨5, 7, 0, 0, 4⟩], startQ := [(7, 5)] }

/-- Taken commands in each stage. -/
def cmdsHeld : List Cmd := [cmd 0x11 7 [], { cmd 0x40 7 [] with id := 6, stage := 1 }, { cmd 0x41 7 [] with id := 7, stage := 2 },
  { cmd 0x14 7 [] with id := 8 }]

/-- A licence, a lifecycle state, and whether context 7 runs. -/
def secured (b : Dev) (lic lc : Nat) (r : Bool) : Dev :=
  { (b.setF SEC_LIC 0 SEC_LIC_FEATURES lic).setGen 7 { running := r } with lifecycle := lc }

/-- An unlocked part. -/
def debugAt (b : Dev) (sc : Nat) : Dev :=
  { (List.range 8).foldl (fun d k => d.setF SEC_CTX_STATUS k SEC_CTX_STATUS_CONFIDENTIAL 0) b |>.setF SEC_DBG_STATUS 0 SEC_DBG_STATUS_SCOPE sc with lifecycle := 1, poison := [] }

/-- A parked job for a row. -/
def parkedAt (l : Nat) : Parked :=
  { ev := ⟨evWord 1 5 0x100 3, 7, 1, 0, 4⟩, express := false, job := { desc := BitVec.ofNat 128 (2 ^ 95 + 7 * 2 ^ 91 + 2 ^ 88 + l * 2 ^ 45 + 17 * 2 ^ 31), index := 8191 } }

/-- A device that wakes or restarts. -/
def waking (b : Dev) (ph : BootPhase) : Dev :=
  { b.setGen 7 { running := true } with phase := ph, savedTime := 2 ^ 40 + 5, cmds := [cmd 0 0 []] }

/-- A message in queue 14 while the device recovers. -/
def bootMsg (b : Dev) : Dev := (({ b with cmds := [], phase := .recovery, mqs := [] }.wr MQ_CFG 14 (MQ_CFG_SIZE.put 0 1)).mqPlace
  0 14 (16 * 2 ^ 40 + 14 * 2 ^ 28 + 0x7FFF) (List.replicate 16 3)).getD b

/-- That message and the device without it. -/
def bootMsgPopped (b : Dev) : Nat × List Byte × Dev := ((bootMsg b).popMessage 0 14).getD (0, [], b)

/-- A net boot with one neighbour left. -/
def netBoot : NetBoot := { left := [5], asked := some default }

/-- Timer 7. -/
def timerAt (b : Dev) (en one per cnt cmp : Nat) : Dev :=
  { ((((b.setF TMR_CTRL 7 TMR_CTRL_EN en).setF TMR_CTRL 7 TMR_CTRL_ONESHOT one).setF TMR_PERIOD 7 TMR_PERIOD_PERIOD per).setF TMR_COUNT 7 TMR_COUNT_COUNT cnt).setF TMR_CMP 7 TMR_CMP_CMP cmp |>.setF PWR_WAKE_EN 0 PWR_WAKE_EN_EN 0 with phase := .ready, tmr := [] }

/-- Every timer off. -/
def timersOff (b : Dev) : Dev := (List.range 8).foldl (fun d k => d.setF TMR_CTRL k TMR_CTRL_EN 0) b

/-- A record of a code. -/
def record (n : Nat) : BrkRec := ⟨n, 1, 0, 0, 0, 0, 0, 0⟩

/-- The recorder with records. -/
def recorderAt (b : Dev) (r : Bool) (log st : List BrkRec) : Dev :=
  { b.setF BRK_STATUS 0 BRK_STATUS_FULL 0 with rmRestart := r, phase := .ready, barker := { log := log, staged := st } }

/-- An unlock near its end. -/
def secondAt (b : Dev) (n sc ex : Nat) : Dev := ({ b with phase := .ready }.wr BRK_OPTIME 0 (BRK_OPTIME_SECONDS.put 0 n)).wr
  SEC_DBG_STATUS 0 (SEC_DBG_STATUS_SCOPE.put (SEC_DBG_STATUS_EXPIRES.put 0 ex) sc)

/-- Headcount with a dump. -/
def headcountAt (b : Dev) (en : Nat) (dump : Option (Nat × Nat)) : Dev :=
  { b.setF HC_CTRL 0 HC_CTRL_EN en with hcDump := dump, snsLoss := [(3, 4)], hcRst := [5, 6] }

/-- A selected chain. -/
def chainSel (b : Dev) : Dev := b.wr HC_CHAIN_SEL 0 (HC_CHAIN_SEL_KIND.put (HC_CHAIN_SEL_ARRAY.put 0 0) 1)

/-- A mirrored word. -/
def mirror (n : Nat) : Mirror := ⟨evWord 1 5 6 7, 2 ^ 48 - 1 - n, 3, 31⟩

/-- A value of MEM_CTX. -/
def memCtx (base size home : Nat) : W64 := MEM_CTX_BASE.put (MEM_CTX_SIZE.put (MEM_CTX_HOME.put 0 home) size) base

/-- No context holds memory. -/
def memOpen (b : Dev) (p : Nat) : Dev := ((List.range 8).foldl (fun d k => d.wr MEM_CTX k 0) b).setF USH_STATUS 7
  USH_STATUS_PLACED p

/-- The flash busy or not. -/
def flashAt (b : Dev) (n : Nat) : Dev := b.setF MEM_FLASH_STATUS 0 MEM_FLASH_STATUS_BUSY n

/-- A value of MEM_FLASH_CTRL. -/
def flashErase (n : Nat) : W32 := BitVec.ofNat 32 (MEM_FLASH_CTRL_ERASE.put (MEM_FLASH_CTRL_SECTOR.put 0 n) 1).toNat

/-- Aperture 2 at a base. -/
def apertureAt (b : Dev) (base : Nat) : Dev :=
  { (List.range 8).foldl (fun d k => d.setF SEC_CTX_STATUS k SEC_CTX_STATUS_CONFIDENTIAL 0) b |>.setF MEM_APER 2 MEM_APER_BASE base with pcie := {}, poison := [] }

/-- Thermal limits. -/
def thermalAt (b : Dev) (al tr : Nat) (reads : Nat) : Dev :=
  { (b.setF PWR_THERM_CFG 0 PWR_THERM_CFG_ALERT_C al).setF PWR_THERM_CFG 0 PWR_THERM_CFG_TRIP_C tr with phase := .ready, tripReads := reads, trims := List.replicate 1160 0 }

/-- A temperature under its limit. -/
def coolAt (b : Dev) (t h : Nat) : Dev := ((b.setF PWR_THERM_CFG 0 PWR_THERM_CFG_ALERT_C 100).setF PWR_THERM_CFG 0
  PWR_THERM_CFG_HYST_C h).setF PWR_THERM_STATUS 0 PWR_THERM_STATUS_TEMP t

/-- The host's link is up and no context is confidential. -/
def linkUp (b : Dev) : Dev :=
  { (List.range 8).foldl (fun d k => d.setF SEC_CTX_STATUS k SEC_CTX_STATUS_CONFIDENTIAL 0) b with pcie := {} }

/-- A latch held. -/
def latchesAt (b : Dev) (l : List Latch) : Dev := { (linkUp b).wr HC_SEQ 0 0xFEDCBA9876543210 with latches := l }

/-! ## Witnesses that are not evaluated whole -/

/-- A value read from an option is the option's. -/
theorem some_getD {α : Type} {o : Option α} (x : α) (h : o.isSome = true) : o = some (o.getD x) := by
  cases o <;> simp_all

/-- PLACE of a description without records. -/
def placeNone : Dev := { took (base.setF SEC_LIC 0 SEC_LIC_TILES 32) placeCmd with descs := [(7, [0])] }

/-- A stopped context whose description has no records, with a flow. -/
def rebuildNone : Dev :=
  let f : Flow := { pop := 9, key := 0x100, keys := 3, id := 57346, slots := 4, first := 0, bound := 64, tol := false,
                    rate := 1, burst := 1, crosses := false }
  { base with descs := [(7, [0])], flows := [(7, [f])] }

/-- PLACE places a description without records. -/
theorem place_witness :
    (∃ (id : Nat) (x : Cmd) (p : Plan) (s : State) (fs : List Flow) (d' : Dev), ReadyCtx s.dev id 17 x ∧ s.dev.flag SEC_CTX_STATUS
    x.ctx SEC_CTX_STATUS_SCRUBBING = false ∧ (s.dev.gen x.ctx).running = false ∧ Tab.get [] s.dev.descs x.ctx ≠ [] ∧ Awake s.dev ∧
    (s.dev.started id).tablesFree x.ctx = true ∧ (s.dev.started id).planFault x.ctx ((s.dev.started id).roleOf (x.p 0 2))
    (s.dev.recs x.ctx) p = none ∧ ((s.dev.started id).placed x.ctx (s.dev.recs x.ctx) p).committed.placedFault x.ctx (fun t => 1 -
    (s.dev.started id).midVer t x.ctx) (1 - (s.dev.started id).rimVer x.ctx) (s.dev.recs x.ctx) p = none ∧ (s.dev.started
    id).usherMade ((s.dev.started id).placed x.ctx (s.dev.recs x.ctx) p).committed x.ctx (s.dev.recs x.ctx) p = true ∧
    ((s.dev.started id).placed x.ctx (s.dev.recs x.ctx) p).scheduleCtx x.ctx (s.dev.recs x.ctx) p.blocks = (Sum.inr fs, d')) := by
  have hr : (st placeNone).dev.recs placeCmd.ctx = [] := by decide +kernel
  have h : ReadyCtx (st placeNone).dev 5 17 placeCmd ∧ (st placeNone).dev.flag SEC_CTX_STATUS placeCmd.ctx SEC_CTX_STATUS_SCRUBBING = false
      ∧ ((st placeNone).dev.gen placeCmd.ctx).running = false ∧ Tab.get [] (st placeNone).dev.descs placeCmd.ctx ≠ []
      ∧ Awake (st placeNone).dev ∧ ((st placeNone).dev.started 5).tablesFree placeCmd.ctx = true
      ∧ ((st placeNone).dev.started 5).planFault placeCmd.ctx (((st placeNone).dev.started 5).roleOf (placeCmd.p 0 2)) [] {} = none := by
    unfold ReadyCtx Awake Ready
    decide +kernel
  have f : Tab.set [] ((st placeNone).dev.started 5).flowsOf placeCmd.ctx [] = [] := by decide +kernel
  have g : ∀ d' : Dev, d'.flowsOf = Tab.set [] ((st placeNone).dev.started 5).flowsOf placeCmd.ctx [] →
      d'.scheduleCtx placeCmd.ctx [] [] = (.inr [], d') :=
    fun d' e => Dev.scheduleCtx_empty d' _ (Dev.flowFault_none d' _ (e.trans f))
  refine ⟨5, placeCmd, {}, st placeNone, [], ((st placeNone).dev.started 5).placed placeCmd.ctx [] {}, ?_⟩
  rw [hr]
  exact ⟨h.1, h.2.1, h.2.2.1, h.2.2.2.1, h.2.2.2.2.1, h.2.2.2.2.2.1, h.2.2.2.2.2.2,
    Dev.placedFault_empty (((st placeNone).dev.started 5).placed placeCmd.ctx [] {}).committed _ _ _,
    Dev.usherMade_empty ((st placeNone).dev.started 5) (((st placeNone).dev.started 5).placed placeCmd.ctx [] {}).committed _,
    g _ (Dev.placed_flows _ _ _)⟩

/-- A background copy ends. -/
theorem copy_witness :
    (∃ (c : Ctx) (est : Nat) (s : State) (m : Migr) (d' : Dev), List.find? (fun m => m.ctx == c.val && m.step == 2) s.dev.migrs =
    some m ∧ m.copied = false ∧ m.crosses = false ∧ s.dev.tablesFree c.val = true ∧ s.dev.backgroundCopied m = some d' ∧ (d'.gen
    c.val).running = true ∧ 0 < d'.fld CLP_INTERM_MAX c.val CLP_INTERM_MAX_INTERM_MAX ∧ est ≤ d'.fld CLP_INTERM_MAX c.val
    CLP_INTERM_MAX_INTERM_MAX ∧ (d'.gen c.val).interReq = [] ∧ d'.sweepInter c.val (d'.tickOf c.val) = false) := by
  have h : (copyDone base).migrs.find? (fun m => m.ctx == 7 && m.step == 2) = some migrOpen ∧ migrOpen.copied = false
      ∧ migrOpen.crosses = false ∧ (copyDone base).tablesFree 7 = true ∧ ((copyDone base).backgroundCopied migrOpen).isSome = true := by
    decide +kernel
  have g : ∀ x, x = ((copyDone base).backgroundCopied migrOpen).getD base → (x.gen 7).running = true
      ∧ 0 < x.fld CLP_INTERM_MAX 7 CLP_INTERM_MAX_INTERM_MAX ∧ 100 ≤ x.fld CLP_INTERM_MAX 7 CLP_INTERM_MAX_INTERM_MAX
      ∧ (x.gen 7).interReq = [] ∧ x.sweepInter 7 (x.tickOf 7) = false := by
    rintro x rfl
    decide +kernel
  have g := g _ rfl
  exact ⟨7, 100, st (copyDone base), migrOpen, ((copyDone base).backgroundCopied migrOpen).getD base, h.1, h.2.1, h.2.2.1, h.2.2.2.1,
    some_getD base h.2.2.2.2, g.1, g.2.1, g.2.2.1, g.2.2.2.1, g.2.2.2.2⟩

/-- A schedule is rebuilt with no flow in it. -/
theorem rebuild_witness :
    (∃ (c : Ctx) (s : State) (fs : List Flow) (d' : Dev), Tab.get [] s.dev.flows c.val ≠ [] ∧ s.dev.tablesFree c.val = true ∧
    (s.dev.gen c.val).running = false ∧ ((s.dev.copyTables c.val).clearFlows c.val fun t => 1 - s.dev.midVer t c.val).admitAll
    c.val (s.dev.recs c.val) (Tab.get [] s.dev.blocks c.val) (flowOrder (s.dev.recs c.val)) [] = (fs, d') ∧ (∀ (f : Flow), f ∈ fs
    → ∀ (y : Nat × Nat), y ∈ f.pols → y.fst < 32 ∧ y.snd < 16)) := by
  have hr : (st rebuildNone).dev.recs 7 = [] := by decide +kernel
  have h : Tab.get [] (st rebuildNone).dev.flows 7 ≠ [] ∧ (st rebuildNone).dev.tablesFree 7 = true
      ∧ ((st rebuildNone).dev.gen 7).running = false := by decide +kernel
  refine ⟨7, st rebuildNone, [], ((st rebuildNone).dev.copyTables 7).clearFlows 7 (fun t => 1 - (st rebuildNone).dev.midVer t 7),
    h.1, h.2.1, h.2.2, ?_, by simp⟩
  rw [show (7 : Ctx).val = 7 from rfl, hr, show flowOrder [] = [] by simp [flowOrder]]
  rfl

/-- A message waits in queue 15. -/
theorem pop15_witness :
    (∃ (s : State) (h : Nat) (b : List Byte) (popped : Dev), s.dev.phase = BootPhase.ready ∧ s.dev.popMessage 0 15 = some (h, b,
    popped) ∧ b.length = 64 ∧ s.dev.cmds = [] ∧ at_ b 60 4 ≠ crc32c (List.take 60 b)) := by
  have h : (msgWaiting base).phase = .ready ∧ ((msgWaiting base).popMessage 0 15).isSome = true ∧ (msgPopped base).2.1.length = 64
      ∧ (msgWaiting base).cmds = [] ∧ at_ (msgPopped base).2.1 60 4 ≠ crc32c ((msgPopped base).2.1.take 60) := by decide +kernel
  exact ⟨st (msgWaiting base), (msgPopped base).1, (msgPopped base).2.1, (msgPopped base).2.2, h.1, some_getD (0, [], base) h.2.1, h.2.2.1,
    h.2.2.2.1, h.2.2.2.2⟩

/-- A good command from another device waits in queue 15. -/
theorem remote_witness :
    (∃ (s : State) (h : Nat) (b : List Byte) (popped : Dev), s.dev.phase = BootPhase.ready ∧ s.dev.popMessage 0 15 = some (h, b,
    popped) ∧ b.length = 64 ∧ s.dev.cmds = [] ∧ at_ b 60 4 = crc32c (List.take 60 b) ∧ s.dev.remoteAlive = [] ∧
    (popped.packetCheck
    { packetCmd s.dev.nextCmd 24 0 (if 48 ≤ mhSrc h ∧ mhSrc h ≤ 55 then some (mhSrc h - 48) else none) b with remote := some (mhChip h, mhSrc h, at_ b 56 1) }
    = none)) := by
  have h : (goodRemote base).phase = .ready ∧ ((goodRemote base).popMessage 0 15).isSome = true ∧ (goodRemoteRead base).2.1.length = 64
      ∧ (goodRemote base).cmds = [] ∧ at_ (goodRemoteRead base).2.1 60 4 = crc32c ((goodRemoteRead base).2.1.take 60)
      ∧ (goodRemote base).remoteAlive = [] := by decide +kernel
  refine ⟨st (goodRemote base), (goodRemoteRead base).1, (goodRemoteRead base).2.1, (goodRemoteRead base).2.2, h.1,
    some_getD (0, [], base) h.2.1, h.2.2.1, h.2.2.2.1, h.2.2.2.2.1, h.2.2.2.2.2, ?_⟩
  decide +kernel

/-- A message waits in queue 14. -/
theorem pop14_witness :
    (∃ (s : State) (h : Nat) (b : List Byte) (popped : Dev), s.dev.popMessage 0 14 = some (h, b, popped) ∧ popped.phase ≠
    BootPhase.ready) := by
  have h : ((bootMsg base).popMessage 0 14).isSome = true ∧ (bootMsgPopped base).2.2.phase ≠ .ready := by decide +kernel
  exact ⟨st (bootMsg base), (bootMsgPopped base).1, (bootMsgPopped base).2.1, (bootMsgPopped base).2.2, some_getD (0, [], base) h.1, h.2⟩

/-! ## Witnesses -/

/-- The hypotheses of each clause of `Obligations.LaneMicroOpsCompute` can be met. -/
theorem witness_LaneMicroOpsCompute :
    (∃ (t : Tile) (e : Eng) (dst : Fin 4) (a : Fin 8) (b : Fin 8) (k : S24) (pred : Fin 4) (s : State) (ln : Line), Issues s.dev
    t.val e.val (MicroOp.add dst a b k pred) ln)
    ∧ (∃ (t : Tile) (e : Eng) (dst : Fin 4) (a : Fin 8) (b : Fin 8) (k : S24) (pred : Fin 4) (s : State) (ln : Line), Issues s.dev
    t.val e.val (MicroOp.sub dst a b k pred) ln)
    ∧ (∃ (t : Tile) (e : Eng) (dst : Fin 4) (a : Fin 8) (k : S24) (pred : Fin 4) (s : State) (ln : Line), Issues s.dev t.val e.val
    (MicroOp.mulk dst a k pred) ln)
    ∧ (∃ (t : Tile) (e : Eng) (dst : Fin 4) (a : Fin 8) (k : S24) (pred : Fin 4) (s : State) (ln : Line), Issues s.dev t.val e.val
    (MicroOp.shr dst a k pred) ln)
    ∧ (∃ (t : Tile) (e : Eng) (dst : Fin 4) (a : Fin 8) (b : Fin 8) (k : S24) (pred : Fin 4) (s : State) (ln : Line), Issues s.dev
    t.val e.val (MicroOp.sel dst a b k pred) ln)
    ∧ (∃ (t : Tile) (e : Eng) (dst : Fin 4) (k : S24) (pred : Fin 4) (s : State) (ln : Line), Issues s.dev t.val e.val
    (MicroOp.clr dst k pred) ln)
    ∧ (∃ (t : Tile) (e : Eng) (dst : Fin 4) (pred : Fin 4) (s : State) (ln : Line), Issues s.dev t.val e.val (MicroOp.st dst pred)
    ln)
    ∧ (∃ (t : Tile) (e : Eng) (a : Fin 8) (b : Fin 8) (k : S24) (pred : Fin 4) (s : State) (ln : Line), Issues s.dev t.val e.val
    (MicroOp.cmpge a b k pred) ln)
    ∧ (∃ (t : Tile) (e : Eng) (a : Fin 8) (b : Fin 8) (k : S24) (pred : Fin 4) (s : State) (ln : Line), Issues s.dev t.val e.val
    (MicroOp.cmplt a b k pred) ln) :=
  ⟨⟨31, 8, 3, 6, 7, 0x800000, 3, st (runs base (MicroOp.encode (.add 3 6 7 0x800000 3))), line0,
  by unfold Issues; decide +kernel⟩,
   ⟨31, 8, 0, 4, 0, 0x800000, 2, st (runs base (MicroOp.encode (.sub 0 4 0 0x800000 2))), line0,
   by unfold Issues; decide +kernel⟩,
   ⟨31, 8, 2, 2, 0x008000, 1, st (runs base (MicroOp.encode (.mulk 2 2 0x008000 1))), line0, by unfold Issues; decide +kernel⟩,
   ⟨31, 8, 1, 0, 31, 0, st (runs base (MicroOp.encode (.shr 1 0 31 0))), line0, by unfold Issues; decide +kernel⟩,
   ⟨31, 8, 3, 7, 5, 0, 0, st (runs base (MicroOp.encode (.sel 3 7 5 0 0))), line0, by unfold Issues; decide +kernel⟩,
   ⟨31, 8, 3, 0xFFFFFF, 3, st (runs base (MicroOp.encode (.clr 3 0xFFFFFF 3))), line0, by unfold Issues; decide +kernel⟩,
   ⟨31, 8, 3, 3, st (runs base (MicroOp.encode (.st 3 3))), line0, by unfold Issues; decide +kernel⟩,
   ⟨31, 8, 0, 7, 0, 1, st (runs base (MicroOp.encode (.cmpge 0 7 0 1))), line0, by unfold Issues; decide +kernel⟩,
   ⟨31, 8, 2, 7, 0, 0, st (runs base (MicroOp.encode (.cmplt 2 7 0 0))), line0, by unfold Issues; decide +kernel⟩⟩

/-- The hypotheses of each clause of `Obligations.StateMicroOpsRead` can be met. -/
theorem witness_StateMicroOpsRead :
    (∃ (t : Tile) (e : Eng) (dst : Fin 4) (pred : Fin 4) (s : State) (ln : Line), Issues s.dev t.val e.val (MicroOp.ld dst pred)
    ln)
    ∧ (∃ (t : Tile) (e : Eng) (pred : Fin 4) (s : State) (ln : Line) (c : Nat) (n : Nat), Issues s.dev t.val e.val (MicroOp.slot
    pred) ln ∧ (s.dev.eng t.val e.val).phase = some (c, n) ∧ (∀ (l : Nat), l < 32 → s.dev.slotAliased t.val e.val (s.dev.pop t.val
    e.val ln.job.pop) (ln.job.line * 32 + l) n = false))
    ∧ (∃ (t : Tile) (e : Eng) (dst : Fin 4) (a : Fin 8) (k : S24) (pred : Fin 4) (s : State) (ln : Line), Issues s.dev t.val e.val
    (MicroOp.decay dst a k pred) ln)
    ∧ (∃ (t : Tile) (e : Eng) (dst : Fin 4) (a : Fin 8) (k : S24) (pred : Fin 4) (s : State) (ln : Line), Issues s.dev t.val e.val
    (MicroOp.noise dst a k pred) ln)
    ∧ (∃ (t : Tile) (e : Eng) (k : S24) (pred : Fin 4) (s : State) (ln : Line), Issues s.dev t.val e.val (MicroOp.refr k pred) ln) :=
  ⟨⟨31, 8, 3, 0, st (runs base (MicroOp.encode (.ld 3 0))), line0, by unfold Issues; decide +kernel⟩,
   ⟨31, 8, 0, st (runs base (MicroOp.encode (.slot 0))), line0, 7, 5, by unfold Issues; decide +kernel⟩,
   ⟨31, 8, 0, 0, 3, 0, st (runs base (MicroOp.encode (.decay 0 0 3 0))), line0, by unfold Issues; decide +kernel⟩,
   ⟨31, 8, 1, 0, 23, 0, st (runs base (MicroOp.encode (.noise 1 0 23 0))), line0, by unfold Issues; decide +kernel⟩,
   ⟨31, 8, 0x800000, 0, st (runs base (MicroOp.encode (.refr 0x800000 0))), line0, by unfold Issues; decide +kernel⟩⟩

/-- The hypotheses of each clause of `Obligations.EmitQueuesTheEvent` can be met. -/
theorem witness_EmitQueuesTheEvent :
    (∃ (t : Tile) (e : Eng) (a : Fin 8) (k : S24) (pred : Fin 4) (l : Fin 32) (s : State) (ln : Line) (c : Nat) (n : Nat),
    (s.dev.eng t.val e.val).phase = some (c, n) ∧ (s.dev.pop t.val e.val ln.job.pop).l NE_POP_LO_GRADED = 0 ∧ (s.dev.pop t.val
    e.val ln.job.pop).express = false ∧ (ln.lanes.getD l.val { }).emitted = false ∧ (s.dev.eng t.val e.val).emitO.length < 112 ∧
    (s.dev.tc t.val c).epoch n = none ∧ Issues s.dev t.val e.val (MicroOp.emit a k pred) ln ∧ ln.mask pred = 2 ^ l.val)
    ∧ (∃ (t : Tile) (e : Eng) (a : Fin 8) (k : S24) (pred : Fin 4) (l : Fin 32) (s : State) (ln : Line) (c : Nat) (n : Nat),
    (s.dev.eng t.val e.val).phase = some (c, n) ∧ (s.dev.pop t.val e.val ln.job.pop).l NE_POP_LO_GRADED = 0 ∧ (s.dev.pop t.val
    e.val ln.job.pop).express = false ∧ (ln.lanes.getD l.val { }).emitted = false ∧ (s.dev.eng t.val e.val).emitO.length < 112 ∧
    (s.dev.tc t.val c).epoch n = none ∧ (s.dev.eng t.val e.val).line = some ln ∧ BitVec.toNat ln.held = 2 ^ l.val ∧ microDecode
    (s.dev.lineWord t.val e.val ln) = some (MicroOp.emit a k pred)) :=
  ⟨⟨31, 8, 0, 0, 1, 0, st (runs base (MicroOp.encode (.emit 0 0 1))), line0, 7, 5, by unfold Issues; decide +kernel⟩,
   ⟨31, 8, 0, 0, 0, 31, st (eng (runs base (MicroOp.encode (.emit 0 0 0))) (fun g => { g with line := some heldLine })), heldLine,
   7, 5, by decide +kernel⟩⟩

/-- The hypotheses of each clause of `Obligations.PhasesBeginAndEnd` can be met. -/
theorem witness_PhasesBeginAndEnd :
    (∃ (t : Tile) (e : Eng) (s : State) (c : Nat) (n : Nat) (q : List (Nat × Nat)), (s.dev.eng t.val e.val).resetting = false ∧
    (s.dev.eng t.val e.val).phase = none ∧ (s.dev.eng t.val e.val).startQ = (c, n) :: q)
    ∧ (∃ (t : Tile) (e : Eng) (pred : Fin 4) (s : State) (ln : Line) (c : Nat) (n : Nat), (s.dev.eng t.val e.val).line = some ln ∧
    (s.dev.eng t.val e.val).phase = some (c, n) ∧ ln.held = 0 ∧ (s.dev.eng t.val e.val).jobs = [] ∧ microDecode (s.dev.lineWord
    t.val e.val ln) = some (MicroOp.fin pred))
    ∧ (∃ (t : Tile) (e : Eng) (s : State) (ln : Line) (c : Nat) (n : Nat), (s.dev.eng t.val e.val).line = some ln ∧ (s.dev.eng
    t.val e.val).phase = some (c, n) ∧ ln.held = 0 ∧ (s.dev.eng t.val e.val).jobs = [] ∧ microDecode (s.dev.lineWord t.val e.val
    ln) = none)
    ∧ (∃ (t : Tile) (e : Eng) (s : State) (ln : Line) (c : Nat) (n : Nat), (s.dev.eng t.val e.val).line = some ln ∧ (s.dev.eng
    t.val e.val).phase = some (c, n) ∧ ln.held = 0 ∧ (s.dev.eng t.val e.val).jobs = []) :=
  ⟨⟨31, 8, st (eng base (fun g => { g with startQ := [(7, 5)] })), 7, 5, [], by decide +kernel⟩,
   ⟨31, 8, 3, st (runs base (MicroOp.encode (.fin 3))), line0, 7, 5, by decide +kernel⟩,
   ⟨31, 8, st (runs base 0), line0, 7, 5, by decide +kernel⟩,
   ⟨31, 8, st (runs base 0), line0, 7, 5, by decide +kernel⟩⟩

/-- The hypotheses of each clause of `Obligations.EngineBookkeepingSteps` can be met. -/
theorem witness_EngineBookkeepingSteps :
    (∃ (t : Tile) (e : Eng) (s : State) (n : Nat), (s.dev.eng t.val e.val).writeback = n + 1 ∧ s.dev.chained 12 0 1 = false)
    ∧ (∃ (t : Tile) (e : Eng) (s : State) (p : PostInc) (q : List PostInc), (s.dev.eng t.val e.val).postQ = p :: q)
    ∧ (∃ (s : State) (c : Ctx), (s.dev.gen c.val).upd = false ∧ (s.dev.updateComplete c.val (s.dev.tickOf c.val) = true)) :=
  ⟨⟨31, 8, st (eng base (fun g => { g with writeback := 1 })), 0, by decide +kernel⟩,
   ⟨31, 8, st (eng base (fun g => { g with postQ := [⟨7, 5, 8191, true⟩] })), ⟨7, 5, 8191, true⟩, [], by decide +kernel⟩,
   ⟨st (base.setGen 7 { upd := false }), 7, by decide +kernel⟩⟩

/-- The hypotheses of each clause of `Obligations.DescriptorsCommitOrReject` can be met. -/
theorem witness_DescriptorsCommitOrReject :
    (∃ (t : Tile) (e : Eng) (n : Fin 64) (v : W64) (s : State), descBad
    { lo := NE_POP_LO.written (Tab.get (s.dev.popCommitted t.val e.val n.val).lo (s.dev.eng t.val e.val).popLow n.val) v (halfCover Half.whole), hi := Tab.get (s.dev.popCommitted t.val e.val n.val).hi (s.dev.eng t.val e.val).popHeld n.val }
    = false ∧ (s.dev.eng t.val e.val).phase = none ∧ (s.dev.eng t.val e.val).popEff = [])
    ∧ (∃ (t : Tile) (e : Eng) (n : Fin 64) (v : W64) (s : State), descBad
    { lo := NE_POP_LO.written (Tab.get (s.dev.popCommitted t.val e.val n.val).lo (s.dev.eng t.val e.val).popLow n.val) v (halfCover Half.whole), hi := Tab.get (s.dev.popCommitted t.val e.val n.val).hi (s.dev.eng t.val e.val).popHeld n.val }
    = true)
    ∧ (∃ (t : Tile) (e : Eng) (s : State), (s.dev.eng t.val e.val).phase = none) :=
  ⟨⟨31, 8, 63, 0, st base, by decide +kernel⟩,
   ⟨31, 8, 63, 0xFFFFFFFFFFFFFFFF, st base, by decide +kernel⟩,
   ⟨31, 8, st (eng base (fun g => { g with popEff := [(63, ⟨1, 1⟩)] })), by decide +kernel⟩⟩

/-- The hypotheses of each clause of `Obligations.DebugRecordAndRunningOrderWrites` can be met. -/
theorem witness_DebugRecordAndRunningOrderWrites :
    (∃ (t : Tile) (e : Eng) (s : State), s.dev.neuronClosed t.val e.val (s.dev.fld NE_DBG_IDX (engIx t.val e.val)
    NE_DBG_IDX_NEURON) = false ∧ (s.dev.eng t.val e.val).line = none)
    ∧ (∃ (t : Tile) (e : Eng) (s : State), s.dev.neuronClosed t.val e.val (s.dev.fld NE_DBG_IDX (engIx t.val e.val)
    NE_DBG_IDX_NEURON) = false ∧ (s.dev.eng t.val e.val).line.isSome = true)
    ∧ (∃ (t : Tile) (e : Eng) (s : State), s.dev.neuronClosed t.val e.val (s.dev.fld NE_DBG_IDX (engIx t.val e.val)
    NE_DBG_IDX_NEURON) = false)
    ∧ (∃ (t : Tile) (e : Eng) (s : State), s.dev.neuronClosed t.val e.val (s.dev.fld NE_DBG_IDX (engIx t.val e.val)
    NE_DBG_IDX_NEURON) = true)
    ∧ (∃ (t : Tile) (e : Eng) (s : State), s.dev.neuronClosed t.val e.val (s.dev.fld NE_DBG_IDX (engIx t.val e.val)
    NE_DBG_IDX_NEURON) = false ∧ (s.dev.eng t.val e.val).line = none ∧ (s.dev.eng t.val e.val).dbgDue = [] ∧ (s.dev.eng t.val
    e.val).roDue = [] ∧ (s.dev.eng t.val e.val).dbgWant = false ∧ (∀ (k : Nat), k < 16 → memMaps (recAddr t.val e.val (s.dev.fld
    NE_DBG_IDX (engIx t.val e.val) NE_DBG_IDX_NEURON) + k) = true))
    ∧ (∃ (t : Tile) (e : Eng) (w : Fin 512) (s : State), (s.dev.eng t.val e.val).line = none ∧ (s.dev.eng t.val e.val).dbgDue = []
    ∧ (s.dev.eng t.val e.val).roDue = [] ∧ (s.dev.eng t.val e.val).dbgWant = false ∧ (∀ (k : Nat), k < 8 → memMaps (engBase t.val
    e.val + 3112960 + (s.dev.fld NE_RO_BASE (engIx t.val e.val) NE_RO_BASE_PAGE * 512 + w.val) * 8 + k) = true)) :=
  ⟨⟨31, 8, st base, by decide +kernel⟩,
   ⟨31, 8, st (runs base 0), by decide +kernel⟩,
   ⟨31, 8, st base, by decide +kernel⟩,
   ⟨31, 8, st (closedNeuron base), by decide +kernel⟩,
   ⟨31, 8, st base, by decide +kernel⟩,
   ⟨31, 8, 511, st base, by decide +kernel⟩⟩

/-- The hypotheses of each clause of `Obligations.SynapsePipelineAndRegistersAct` can be met. -/
theorem witness_SynapsePipelineAndRegistersAct :
    (∃ (t : Tile) (e : Eng) (s : State) (ev : Delivered) (express : Bool) (stall : SynStall), stall.dry = false ∧ (s.dev.eng t.val
    e.val).refetch = none ∧ (s.dev.eng t.val e.val).resetting = false ∧ (s.dev.eng t.val e.val).nextTake = NextTake.event ev
    express ∧ s.dev.eventRoom t.val e.val ev = true)
    ∧ (∃ (t : Tile) (e : Eng) (s : State) (ev : Delivered) (q : List Delivered), (s.dev.eng t.val e.val).refetch = none ∧
    (s.dev.eng t.val e.val).resetting = false ∧ (s.dev.eng t.val e.val).qX = [] ∧ (s.dev.eng t.val e.val).parked = [] ∧ (s.dev.eng
    t.val e.val).qO = ev :: q ∧ s.dev.lookupRows t.val e.val (evKey ev.word) ev.ctx = [] ∧ s.dev.eventRoom t.val e.val ev = true)
    ∧ (∃ (t : Tile) (e : Eng) (s : State) (h : Gather), (s.dev.eng t.val e.val).gather = some h ∧ (s.dev.eng t.val e.val).refetch
    = none)
    ∧ (∃ (t : Tile) (e : Eng) (s : State) (h : Gather), (s.dev.eng t.val e.val).gather = some h ∧ (s.dev.eng t.val e.val).refetch
    = none ∧ (s.dev.eng t.val e.val).qX = [] ∧ (s.dev.eng t.val e.val).qO = [] ∧ (s.dev.eng t.val e.val).parked = [])
    ∧ (∃ (t : Tile) (e : Eng) (s : State) (k : Nat) (r : Parked), (s.dev.eng t.val e.val).parked[k]? = some r ∧ r.issued = true ∧
    r.landed = none ∧ (s.dev.eng t.val e.val).refetch = none ∧ (s.dev.eng t.val e.val).qX ≠ [] ∧ (∀ (g : Nat × Engine), g ∈
    s.dev.engs → ∀ (x : Parked), x ∈ g.snd.parked → x.issued = true))
    ∧ (∃ (t : Tile) (e : Eng) (s : State) (r : Refetch), (s.dev.eng t.val e.val).refetch = some r ∧ r.landed = none ∧ r.rows =
    some [] ∧ r.flush = false ∧ r.alone = false ∧ (s.dev.eng t.val e.val).projDue = [] ∧ s.dev.poisoned (s.dev.goodCopy t.val
    e.val r) 1 = none ∧ (∀ (k : Nat), k < 64 → memMaps (r.unit + k) = true))
    ∧ (∃ (t : Tile) (e : Eng) (s : State), (s.dev.eng t.val e.val).gather = none ∧ (s.dev.eng t.val e.val).refetch = none ∧
    (s.dev.eng t.val e.val).projDue = [])
    ∧ (∃ (t : Tile) (e : Eng) (s : State), (s.dev.eng t.val e.val).parked = []) :=
  ⟨⟨31, 8, st (eng base (fun g => { g with qO := [synEvent, synEvent] })), synEvent, false,
  { front := 3, smem := 32, back := 4, spill := 1, dry := false }, by decide +kernel⟩,
   ⟨31, 8, st (eng base (fun g => { g with qO := [synEvent, synEvent] })), synEvent, [synEvent], by decide +kernel⟩,
   ⟨31, 8, st (eng base (fun g => { g with gather := some gatherLast })), gatherLast, by decide +kernel⟩,
   ⟨31, 8, st (eng base (fun g => { g with gather := some gatherLast })), gatherLast, by decide +kernel⟩,
   ⟨31, 8, st (eng base (fun g => { g with parked := [parked, parked], qX := [synEvent] })), 1, parked, by decide +kernel⟩,
   ⟨31, 8, st (eng base (fun g => { g with refetch := some refetch })), refetch, by decide +kernel⟩,
   ⟨31, 8, st base, by decide +kernel⟩,
   ⟨31, 8, st base, by decide +kernel⟩⟩

/-- The hypotheses of each clause of `Obligations.TicksBecomeDueAndStart` can be met. -/
theorem witness_TicksBecomeDueAndStart :
    (∃ (c : Ctx) (now : Nat) (s : State), (s.dev.gen c.val).period ≠ 0 ∧ (s.dev.gen c.val).due = none ∧ (s.dev.gen c.val).edge +
    ((s.dev.gen c.val).period - (s.dev.gen c.val).count) ≤ now)
    ∧ (∃ (c : Ctx) (now : Nat) (s : State), (s.dev.gen c.val).stepRemain ≠ 0 ∧ (s.dev.gen c.val).due = none ∧ (s.dev.gen
    c.val).upd = true ∧ (s.dev.gen c.val).updEdge < now)
    ∧ (∃ (c : Ctx) (now : Nat) (s : State) (e : Nat), (s.dev.gen c.val).due = some e ∧ (s.dev.gen c.val).policy = 0 ∧ (s.dev.gen
    c.val).upd = true ∧ (s.dev.gen c.val).fallback = false ∧ ((s.dev.gen c.val).drained = false ∨ s.dev.tokensIn c.val
    (s.dev.tickOf c.val) = false) ∧ s.dev.interAfter c.val (s.dev.tickOf c.val) = false ∧ s.dev.fld CLP_MAXSTRETCH c.val
    CLP_MAXSTRETCH_MAXSTRETCH ≠ 4294967295 ∧ e + s.dev.fld CLP_MAXSTRETCH c.val CLP_MAXSTRETCH_MAXSTRETCH ≤ now)
    ∧ (∃ (c : Ctx) (now : Nat) (s : State), s.dev.startsAt c.val now = true) :=
  ⟨⟨7, 11, st (base.setGen 7 genBeforeDue), by decide +kernel⟩,
   ⟨7, 11, st (base.setGen 7 { running := true, stepRemain := 1, updEdge := 10 }), by decide +kernel⟩,
   ⟨7, 11, st ((base.setGen 7 { running := true, due := some 11, drained := false }).wr CLP_MAXSTRETCH 7 0), 11,
   by decide +kernel⟩,
   ⟨7, 11, st ((base.setGen 7 { genBeforeDue with due := some 11 }).wr CLP_TICK 7 0xFFFFFFFFFFFF), by decide +kernel⟩⟩

/-- The hypotheses of each clause of `Obligations.GeneratorRegistersAct` can be met. -/
theorem witness_GeneratorRegistersAct :
    (∃ (c : Ctx) (now : Nat) (s : State) (e : Nat) (p : Nat) (r : List (Nat × Nat)), (s.dev.gen c.val).periodDue = (e, p) :: r ∧ e
    ≤ now ∧ (∀ (x : Cmd), x ∈ s.dev.cmds → x.wait ≠ CmdWait.edge c.val e))
    ∧ (∃ (c : Ctx) (now : Nat) (s : State) (e : Nat) (r : List Nat), (s.dev.gen c.val).loadDue = e :: r ∧ e ≤ now ∧ (s.dev.gen
    c.val).period ≠ 0 ∧ (s.dev.gen c.val).due = none)
    ∧ (∃ (c : Ctx) (v : W32) (s : State) (p : Nat), BitVec.getLsbD v 8 = true ∧ BitVec.getLsbD v c.val = true ∧ p ≠ 0 ∧ p < 2 ^ 32
    ∧ (∀ (k : Ctx), BitVec.getLsbD v k.val = true → (s.dev.gen k.val).period = p))
    ∧ (∃ (c : Ctx) (s : State), s.dev.fld CLP_PERIOD c.val CLP_PERIOD_PERIOD = 0) :=
  ⟨⟨7, 11, st (base.setGen 7 { periodDue := [(11, 199), (12, 0)] }), 11, 199, [(12, 0)], by decide +kernel⟩,
   ⟨7, 11, st ((base.setGen 7 { period := 200, loadDue := [11] }).setGen 0 { period := 300, loadDue := [11, 12] }), 11, [],
   by decide +kernel⟩,
   ⟨7, 0x181, st ((base.setGen 7 { period := 4294967295 }).setGen 0 { period := 4294967295 }), 4294967295, by decide +kernel⟩,
   ⟨7, st (base.wr CLP_PERIOD 7 0), by decide +kernel⟩⟩

/-- The hypotheses of each clause of `Obligations.DrainMarkersAndTokens` can be met. -/
theorem witness_DrainMarkersAndTokens :
    (∃ (c : Ctx) (s : State), (s.dev.gen c.val).upd = true ∧ (s.dev.gen c.val).drained = false ∧ s.dev.flightSum c.val
    (s.dev.tickOf c.val % 2) 0 + s.dev.flightSum c.val (s.dev.tickOf c.val % 2) 1 = 0)
    ∧ (∃ (c : Ctx) (p : Port) (w : W64) (s : State), List.find? (fun x => evKind x.snd == 4) (Tab.get [] s.dev.marksIn p.val) =
    some (c.val, w) ∧ s.dev.markPort p.val = true)
    ∧ (∃ (c : Ctx) (p : Port) (w : W64) (s : State), List.find? (fun x => evKind x.snd == 5) (Tab.get [] s.dev.marksIn p.val) =
    some (c.val, w) ∧ s.dev.markPort p.val = true)
    ∧ (∃ (c : Ctx) (p : Port) (s : State), (s.dev.markPorts c.val).contains p.val = true ∧ s.dev.markPort p.val = true ∧
    (s.dev.port p.val).c0 = [] ∧ (s.dev.updComplete c.val (s.dev.tokenNext c.val p.val) = true) ∧ s.dev.boundForRim c.val
    (s.dev.tokenNext c.val p.val % 2) = false) :=
  ⟨⟨7, st (base.setGen 7 { upd := true, drained := false }), by decide +kernel⟩,
   ⟨7, 5, markerWord, st { portUp base 5 0x4000 with marksIn := [(5, [(7, markerWord), (7, markerWord)])] }, by decide +kernel⟩,
   ⟨7, 5, evWord 5 4095 0 0, st { portUp base 5 0x4000 with marksIn := [(5, [(7, markerWord), (7, evWord 5 4095 0 0)])] },
   by decide +kernel⟩,
   ⟨7, 5, st ((((portUp base 5 0x4000).wr CLP_CTRL 7 0xFFFFFFFF).wr CLP_TICK 7 0x800000000000).setGen 7
   { upd := true, tokSent := [(5, 0x7FFFFFFFFFFF)] }), by decide +kernel⟩⟩

/-- The hypotheses of each clause of `Obligations.LearningOpsCompute` can be met. -/
theorem witness_LearningOpsCompute :
    (∃ (t : Tile) (lane : Fin 16) (dst : Fin 4) (a₀ : Fin 8) (b : Fin 8) (k : BitVec 16) (pred : Fin 8) (s : State) (sw : Sweep)
    (a : Nat) (ls : List LrnLane) (l : LrnLane), Learns s.dev t.val lane.val (LrnOp.add dst a₀ b k pred) sw a ls l)
    ∧ (∃ (t : Tile) (lane : Fin 16) (dst : Fin 4) (a₀ : Fin 8) (b : Fin 8) (k : BitVec 16) (pred : Fin 8) (s : State) (sw : Sweep)
    (a : Nat) (ls : List LrnLane) (l : LrnLane), Learns s.dev t.val lane.val (LrnOp.sub dst a₀ b k pred) sw a ls l)
    ∧ (∃ (t : Tile) (lane : Fin 16) (dst : Fin 4) (a₀ : Fin 8) (b : Fin 8) (k : BitVec 16) (pred : Fin 8) (s : State) (sw : Sweep)
    (a : Nat) (ls : List LrnLane) (l : LrnLane), Learns s.dev t.val lane.val (LrnOp.mul dst a₀ b k pred) sw a ls l)
    ∧ (∃ (t : Tile) (lane : Fin 16) (dst : Fin 4) (a₀ : Fin 8) (k : BitVec 16) (pred : Fin 8) (s : State) (sw : Sweep) (a : Nat)
    (ls : List LrnLane) (l : LrnLane), Learns s.dev t.val lane.val (LrnOp.mulk dst a₀ k pred) sw a ls l)
    ∧ (∃ (t : Tile) (lane : Fin 16) (dst : Fin 4) (a₀ : Fin 8) (k : BitVec 16) (pred : Fin 8) (s : State) (sw : Sweep) (a : Nat)
    (ls : List LrnLane) (l : LrnLane), Learns s.dev t.val lane.val (LrnOp.shr dst a₀ k pred) sw a ls l)
    ∧ (∃ (t : Tile) (lane : Fin 16) (dst : Fin 4) (a₀ : Fin 8) (b : Fin 8) (k : BitVec 16) (pred : Fin 8) (s : State) (sw : Sweep)
    (a : Nat) (ls : List LrnLane) (l : LrnLane), Learns s.dev t.val lane.val (LrnOp.min dst a₀ b k pred) sw a ls l)
    ∧ (∃ (t : Tile) (lane : Fin 16) (dst : Fin 4) (a₀ : Fin 8) (b : Fin 8) (k : BitVec 16) (pred : Fin 8) (s : State) (sw : Sweep)
    (a : Nat) (ls : List LrnLane) (l : LrnLane), Learns s.dev t.val lane.val (LrnOp.max dst a₀ b k pred) sw a ls l)
    ∧ (∃ (t : Tile) (lane : Fin 16) (dst : Fin 4) (a₀ : Fin 8) (b : Fin 8) (k : BitVec 16) (pred : Fin 8) (s : State) (sw : Sweep)
    (a : Nat) (ls : List LrnLane) (l : LrnLane), Learns s.dev t.val lane.val (LrnOp.sel dst a₀ b k pred) sw a ls l)
    ∧ (∃ (t : Tile) (lane : Fin 16) (dst : Fin 4) (a₀ : Fin 8) (k : BitVec 16) (pred : Fin 8) (s : State) (sw : Sweep) (a : Nat)
    (ls : List LrnLane) (l : LrnLane), Learns s.dev t.val lane.val (LrnOp.mov dst a₀ k pred) sw a ls l)
    ∧ (∃ (t : Tile) (lane : Fin 16) (a : Fin 8) (b : Fin 8) (k : BitVec 16) (pred : Fin 8) (s : State) (sw : Sweep) (w : Nat) (ls
    : List LrnLane) (l : LrnLane), Learns s.dev t.val lane.val (LrnOp.cmpge a b k pred) sw w ls l)
    ∧ (∃ (t : Tile) (lane : Fin 16) (a : Fin 8) (b : Fin 8) (k : BitVec 16) (pred : Fin 8) (s : State) (sw : Sweep) (w : Nat) (ls
    : List LrnLane) (l : LrnLane), Learns s.dev t.val lane.val (LrnOp.cmplt a b k pred) sw w ls l)
    ∧ (∃ (t : Tile) (lane : Fin 16) (dst : Fin 4) (a : Fin 8) (k : BitVec 16) (pred : Fin 8) (s : State) (sw : Sweep) (w : Nat)
    (ls : List LrnLane) (l : LrnLane) (r : W16), Learns s.dev t.val lane.val (LrnOp.srnd dst a k pred) sw w ls l ∧ (s.dev.tum
    t.val).lfsr[lane.val]? = some r)
    ∧ (∃ (t : Tile) (lane : Fin 16) (pred : Fin 8) (s : State) (sw : Sweep) (w : Nat) (ls : List LrnLane) (l : LrnLane), Learns
    s.dev t.val lane.val (LrnOp.fin pred) sw w ls l) :=
  ⟨⟨31, 15, 0, 0, 3, 0, 0, st (learns base (.add 0 0 3 0 0)), sweepWord, 32000, lanesFull, laneFull,
  by unfold Learns; decide +kernel⟩,
   ⟨31, 15, 1, 1, 7, 0xFFFF, 1, st (learns base (.sub 1 1 7 0xFFFF 1)), sweepWord, 32000, lanesFull, laneFull,
   by unfold Learns; decide +kernel⟩,
   ⟨31, 15, 2, 2, 6, 0xFFFF, 2, st (learns base (.mul 2 2 6 0xFFFF 2)), sweepWord, 32000, lanesFull, laneFull,
   by unfold Learns; decide +kernel⟩,
   ⟨31, 15, 3, 3, 0x8000, 3, st (learns base (.mulk 3 3 0x8000 3)), sweepWord, 32000, lanesFull, laneFull,
   by unfold Learns; decide +kernel⟩,
   ⟨31, 15, 3, 1, 15, 5, st (learns base (.shr 3 1 15 5)), sweepWord, 32000, lanesFull, laneFull,
   by unfold Learns; decide +kernel⟩,
   ⟨31, 15, 3, 1, 6, 15, 6, st (learns base (.min 3 1 6 15 6)), sweepWord, 32000, lanesFull, laneFull,
   by unfold Learns; decide +kernel⟩,
   ⟨31, 15, 2, 1, 6, 15, 7, st (learns base (.max 2 1 6 15 7)), sweepWord, 32000, lanesFull, laneFull,
   by unfold Learns; decide +kernel⟩,
   ⟨31, 15, 0, 4, 5, 15, 0, st (learns base (.sel 0 4 5 15 0)), sweepWord, 32000, lanesFull, laneFull,
   by unfold Learns; decide +kernel⟩,
   ⟨31, 15, 0, 7, 0x8000, 0, st (learns base (.mov 0 7 0x8000 0)), sweepWord, 32000, lanesFull, laneFull,
   by unfold Learns; decide +kernel⟩,
   ⟨31, 15, 7, 5, 0x8000, 2, st (learns base (.cmpge 7 5 0x8000 2)), sweepWord, 32000, lanesFull, laneFull,
   by unfold Learns; decide +kernel⟩,
   ⟨31, 15, 7, 5, 0x8000, 0, st (learns base (.cmplt 7 5 0x8000 0)), sweepWord, 32000, lanesFull, laneFull,
   by unfold Learns; decide +kernel⟩,
   ⟨31, 15, 0, 7, 0xF, 0, st (learns base (.srnd 0 7 0xF 0)), sweepWord, 32000, lanesFull, laneFull, 0x8001,
   by unfold Learns; decide +kernel⟩,
   ⟨31, 15, 0, st (learns base (.fin 0)), sweepWord, 32000, lanesFull, laneFull, by unfold Learns; decide +kernel⟩⟩

/-- The hypotheses of each clause of `Obligations.SweepsReadWriteAndEnd` can be met. -/
theorem witness_SweepsReadWriteAndEnd :
    (∃ (t : Tile) (s : State) (sw : Sweep) (e : Eng) (i : Nat) (w : Nat), (s.dev.tum t.val).sweep = some sw ∧ sw.word = none ∧
    sw.eng = some e.val ∧ sw.row = some (i, w) ∧ w < rowWords 0 (rdLen (s.dev.sidx t.val e.val i)))
    ∧ (∃ (t : Tile) (s : State) (sw : Sweep) (e : Eng) (w : Nat) (ls : List LrnLane), (s.dev.tum t.val).sweep = some sw ∧ sw.word
    = some (w, ls) ∧ sw.eng = some e.val ∧ (∀ (l : LrnLane), l ∈ ls → l.done = true) ∧ ls.length ≤ 16 ∧ w < 32768 ∧ s.dev.fld
    TUM_PL (t.val * 9 + e.val) TUM_PL_BASE ≤ w ∧ w - s.dev.fld TUM_PL (t.val * 9 + e.val) TUM_PL_BASE < 7168)
    ∧ (∃ (t : Tile) (s : State) (sw : Sweep), (s.dev.tum t.val).sweep = some sw ∧ sw.word = none ∧ sw.eng = none ∧ sw.engines = []
    ∧ (s.dev.tum t.val).sweepQ = [] ∧ (s.dev.tum t.val).wt = none ∧ sw.epoch < 2 ^ 32 ∧ sw.ctx < 8) :=
  ⟨⟨31, st ((sweeping base sweepRow).st (engBase 31 8 + 0x280000 + 8191 * 16) 16 (rowDesc 17)), sweepRow, 8, 8191, 1,
  by decide +kernel⟩,
   ⟨31, st (((sweeping base sweepDone).wr TUM_PL 287 (BitVec.ofNat 64 (TUM_PL_BASE.put 0 (32000 - 7167)).toNat)).st (engBase 31 8
   + 32000 * 64) 16 0x1234567890), sweepDone, 8, 32000, lanesDone, by decide +kernel⟩,
   ⟨31, st ((base.setTum 31 { base.tum 31 with sweep := some sweepEmpty, changed := [engBase 31 8], ended := [(6, 3)] }).st
   (tumMem 31 + 109 * 1024 + 8191) 1 255), sweepEmpty, by decide +kernel⟩⟩

/-- The hypotheses of each clause of `Obligations.TumblerRecordsAndModulators` can be met. -/
theorem witness_TumblerRecordsAndModulators :
    (∃ (t : Tile) (s : State) (r : PreRec) (q : List PreRec), Tab.get [] s.dev.preQ t.val = r :: q ∧ (s.dev.tc t.val r.ctx).stale
    r.tick = false ∧ r.eng < 9 ∧ r.index < 8192)
    ∧ (∃ (t : Tile) (s : State) (ev : Delivered) (q : List Delivered) (ch : Fin 4), (s.dev.tum t.val).modQ = ev :: q ∧ (s.dev.tc
    t.val ev.ctx).len ≠ 0 ∧ (s.dev.tc t.val ev.ctx).stale (fullTick (s.dev.tickOf ev.ctx) (evTick ev.word)) = false ∧ (s.dev.fld
    TUM_CFG (t.val * 8 + ev.ctx) TUM_CFG_MOD_VALID).testBit ch.val = true ∧ s.dev.fld TUM_MOD_KEY ((t.val * 8 + ev.ctx) * 4 +
    ch.val) TUM_MOD_KEY_KEY = evKey ev.word)
    ∧ (∃ (t : Tile) (s : State) (e : Eng) (w : Nat) (epochs : List (Nat × Nat)) (packets : Nat), w < 32768 ∧ s.dev.fld TUM_PL
    (t.val * 9 + e.val) TUM_PL_BASE ≤ w ∧ w - s.dev.fld TUM_PL (t.val * 9 + e.val) TUM_PL_BASE < 7168 ∧ 1 ≤ packets ∧ (s.dev.tum
    t.val).wt = some ([engBase t.val e.val + 64 * w], epochs) ∧ (∀ (k : Nat × Nat), k ∈ epochs → k.fst < 8) ∧ (s.dev.tum
    t.val).ended = [] ∧ s.dev.chained 10 0 4 = false ∧ (∀ (k : Nat), k < 64 → memMaps (s.dev.imageOf t.val (engBase t.val e.val +
    64 * w) + k) = true)) :=
  ⟨⟨31, st { (base.setTc 31 7 epochOfFour) with preQ := [(31, [⟨8, 8191, 7, 7, 1⟩])] }, ⟨8, 8191, 7, 7, 1⟩, [],
  by decide +kernel⟩,
   ⟨31, st ((((base.wr CLP_TICK 7 0).setTc 31 7 epochOfFour).setTum 31 { modQ := [modEvent, modEvent], acc := [(62, -32768)] }).wr
   TUM_CFG 255 (TUM_CFG_MOD_VALID.put 0 15) |>.wr TUM_MOD_KEY 1023 0xFFFFFFFF), modEvent, [modEvent], 3, by decide +kernel⟩,
   ⟨31, st (((base.wr NE_HOME_BASE 287 0).setTum 31 { wt := some ([engBase 31 8 + 0x1FFFC0], [(7, 3)]) }).wr TUM_PL 287 25601
   |>.st (engBase 31 8 + 0x1FFFC0) 16 0xABCD), 8, 32767, [(7, 3)], 1, by decide +kernel⟩⟩

/-- The hypotheses of each clause of `Obligations.TumblerRegisterWrites` can be met. -/
theorem witness_TumblerRegisterWrites :
    (∃ (t : Tile) (e : Eng) (v : W32) (s : State), TUM_PL_WORDS.get (BitVec.setWidth 64 v) ≤ 7168 ∧ TUM_PL_BASE.get
    (BitVec.setWidth 64 v) + TUM_PL_WORDS.get (BitVec.setWidth 64 v) ≤ 32768 - 64 * s.dev.spillMax t.val e.val)
    ∧ (∃ (t : Tile) (e : Eng) (v : W32) (s : State), (TUM_PL_WORDS.get (BitVec.setWidth 64 v) > 7168 ∨ TUM_PL_BASE.get
    (BitVec.setWidth 64 v) + TUM_PL_WORDS.get (BitVec.setWidth 64 v) > 32768 - 64 * s.dev.spillMax t.val e.val))
    ∧ (∃ (t : Tile) (c : Ctx) (v : W32) (s : State) (r : Fin 4) (w : Fin 16), (s.dev.tum t.val).sweep = none ∧ (s.dev.tum
    t.val).ruleDue = [((c.val * 4 + r.val) * 64 + w.val * 4, v)]) :=
  ⟨⟨31, 8, BitVec.ofNat 32 (TUM_PL_WORDS.put (TUM_PL_BASE.put 0 25088) 7168).toNat, st base, by decide +kernel⟩,
   ⟨31, 8, BitVec.ofNat 32 (TUM_PL_WORDS.put (TUM_PL_BASE.put 0 0) 7169).toNat, st base, by decide +kernel⟩,
   ⟨31, 7, 0xFFFFFFFE, st (base.setTum 31 { ruleDue := [((7 * 4 + 3) * 64 + 60, 0xFFFFFFFE)] }), 3, 15, by decide +kernel⟩⟩

/-- The hypotheses of each clause of `Obligations.LoadDescriptionTakesOrRefuses` can be met. -/
theorem witness_LoadDescriptionTakesOrRefuses :
    (∃ (id : Nat) (x : Cmd) (data : Option (List Byte)) (bs : List Byte) (s : State), ReadyCtx s.dev id 16 x ∧ s.dev.flag
    SEC_CTX_STATUS x.ctx SEC_CTX_STATUS_SCRUBBING = false ∧ (s.dev.gen x.ctx).running = false ∧ Supplies s.dev x 0 (x.p 8 4) data
    bs ∧ descCheck bs (x.p 8 4) = none)
    ∧ (∃ (id : Nat) (x : Cmd) (data : Option (List Byte)) (bs : List Byte) (s : State) (code : Nat) (r : Nat) (w : Nat), ReadyCtx
    s.dev id 16 x ∧ s.dev.flag SEC_CTX_STATUS x.ctx SEC_CTX_STATUS_SCRUBBING = false ∧ (s.dev.gen x.ctx).running = false ∧
    Supplies s.dev x 0 (x.p 8 4) data bs ∧ descCheck bs (x.p 8 4) = some (code, r, w)) :=
  ⟨⟨5, loadCmd, some descGood, descGood, st
  { took base loadCmd with pins := [(7, [(1, 2)])], blocks := [(7, [⟨9, 0, 5, 0, 0, 0, 0, 0, 0, []⟩])] },
  by unfold ReadyCtx Supplies Ready; decide +kernel⟩,
   ⟨5, loadCmd, some descBadKey, descBadKey, st (took base loadCmd), 0x0D, 0, 0xFFFF,
   by unfold ReadyCtx Supplies Ready; decide +kernel⟩⟩

/-- The hypotheses of each clause of `Obligations.PlacePlacesOrIsInfeasible` can be met. -/
theorem witness_PlacePlacesOrIsInfeasible :
    (∃ (id : Nat) (x : Cmd) (p : Plan) (s : State) (r : Reason), ReadyCtx s.dev id 17 x ∧ s.dev.flag SEC_CTX_STATUS x.ctx
    SEC_CTX_STATUS_SCRUBBING = false ∧ (s.dev.gen x.ctx).running = false ∧ Tab.get [] s.dev.descs x.ctx ≠ [] ∧ Awake s.dev ∧
    (s.dev.started id).tablesFree x.ctx = true ∧ r.tile < 32 ∧ r.eng < 16 ∧ r.link < 8 ∧ r.record < 65536 ∧ r.code < 65536 ∧
    ((s.dev.started id).planFault x.ctx ((s.dev.started id).roleOf (x.p 0 2)) (s.dev.recs x.ctx) p = some r ∨ (s.dev.started
    id).planFault x.ctx ((s.dev.started id).roleOf (x.p 0 2)) (s.dev.recs x.ctx) p = none ∧ ((s.dev.started id).placed x.ctx
    (s.dev.recs x.ctx) p).committed.placedFault x.ctx (fun t => 1 - (s.dev.started id).midVer t x.ctx) (1 - (s.dev.started
    id).rimVer x.ctx) (s.dev.recs x.ctx) p = some r ∨ (s.dev.started id).planFault x.ctx ((s.dev.started id).roleOf (x.p 0 2))
    (s.dev.recs x.ctx) p = none ∧ ((s.dev.started id).placed x.ctx (s.dev.recs x.ctx) p).committed.placedFault x.ctx (fun t => 1 -
    (s.dev.started id).midVer t x.ctx) (1 - (s.dev.started id).rimVer x.ctx) (s.dev.recs x.ctx) p = none ∧ (s.dev.started
    id).usherMade ((s.dev.started id).placed x.ctx (s.dev.recs x.ctx) p).committed x.ctx (s.dev.recs x.ctx) p = true ∧
    (((s.dev.started id).placed x.ctx (s.dev.recs x.ctx) p).scheduleCtx x.ctx (s.dev.recs x.ctx) p.blocks).fst = Sum.inl r))
    ∧ (∃ (id : Nat) (x : Cmd) (p : Plan) (s : State) (fs : List Flow) (d' : Dev), ReadyCtx s.dev id 17 x ∧ s.dev.flag
    SEC_CTX_STATUS x.ctx SEC_CTX_STATUS_SCRUBBING = false ∧ (s.dev.gen x.ctx).running = false ∧ Tab.get [] s.dev.descs x.ctx ≠ []
    ∧ Awake s.dev ∧ (s.dev.started id).tablesFree x.ctx = true ∧ (s.dev.started id).planFault x.ctx ((s.dev.started id).roleOf
    (x.p 0 2)) (s.dev.recs x.ctx) p = none ∧ ((s.dev.started id).placed x.ctx (s.dev.recs x.ctx) p).committed.placedFault x.ctx
    (fun t => 1 - (s.dev.started id).midVer t x.ctx) (1 - (s.dev.started id).rimVer x.ctx) (s.dev.recs x.ctx) p = none ∧
    (s.dev.started id).usherMade ((s.dev.started id).placed x.ctx (s.dev.recs x.ctx) p).committed x.ctx (s.dev.recs x.ctx) p =
    true ∧ ((s.dev.started id).placed x.ctx (s.dev.recs x.ctx) p).scheduleCtx x.ctx (s.dev.recs x.ctx) p.blocks = (Sum.inr fs,
    d')) :=
  ⟨⟨5, placeCmd, ({ away := [(1, blockA)] } : Plan), st (placeTwo base), ({ code := 0xE } : Reason),
  by unfold ReadyCtx Awake Ready; decide +kernel⟩,
   place_witness⟩

/-- The hypotheses of each clause of `Obligations.PinAndTableCommands` can be met. -/
theorem witness_PinAndTableCommands :
    (∃ (id : Nat) (x : Cmd) (s : State) (r : Rec), ReadyCtx s.dev id 34 x ∧ s.dev.flag USH_STATUS x.ctx USH_STATUS_PLACED = true ∧
    recFind (s.dev.recs x.ctx) 1 (x.p 0 2) = some r ∧ (x.p 4 4 = 0 ∨ (s.dev.started id).pinMeets x.ctx (s.dev.recs x.ctx) r (x.p 4
    4) = true))
    ∧ (∃ (id : Nat) (x : Cmd) (s : State) (r : Rec), ReadyCtx s.dev id 34 x ∧ s.dev.flag USH_STATUS x.ctx USH_STATUS_PLACED = true
    ∧ recFind (s.dev.recs x.ctx) 1 (x.p 0 2) = some r ∧ x.p 4 4 ≠ 0 ∧ (s.dev.started id).pinMeets x.ctx (s.dev.recs x.ctx) r (x.p
    4 4) = false)
    ∧ (∃ (id : Nat) (x : Cmd) (s : State) (data : Option (List Byte)) (bs : List Byte), ReadyCtx s.dev id 40 x ∧ x.p 8 1 ≤ 2 ∧ 0 <
    x.p 12 2 ∧ (x.p 8 1 = 1 → s.dev.rimWritable x.ctx (1 - s.dev.rimVer x.ctx) = true) ∧ (x.p 8 1 ≠ 1 → Awake s.dev ∧ x.p 9 1 ≤ 31
    ∧ s.dev.midWritable (x.p 9 1) x.ctx (1 - s.dev.midVer (x.p 9 1) x.ctx) = true) ∧ (Supplies s.dev x 0 (x.p 12 2 * if x.p 8 1 =
    2 then 2 else 16) data bs) ∧ (∀ (k : Nat), k < x.p 12 2 → Option.any (fun x => x.fst) ((s.dev.started id).tableEntry x.ctx
    x.priv (x.p 8 1) (x.p 9 1) (x.p 10 2 + k) (slice bs (k * if x.p 8 1 = 2 then 2 else 16) (if x.p 8 1 = 2 then 2 else 16))) =
    true))
    ∧ (∃ (id : Nat) (x : Cmd) (s : State), ReadyCtx s.dev id 41 x ∧ (∀ (m : Migr), m ∈ s.dev.migrs → m.ctx ≠ x.ctx) ∧ Awake s.dev
    ∧ (s.dev.gen x.ctx).running = false ∧ PolsInRange s.dev x.ctx)
    ∧ (∃ (id : Nat) (x : Cmd) (s : State), ReadyCtx s.dev id 41 x ∧ (∀ (m : Migr), m ∈ s.dev.migrs → m.ctx ≠ x.ctx) ∧ Awake s.dev
    ∧ (s.dev.gen x.ctx).running = true ∧ s.dev.fld CLP_INTERM_MAX x.ctx CLP_INTERM_MAX_INTERM_MAX = 0) :=
  ⟨⟨5, pinNone, st (pinTwo base pinNone), pinRec, by unfold ReadyCtx Ready; decide +kernel⟩,
   ⟨5, pinBeyond, st ((pinTwo base pinBeyond).setF SEC_LIC 0 SEC_LIC_TILES 31), pinRec, by unfold ReadyCtx Ready; decide +kernel⟩,
   ⟨5, tableUpdateCmd 1 0 15 1, st ((took base (tableUpdateCmd 1 0 15 1)).wr RIM_TAB_REGION 7 (RIM_TAB_REGION_COUNT.put
   (RIM_TAB_REGION_BASE.put 0 16368) 16)), some (List.replicate 16 0xFF), List.replicate 16 0xFF,
   by unfold ReadyCtx Supplies Awake Ready; decide +kernel⟩,
   ⟨5, tableSwitchCmd, st (took base tableSwitchCmd), by unfold ReadyCtx Awake PolsInRange Ready; decide +kernel⟩,
   ⟨5, tableSwitchCmd, st (((took base tableSwitchCmd).setGen 7 { running := true }).setF CLP_INTERM_MAX 7
   CLP_INTERM_MAX_INTERM_MAX 0), by unfold ReadyCtx Awake Ready; decide +kernel⟩⟩

/-- The hypotheses of each clause of `Obligations.UsherBackgroundSteps` can be met. -/
theorem witness_UsherBackgroundSteps :
    (∃ (c : Ctx) (est : Nat) (s : State) (m : Migr) (d' : Dev), List.find? (fun m => m.ctx == c.val && m.step == 2) s.dev.migrs =
    some m ∧ m.copied = false ∧ m.crosses = false ∧ s.dev.tablesFree c.val = true ∧ s.dev.backgroundCopied m = some d' ∧ (d'.gen
    c.val).running = true ∧ 0 < d'.fld CLP_INTERM_MAX c.val CLP_INTERM_MAX_INTERM_MAX ∧ est ≤ d'.fld CLP_INTERM_MAX c.val
    CLP_INTERM_MAX_INTERM_MAX ∧ (d'.gen c.val).interReq = [] ∧ d'.sweepInter c.val (d'.tickOf c.val) = false)
    ∧ (∃ (c : Ctx) (now : Nat) (s : State) (m : Migr) (own : Nat), List.find? (fun m => m.ctx == c.val && m.step == 4) s.dev.migrs
    = some m ∧ s.dev.evacs = [] ∧ ((m.flipAt + 2 * if s.dev.fld USH_INFLIGHT_MAX c.val USH_INFLIGHT_MAX_TB = 0 then own else
    s.dev.fld USH_INFLIGHT_MAX c.val USH_INFLIGHT_MAX_TB) ≤ now))
    ∧ (∃ (s : State) (r : RowMove), s.dev.fld USH_PERIOD 0 USH_PERIOD_MS ≠ 0 ∧ s.dev.fld PWR_STATUS 0 PWR_STATUS_STATE ≤ 1 ∧
    r.tile < 32 ∧ r.eng < 9 ∧ r.index < 8192 ∧ rdBits (s.dev.sidx r.tile r.eng r.index) 95 95 = 1 ∧ rdSpill (s.dev.sidx r.tile
    r.eng r.index) = true ∧ s.dev.flag USH_CTRL (rdCtx (s.dev.sidx r.tile r.eng r.index)) USH_CTRL_PROMOTE_EN = true ∧ s.dev.flag
    USH_CTRL (rdCtx (s.dev.sidx r.tile r.eng r.index)) USH_CTRL_REBAL_EN = true ∧ s.dev.fetchedOften r.tile r.eng r.index = true ∧
    s.dev.wordsFree r.tile r.eng (rdCtx (s.dev.sidx r.tile r.eng r.index)) r.addr (rowWords (rdFmt (s.dev.sidx r.tile r.eng
    r.index)) (rdLen (s.dev.sidx r.tile r.eng r.index))) = true ∧ s.dev.fld NE_HOME_BASE (engIx r.tile r.eng) NE_HOME_BASE_IMAGE *
    64 + 3145728 ≤ 68719476736)
    ∧ (∃ (c : Ctx) (s : State) (fs : List Flow) (d' : Dev), Tab.get [] s.dev.flows c.val ≠ [] ∧ s.dev.tablesFree c.val = true ∧
    (s.dev.gen c.val).running = false ∧ ((s.dev.copyTables c.val).clearFlows c.val fun t => 1 - s.dev.midVer t c.val).admitAll
    c.val (s.dev.recs c.val) (Tab.get [] s.dev.blocks c.val) (flowOrder (s.dev.recs c.val)) [] = (fs, d') ∧ (∀ (f : Flow), f ∈ fs
    → ∀ (y : Nat × Nat), y ∈ f.pols → y.fst < 32 ∧ y.snd < 16)) :=
  ⟨copy_witness,
   ⟨7, 18, st
   ({ base with migrs := [{ migrOpen with step := 4, flipAt := 10, ctx := 6 }, { migrOpen with step := 4, flipAt := 10 }] }.wr
   USH_INFLIGHT_MAX 7 0), { migrOpen with step := 4, flipAt := 10 }, 4, by decide +kernel⟩,
   ⟨st
   ({ ((((((((base.wr USH_PERIOD 0 1).wr USH_CTRL 7 0xFFFFFFFF).wr NE_BOUNDS (287*4) (NE_BOUNDS_VALID.put (NE_BOUNDS_CTX.put (NE_BOUNDS_SMEM_HI.put 0 32767) 7) 1)).wr NE_SYN_CTRL 287 0).wr NE_HOME_BASE 287 0).setF PWR_STATUS 0 PWR_STATUS_STATE 1).st (engBase 31 8 + 0x280000 + 8191 * 16) 16 (2 ^ 95 + 7 * 2 ^ 91 + 2 ^ 88 + 3 * 2 ^ 45 + 17 * 2 ^ 31)).st ((base.spillPart 7).1 + 192) 16 0x123456) with samples := [(sampleKey 31 8 8191, 1)] }),
   rowMove, by decide +kernel⟩,
   rebuild_witness⟩

/-- The hypotheses of each clause of `Obligations.IntermissionsRequestOpenAndEnd` can be met. -/
theorem witness_IntermissionsRequestOpenAndEnd :
    (∃ (c : Ctx) (s : State) (tick : Nat) (work : Fin 3) (est : Nat), (s.dev.gen c.val).running = true ∧ 0 < s.dev.fld
    CLP_INTERM_MAX c.val CLP_INTERM_MAX_INTERM_MAX ∧ est ≤ s.dev.fld CLP_INTERM_MAX c.val CLP_INTERM_MAX_INTERM_MAX ∧ tickGe tick
    (s.dev.tickOf c.val) = true ∧ (∀ (r : Nat × Nat × Nat), r ∈ (s.dev.gen c.val).interReq → r.snd.fst ≠ work.val) ∧ (work = 0 →
    s.dev.sweepInter c.val tick = false ∧ ∃ m, m ∈ s.dev.migrs ∧ m.ctx = c.val ∧ m.step = 2 ∧ m.copied = true) ∧ (work = 1 → (∃ x,
    x ∈ s.dev.cmds ∧ x.wait = CmdWait.flip c.val) ∨ ∃ x, x ∈ s.dev.newFlows ∧ x.fst = c.val))
    ∧ (∃ (c : Ctx) (s : State) (at_ : Nat), (s.dev.gen c.val).interOpen = false ∧ (s.dev.gen c.val).upd = true ∧ (s.dev.gen
    c.val).drained = true ∧ List.find? (fun r => r.fst == s.dev.tickOf c.val) (s.dev.gen c.val).interReq = some (s.dev.tickOf
    c.val, 1, at_) ∧ (∀ (t : Tile) (e : Eng) (h : Gather), (s.dev.eng t.val e.val).gather = some h → h.ctx ≠ c.val) ∧ PolsInRange
    s.dev c.val)
    ∧ (∃ (c : Ctx) (s : State), (s.dev.gen c.val).interOpen = true ∧ (s.dev.gen c.val).interGo = true ∧ (s.dev.gen
    c.val).interWork ≠ 3) :=
  ⟨⟨7, st ({ intermLimit base with migrs := [migrCopied] }.setGen 7 { running := true, interReq := [(0, 1, 3)] }), (base.tickOf
  7), 0, 100, by decide +kernel⟩,
   ⟨7, st (base.setGen 7 { running := true, drainEdge := 5, interReq := [(base.tickOf 7, 1, 9), (base.tickOf 7, 2, 9)] }), 9,
   by unfold PolsInRange; decide +kernel⟩,
   ⟨7, st (base.setGen 7 { running := true, interFrom := 5, interOpen := true, interWork := 0 }), by decide +kernel⟩⟩

/-- The hypotheses of each clause of `Obligations.FabricMessages` can be met. -/
theorem witness_FabricMessages :
    (∃ (s : State), (s.dev.fld SEC_LIC 0 SEC_LIC_FEATURES).testBit 2 = true ∧ s.dev.fld USH_PERIOD 0 USH_PERIOD_MS ≠ 0)
    ∧ (∃ (c : Ctx) (tick : Nat) (dist : Nat) (est : Nat) (s : State), (s.dev.fld SEC_LIC 0 SEC_LIC_FEATURES).testBit 2 = true ∧
    tickGe tick (s.dev.tickOf c.val + 2 * dist) = true ∧ (s.dev.gen c.val).running = true ∧ est ≤ s.dev.fld CLP_INTERM_MAX c.val
    CLP_INTERM_MAX_INTERM_MAX ∧ 0 < s.dev.fld CLP_INTERM_MAX c.val CLP_INTERM_MAX_INTERM_MAX ∧ tickGe tick (s.dev.tickOf c.val) =
    true ∧ (s.dev.gen c.val).interReq = [])
    ∧ (∃ (c : Ctx) (s : State), (s.dev.gen c.val).interOpen = true ∧ (s.dev.gen c.val).interWork = 2)
    ∧ (∃ (c : Ctx) (s : State), (∃ r, r ∈ (s.dev.gen c.val).interReq ∧ r.snd.fst = 2 ∧ tickGe r.fst (s.dev.tickOf c.val) = false))
    ∧ (∃ (c : Ctx) (s : State), (s.dev.gen c.val).interOpen = true ∧ (s.dev.gen c.val).interWork = 2 ∧ (s.dev.gen c.val).reports =
    []) :=
  ⟨⟨st ((learnLicensed base).wr USH_PERIOD 0 1 |>.setF ELK_STATUS 5 ELK_STATUS_STATE 4), by decide +kernel⟩,
   ⟨7, 2 ^ 48 + 5000, 2, 100, st ((learnLicensed base).wr CLP_TICK 7 4000 |>.setGen 7 { running := true }), by decide +kernel⟩,
   ⟨7, st ((learnLicensed base).setGen 7 { running := true, interOpen := true, interWork := 2 }), by decide +kernel⟩,
   ⟨7, st ((learnLicensed base).wr CLP_TICK 7 9 |>.setGen 7 { running := true, interReq := [(8, 2, 1), (8, 0, 1)] }),
   by decide +kernel⟩,
   ⟨7, st ((learnLicensed base).setGen 7 { running := true, interOpen := true, interWork := 2, interGo := false }),
   by decide +kernel⟩⟩

/-- The hypotheses of each clause of `Obligations.LookupsMakeFlits` can be met. -/
theorem witness_LookupsMakeFlits :
    (∃ (t : Tile) (at_ : LookupAt) (i : Nat) (y : Nat) (s : State) (e : Eng) (ex : Bool) (x : Emitted) (q : List Emitted), bits y
    88 87 ≠ 0 ∧ bits y 63 32 ≠ 0 ∧ bits y 31 24 = 0 ∧ Tab.get [] (s.dev.router t.val).arr 4 = [] ∧ Tab.get 0 (s.dev.router
    t.val).used 25 < 20 ∧ s.dev.nextLookup t.val at_ = some (e.val, ex) ∧ ((if ex = true then (s.dev.eng t.val e.val).emitX else
    (s.dev.eng t.val e.val).emitO) = x :: q) ∧ x.ctx < 8 ∧ s.dev.ftFind t.val x.ctx (s.dev.midVer t.val x.ctx) (evKey x.word) =
    some (i, y) ∧ bits y 85 80 ≠ 0 ∧ (s.dev.router t.val).ftBad.contains (s.dev.midVer t.val x.ctx * 4096 + i) = false)
    ∧ (∃ (t : Tile) (i : Nat) (y : Nat) (s : State) (g : Fin 8) (x : Inbound) (q : List Inbound), bits y 88 87 ≠ 0 ∧ bits y 63 32
    ≠ 0 ∧ bits y 31 24 = 0 ∧ Tab.get [] (s.dev.router t.val).arr 4 = [] ∧ Tab.get 0 (s.dev.router t.val).used 25 < 20 ∧
    gwTiles.getD g.val 0 = t.val ∧ Tab.get [] s.dev.gwIn g.val = x :: q ∧ x.ctx < 8 ∧ (s.dev.gen x.ctx).interOpen = false ∧
    s.dev.ftFind t.val x.ctx x.ver (evKey x.word) = some (i, y) ∧ (s.dev.router t.val).ftBad.contains (x.ver * 4096 + i) = false) :=
  ⟨⟨31, .next, 4095, fanEntry + 63 * 2 ^ 80, st ((fanTable base 1 (fanEntry + 63 * 2 ^ 80)).setEng 31 8
  { emitO := [emitted, emitted] }), 8, false, emitted, [emitted], by decide +kernel⟩,
   ⟨31, 4095, fanEntry + 63 * 2 ^ 80, st { fanTable base 1 (fanEntry + 63 * 2 ^ 80) with gwIn := [(7, [inbound, inbound])] }, 7,
   inbound, [inbound], by decide +kernel⟩⟩

/-- The hypotheses of each clause of `Obligations.RouterSteps` can be met. -/
theorem witness_RouterSteps :
    (∃ (t : Tile) (s : State) (inp : Fin 6) (a : Arriving) (q : List Arriving), Tab.get [] (s.dev.router t.val).arr inp.val = a ::
    q ∧ a.flit.isData = false ∧ a.flit.headerOk = true ∧ a.flit.mask = 2 ^ t.val ∧ a.flit.rim = 0 ∧ s.dev.combinable t.val a.flit
    = false)
    ∧ (∃ (t : Tile) (s : State) (inp : Fin 6) (a : Arriving) (q : List Arriving), Tab.get [] (s.dev.router t.val).arr inp.val = a
    :: q ∧ a.flit.isData = false ∧ Tab.get [] (s.dev.router t.val).feedQ inp.val = [])
    ∧ (∃ (t : Tile) (s : State) (w : Waiting), (s.dev.router t.val).wait = [w] ∧ w.out = 4 ∧ w.flit.cls = 1 ∧ w.flit.isData =
    false ∧ s.dev.pick t.val 4 1 = some w ∧ Tab.get [] (s.dev.router t.val).local_ 1 = [])
    ∧ (∃ (t : Tile) (s : State) (out : Fin 6) (cls : Fin 4), (out.val, cls.val) ∈ (s.dev.router t.val).credits)
    ∧ (∃ (t : Tile) (s : State) (k : Fin 16) (x : CombEntry), (s.dev.router t.val).comb[k.val]? = some x ∧ x.flit.mask = 2 ^ t.val
    ∧ x.flit.rim = 0)
    ∧ (∃ (t : Tile) (s : State) (k : Fin 16) (x : CombEntry), (s.dev.router t.val).comb[k.val]? = some x) :=
  ⟨⟨31, st (routerAt base { arr := [(5, [⟨flit 1 0x80000000 0, 1⟩, ⟨flit 1 1 0, 1⟩])] }), 5, ⟨flit 1 0x80000000 0, 1⟩, [⟨flit 1 1
  0, 1⟩], by decide +kernel⟩,
   ⟨31, st (routerAt base { arr := [(5, [⟨flit 1 0x80000000 0, 1⟩, ⟨flit 1 1 0, 1⟩])] }), 5, ⟨flit 1 0x80000000 0, 1⟩, [⟨flit 1 1
   0, 1⟩], by decide +kernel⟩,
   ⟨31, st (routerAt base { wait := [⟨4, flit 1 0x80000000 0, 6, 1, 3⟩] }), ⟨4, flit 1 0x80000000 0, 6, 1, 3⟩, by decide +kernel⟩,
   ⟨31, st (routerAt base { credits := [(5, 3), (5, 3)], used := [(23, 1)] }), 5, 3, by decide +kernel⟩,
   ⟨31, st (routerAt base { comb := List.replicate 16 ⟨flit 1 0x80000000 77⟩ }), 15, ⟨flit 1 0x80000000 77⟩, by decide +kernel⟩,
   ⟨31, st (routerAt base { comb := List.replicate 16 ⟨flit 1 0x80000000 77⟩ }), 15, ⟨flit 1 0x80000000 77⟩, by decide +kernel⟩⟩

/-- The hypotheses of each clause of `Obligations.LocalPortsAndPolicers` can be met. -/
theorem witness_LocalPortsAndPolicers :
    (∃ (t : Tile) (s : State) (f : Flit) (q : List Flit) (w : W64) (e : Eng), Tab.get [] (s.dev.router t.val).local_ 1 = f :: q ∧
    f.cls = 1 ∧ f.words = [w] ∧ s.dev.ctxReset.contains f.ctx = false ∧ evKind w = 1 ∧ s.dev.targetsOf t.val f.ctx = [e.val] ∧
    (s.dev.eng t.val e.val).resetting = false ∧ (s.dev.eng t.val e.val).qO.length < 224)
    ∧ (∃ (t : Tile) (s : State) (f : Flit) (q : List Flit) (w : W64), Tab.get [] (s.dev.router t.val).local_ 1 = f :: q ∧ f.cls =
    1 ∧ f.words = [w] ∧ s.dev.ctxReset.contains f.ctx = false ∧ evKind w = 3 ∧ s.dev.tileRst.contains t.val = false)
    ∧ (∃ (t : Tile) (s : State) (i : Fin 16) (h : Fin 2), s.dev.halfStopped h.val = false ∧ halfOf t.val = h.val ∧ s.dev.flag
    MID_C0POL (t.val * 16 + i.val) MID_C0POL_EN = true) :=
  ⟨⟨31, st ((routerAt (base.wr NE_POP_LO (287*64+63) (NE_POP_LO_VALID.put (NE_POP_LO_CONTEXT.put 0 7) 1))
  { local_ := [(1, [flit 1 0x80000000 0, flit 1 1 0])] }).setEng 31 8 { qO := List.replicate 223 ⟨0, 1, 1, 0, 0⟩ }), flit 1
  0x80000000 0, [flit 1 1 0], evWord 1 7 0x55 3, 8, by decide +kernel⟩,
   ⟨31, st (routerAt base { local_ := [(1, [flitModulator, flit 1 1 0])] }), flitModulator, [flit 1 1 0], evWord 3 7 0x55 0xFFFF,
   by decide +kernel⟩,
   ⟨31, st (routerAt (base.wr MID_C0POL (31*16+15) (MID_C0POL_EN.put (MID_C0POL_RATE.put (MID_C0POL_BURST.put 0 16) 63) 1))
   { tokens := [(15, 3)] }), 15, 1, by decide +kernel⟩⟩

/-- The hypotheses of each clause of `Obligations.FanoutAndSlotTableWrites` can be met. -/
theorem witness_FanoutAndSlotTableWrites :
    (∃ (t : Tile) (s : State), (s.dev.ftOwners t.val (s.dev.fld MID_FT_SEL t.val MID_FT_SEL_INDEX)).any s.dev.confidential =
    false)
    ∧ (∃ (t : Tile) (s : State), (s.dev.ftOwners t.val (s.dev.fld MID_FT_SEL t.val MID_FT_SEL_INDEX)).any s.dev.confidential =
    false ∧ ((s.dev.ftOwners t.val (s.dev.fld MID_FT_SEL t.val MID_FT_SEL_INDEX)).all fun c => s.dev.midWritable t.val c
    (s.dev.fld MID_FT_SEL t.val MID_FT_SEL_VERSION)) = true)
    ∧ (∃ (t : Tile) (s : State), (s.dev.ftOwners t.val (s.dev.fld MID_FT_SEL t.val MID_FT_SEL_INDEX)).any s.dev.confidential =
    false ∧ ((s.dev.ftOwners t.val (s.dev.fld MID_FT_SEL t.val MID_FT_SEL_INDEX)).all fun c => s.dev.midWritable t.val c
    (s.dev.fld MID_FT_SEL t.val MID_FT_SEL_VERSION)) = false)
    ∧ (∃ (t : Tile) (who : Requester) (s : State), viaPf who = true ∧ (s.dev.ftOwners t.val (s.dev.fld MID_FT_SEL t.val
    MID_FT_SEL_INDEX)).any s.dev.confidential = true)
    ∧ (∃ (t : Tile) (s : State) (k : Fin 2) (p : Fin 4) (sl : Fin 64) (f : W16), (∀ (x : Nat), x ∈ [s.dev.fld MID_SLOT_APER
    (slotIx t.val k.val p.val sl.val) MID_SLOT_APER_FLOW, BitVec.toNat f] → x = 65535 ∨ s.dev.midWritable t.val (x / 8192) k.val =
    true))
    ∧ (∃ (t : Tile) (s : State) (k : Fin 2) (p : Fin 4) (sl : Fin 64) (f : W16), (∃ x, x ∈ [s.dev.fld MID_SLOT_APER (slotIx t.val
    k.val p.val sl.val) MID_SLOT_APER_FLOW, BitVec.toNat f] ∧ x ≠ 65535 ∧ s.dev.midWritable t.val (x / 8192) k.val = false)) :=
  ⟨⟨31, st ((fanRegion base 1 0).st (ftAddr 31 1 4095) 16 (2^128-1)), by decide +kernel⟩,
   ⟨31, st ((fanRegion base 1 0xFF).setRouter 31 { ftHeld := 0xABC }), by decide +kernel⟩,
   ⟨31, st ((fanRegion base 1 0x7F).setRouter 31 { ftHeld := 0xABC }), by decide +kernel⟩,
   ⟨31, .pf, st ((fanRegion base 1 0xFF).setF SEC_CTX_STATUS 7 SEC_CTX_STATUS_CONFIDENTIAL 1), by decide +kernel⟩,
   ⟨31, st (fanRegion base 1 0xFF |>.setF MID_SLOT_APER (slotIx 31 1 3 63) MID_SLOT_APER_FLOW 0xFFFF), 1, 3, 63, 0xE000,
   by decide +kernel⟩,
   ⟨31, st (fanRegion base 1 0x7F |>.setF MID_SLOT_APER (slotIx 31 1 3 63) MID_SLOT_APER_FLOW 0xFFFF), 1, 3, 63, 0xE000,
   by decide +kernel⟩⟩

/-- The hypotheses of each clause of `Obligations.MidwayRegisterWrites` can be met. -/
theorem witness_MidwayRegisterWrites :
    (∃ (v : W32), MID_FT_REGION_BASE.get (BitVec.setWidth 64 v) + MID_FT_REGION_COUNT.get (BitVec.setWidth 64 v) ≤ 4096)
    ∧ (∃ (v : W32), MID_FT_REGION_BASE.get (BitVec.setWidth 64 v) + MID_FT_REGION_COUNT.get (BitVec.setWidth 64 v) > 4096)
    ∧ (∃ (v : W32), MID_COMB_TIMEOUT.get (BitVec.setWidth 64 v) = 0)
    ∧ (∃ (v : W32), MID_COMB_TIMEOUT.get (BitVec.setWidth 64 v) ≠ 0) :=
  ⟨⟨BitVec.ofNat 32 (MID_FT_REGION_COUNT.put (MID_FT_REGION_BASE.put 0xFFFFFFFFFFFFFFFF 4095) 1).toNat, by decide +kernel⟩,
   ⟨BitVec.ofNat 32 (MID_FT_REGION_COUNT.put (MID_FT_REGION_BASE.put 0 4095) 2).toNat, by decide +kernel⟩,
   ⟨BitVec.ofNat 32 (MID_COMB_TIMEOUT.put 0xFFFFFFFFFFFFFFFF 0).toNat, by decide +kernel⟩,
   ⟨0xFFFFFFFF, by decide +kernel⟩⟩

/-- The hypotheses of each clause of `Obligations.PortStatesFollowTheirEvents` can be met. -/
theorem witness_PortStatesFollowTheirEvents :
    (∃ (p : Port) (v : W32) (s : State), ELK_CTRL_EN.get (BitVec.setWidth 64 v) = 1 ∧ ELK_CTRL_RETRAIN.get (BitVec.setWidth 64 v)
    = 0 ∧ s.dev.portState p.val = 0 ∧ s.dev.portLicensed p.val = true ∧ s.dev.rimLost = [])
    ∧ (∃ (v : W32), ELK_CTRL_EN.get (BitVec.setWidth 64 v) = 0)
    ∧ (∃ (p : Port) (s : State), s.dev.flag ELK_CTRL p.val ELK_CTRL_EN = true ∧ s.dev.portLicensed p.val = true ∧ s.dev.rimLost =
    [])
    ∧ (∃ (p : Port) (s : State), s.dev.flag ELK_CTRL p.val ELK_CTRL_EN = true ∧ s.dev.portLicensed p.val = true ∧ s.dev.rimLost =
    [] ∧ 3 ≤ s.dev.portState p.val)
    ∧ (∃ (p : Port) (s : State) (lane : Fin 2), s.dev.portState p.val = 1 ∧ (s.dev.port p.val).trained ||| 2 ^ lane.val = 3 ∧
    (s.dev.port p.val).failed.testBit lane.val = false ∧ s.dev.unit 5 (p.val * 2 + lane.val) ≠ (2, 5))
    ∧ (∃ (p : Port) (s : State), s.dev.portState p.val = 1 ∧ ((s.dev.port p.val).trained = 1 ∨ (s.dev.port p.val).trained = 2))
    ∧ (∃ (p : Port) (ms : Bool) (s : State) (a : List (BitVec 10)) (b : List (BitVec 10)) (word : Option (List Nat × List Nat))
    (msg : List Nat) (cwi : Nat) (bs : List Byte) (l : Nat), rsDecode (fromLanes (s.dev.fld ELK_STATUS p.val ELK_STATUS_RX_LANES)
    (List.map (fun x => x.toNat) a) (List.map (fun x => x.toNat) b)) = word ∧ (ms = true ∨ s.dev.fld ELK_LANE_SER p.val
    ELK_LANE_SER_LIMIT = 0) ∧ word = some (msg, []) ∧ messageParts msg = (6779, cwi, bs) ∧ s.dev.portState p.val = 2 ∧ (s.dev.port
    p.val).lock = 3 ∧ (s.dev.port p.val).lastCwi = some l ∧ cwi = (l + 1) % 69)
    ∧ (∃ (p : Port) (ms : Bool) (s : State) (a : List (BitVec 10)) (b : List (BitVec 10)) (word : Option (List Nat × List Nat)),
    rsDecode (fromLanes (s.dev.fld ELK_STATUS p.val ELK_STATUS_RX_LANES) (List.map (fun x => x.toNat) a) (List.map (fun x =>
    x.toNat) b)) = word ∧ (ms = true ∨ s.dev.fld ELK_LANE_SER p.val ELK_LANE_SER_LIMIT = 0) ∧ word = none ∧ 2 ≤ s.dev.portState
    p.val ∧ (s.dev.port p.val).badCw < 3)
    ∧ (∃ (p : Port) (s : State), s.dev.portState p.val = 4 ∧ s.dev.fld ELK_STATUS p.val ELK_STATUS_RX_LANES = 3) :=
  ⟨⟨5, elkCtrl 1 0 0x3FF, st (port5 base 0 {}), by decide +kernel⟩,
   ⟨elkCtrl 0 0 0xFFFF, by decide +kernel⟩,
   ⟨5, st (port5 base 4 portBusy), by decide +kernel⟩,
   ⟨5, st (port5 base 3 portBusy), by decide +kernel⟩,
   ⟨5, st (port5 base 1 { trained := 1 }), 1, by decide +kernel⟩,
   ⟨5, st (port5 base 1 { trained := 1 }), by decide +kernel⟩,
   ⟨5, true, st ((port5 base 2 { lock := 3, lastCwi := some 68 }).setF ELK_STATUS 5 ELK_STATUS_RX_LANES 1), blankCodeword, [],
   some (blankMessage, []), blankMessage, 0, List.replicate 640 0, 68, by decide +kernel⟩,
   ⟨5, true, st (port5 base 4 { badCw := 2, lock := 3, lastCwi := some 68 }), [], [], none, by decide +kernel⟩,
   ⟨5, st ((port5 base 4 portBusy).setF ELK_STATUS 5 ELK_STATUS_RX_LANES 3), by decide +kernel⟩⟩

/-- The hypotheses of each clause of `Obligations.FramesReceivedAndSent` can be met. -/
theorem witness_FramesReceivedAndSent :
    (∃ (p : Port) (s : State) (j : Nat) (cw : Bool) (bytes : List Byte) (x' : PortSt), (s.dev.port p.val).nextFrame = some (j, cw,
    bytes, x') ∧ s.dev.portState p.val = 4 ∧ cw = false ∧ crc32c (List.take 134 bytes) = at_ bytes 134 4 ∧ bits (at_ bytes 128 6)
    4 4 = 0 ∧ bits (at_ bytes 128 6) 5 5 = 1 ∧ bits (at_ bytes 128 6) 47 36 = (s.dev.port p.val).expect ∧ (s.dev.port
    p.val).prevCap = none ∧ (Option.any (fun f => f.cls == 0) (headOf (slice bytes 0 32)) = false ∨ (Tab.get [] (s.dev.port
    p.val).rx 0).length < 16))
    ∧ (∃ (p : Port) (s : State) (j : Nat) (cw : Bool) (bytes : List Byte) (x' : PortSt), (s.dev.port p.val).nextFrame = some (j,
    cw, bytes, x') ∧ s.dev.portState p.val = 4 ∧ (s.dev.port p.val).badRun < 11 ∧ (cw = true ∨ crc32c (List.take 134 bytes) ≠ at_
    bytes 134 4))
    ∧ (∃ (p : Port) (s : State), s.dev.portState p.val = 3)
    ∧ (∃ (p : Port) (s : State) (i : TxItem) (f : Flit), s.dev.portState p.val = 4 ∧ (s.dev.port p.val).replay = [] ∧ (s.dev.port
    p.val).part = [] ∧ (s.dev.port p.val).q = [] ∧ (s.dev.port p.val).stored = [] ∧ (s.dev.port p.val).c0 = [i] ∧ i.flits = [f] ∧
    f.cls = 0)
    ∧ (∃ (p : Port) (s : State), s.dev.portState p.val = 4 ∧ (s.dev.port p.val).replay = [] ∧ (s.dev.port p.val).stored ≠ []) :=
  ⟨⟨5, st (port5 base 4 portLate), 319, false, lastFrame, { portLate with rxBytes := [], rxPos := 0 }, by decide +kernel⟩,
   ⟨5, st (port5 base 4 { portLate with rxErr := [68] }), 319, true, lastFrame, { portLate with rxBytes := [], rxPos := 0 },
   by decide +kernel⟩,
   ⟨5, st (port5 base 3 { txJ := 319, c0 := [txItem] }), by decide +kernel⟩,
   ⟨5, st (port5 base 4 { seq := 4095, c0 := [slotItem], peerAck := 4094 }), slotItem, flit 0 1 0, by decide +kernel⟩,
   ⟨5, st (port5 base 4 portBusy), by decide +kernel⟩⟩

/-- The hypotheses of each clause of `Obligations.RimMovesWordsAndPackets` can be met. -/
theorem witness_RimMovesWordsAndPackets :
    (∃ (s : State) (x : RimWord) (q : List RimWord) (i : Nat) (y : Nat) (g : Fin 8), s.dev.zeroFirst RimSource.host = none ∧
    Tab.get [] s.dev.swIn 7 = x :: q ∧ x.sns = none ∧ x.ctx < 8 ∧ x.cls < 4 ∧ (s.dev.gen x.ctx).running = true ∧ s.dev.rimFind
    x.ctx (s.dev.rimVer x.ctx) (evKey x.word) = some (i, y) ∧ bits y 88 77 = 0 ∧ bits y 76 69 = 2 ^ g.val ∧ s.dev.gatewayDown
    g.val = false ∧ s.dev.gatesFree x.ctx (s.dev.rimVer x.ctx) x.cls (evKey x.word) = true)
    ∧ (∃ (s : State) (k : Packet) (q : List Packet), s.dev.zeroFirst RimSource.packet = none ∧ s.dev.pkIn = k :: q ∧
    k.head.headerOk = true ∧ k.ttype ≤ 1 ∧ k.dst = s.dev.chipId ∧ k.tile = none)
    ∧ (∃ (s : State) (p : Port) (f : Flit) (q : List Flit) (w : W64), s.dev.zeroFirst (RimSource.port p 1) = none ∧ Tab.get []
    (s.dev.port p.val).rx 1 = f :: q ∧ f.headerOk = true ∧ f.words = [w] ∧ (evKind w = 1 ∨ evKind w = 2 ∨ evKind w = 3) ∧ f.hops =
    0)
    ∧ (∃ (s : State) (g : Fin 8) (f : Flit) (q : List Flit) (w : W64), Tab.get [] s.dev.rimIn g.val = f :: q ∧ f.cls = 1 ∧
    f.headerOk = true ∧ f.words = [w] ∧ evKind w = 1 ∧ s.dev.ringOf f.ctx w = none ∧ s.dev.aeroTakes f.ctx w = false) :=
  ⟨⟨st { (rimTableOf base rimEntry).wr PWR_STATUS 0 0 with swIn := [(7, [hostWord, hostWord])] }, hostWord, [hostWord], 32767,
  rimEntry, 7, by decide +kernel⟩,
   ⟨st { chipLast base with pkIn := [packet 2 0x100 32, packet 3 0 1] }, packet 2 0x100 32, [packet 3 0 1], by decide +kernel⟩,
   ⟨st (port5 base 4 { rx := [(1, [flitOne, flitOne])] }), 5, flitOne, [flitOne], evWord 2 7 0x55 3, by decide +kernel⟩,
   ⟨st
   { (base.setF SNS_AER_CTRL 0 SNS_AER_CTRL_AERO_EN 0 |>.setF HST_OUT_CTRL 28 HST_OUT_CTRL_EN 0 |>.setF HST_OUT_CTRL 29 HST_OUT_CTRL_EN 0 |>.setF HST_OUT_CTRL 30 HST_OUT_CTRL_EN 0 |>.setF HST_OUT_CTRL 31 HST_OUT_CTRL_EN 0) with rimIn := [(7, [flit 1 1 0, flitOne])] },
   7, flit 1 1 0, [flitOne], evWord 1 7 0x55 3, by decide +kernel⟩⟩

/-- The hypotheses of each clause of `Obligations.RingTimersAndAero` can be met. -/
theorem witness_RingTimersAndAero :
    (∃ (s : State) (c : Ctx) (j : Fin 4), s.dev.fld HST_OUT_CTRL (c.val * 4 + j.val) HST_OUT_CTRL_TIMER_US ≠ 0 ∧ 0 < (Tab.get { }
    s.dev.outRings (c.val * 4 + j.val)).since)
    ∧ (∃ (s : State) (w : Nat × Nat × Nat) (q : List (Nat × Nat × Nat)), s.dev.aero = w :: q ∧ s.dev.aeroPin.req = false)
    ∧ (∃ (s : State), s.dev.aeroPin.req = true)
    ∧ (∃ (s : State) (key : Nat) (c : Nat) (cls : Nat), s.dev.aeroPin.word = some (key, c, cls) ∧ s.dev.aeroPin.req = true)
    ∧ (∃ (s : State), s.dev.aeroPin.req = false) :=
  ⟨⟨st { base.setF HST_OUT_CTRL 31 HST_OUT_CTRL_TIMER_US 1 with outRings := [(31, { since := 1, phase := false })] }, 7, 3,
  by decide +kernel⟩,
   ⟨st
   { base.setF SNS_AERO_KEY 0 SNS_AERO_KEY_MATCH 0x200 with aero := [(0x1FF, 7, 0), (5, 0, 1)], aeroPin := { stuck := true } },
   (0x1FF, 7, 0), [(5, 0, 1)], by decide +kernel⟩,
   ⟨st { base with aeroPin := { req := true, word := some (3, 7, 1) } }, by decide +kernel⟩,
   ⟨st { base with aeroPin := { req := true, word := some (0xFFFFFFFF, 7, 1) } }, 0xFFFFFFFF, 7, 1, by decide +kernel⟩,
   ⟨st { base with aeroPin := { req := false } }, by decide +kernel⟩⟩

/-- The hypotheses of each clause of `Obligations.TransportAndBulkWrites` can be met. -/
theorem witness_TransportAndBulkWrites :
    (∃ (s : State) (chip : BitVec 15) (c : Ctx) (cls : Fin 2) (tseq : BitVec 16) (r : Nat) (k : Packet), List.find? (fun u =>
    u.fst == tseq.toNat) (Tab.get { } s.dev.xptTx (xptKey chip.toNat c.val (2 + cls.val))).unacked = some (tseq.toNat, r, k) ∧ r <
    3 ∧ s.dev.chained 8 0 2 = false)
    ∧ (∃ (s : State) (k : Packet), List.find? (fun k => k.ttype == 0 && k.cls == 2) s.dev.xptIn = some k ∧ k.tile = none ∧
    (s.dev.xptRcv (xptKey k.src k.tctx 2)).base = k.tseq ∧ (s.dev.xptRcv (xptKey k.src k.tctx 2)).got = [])
    ∧ (∃ (s : State) (k : Packet), List.find? (fun k => k.ttype == 0 && k.cls == 3) s.dev.xptIn = some k ∧ k.tile = none ∧
    (s.dev.xptRcv (xptKey k.src k.tctx 3)).base = k.tseq)
    ∧ (∃ (s : State) (chip : BitVec 15) (c : Ctx) (l : Nat), (s.dev.xptRcv (xptKey chip.toNat c.val 3)).lowest = some l)
    ∧ (∃ (s : State) (chip : BitVec 15) (c : Ctx) (cls : Fin 2) (p : Port), (s.dev.xptRcv (xptKey chip.toNat c.val (2 +
    cls.val))).since ≠ 0 ∧ s.dev.routePort chip.toNat = some p.val)
    ∧ (∃ (s : State) (k : Packet), List.find? (fun k => k.ttype == 1) s.dev.xptIn = some k ∧ (Tab.get { } s.dev.xptTx (xptKey
    k.src k.tctx (bits k.w2 63 62))).waiting = [])
    ∧ (∃ (s : State) (loc : Fin 33) (k : Packet), List.find? (fun k => k.cls == 2) (Tab.get [] s.dev.endIn loc.val) = some k ∧
    k.via % 2 = 0 ∧ s.dev.pageCopying (bits k.w2 46 0) (bits k.w2 55 47 + 1) = false ∧ (∀ (i : Nat), i < bits k.w2 55 47 + 1 →
    bulkMaps (bits k.w2 46 0 + i) = true ∧ fanAt (bits k.w2 46 0 + i) = none))
    ∧ (∃ (s : State) (loc : Fin 33) (k : Packet), List.find? (fun k => k.cls == 2) (Tab.get [] s.dev.endIn loc.val) = some k ∧
    k.via % 2 = 0 ∧ s.dev.pageCopying (bits k.w2 46 0) (bits k.w2 55 47 + 1) = false ∧ (∀ (i : Nat), i < bits k.w2 55 47 + 1 →
    bulkMaps (bits k.w2 46 0 + i) = true ∧ Option.any (fun x => !(s.dev.ftOwners x.fst (x.snd / 16 % 4096)).all fun c =>
    s.dev.midWritable x.fst c (x.snd / 16 / 4096)) (fanAt (bits k.w2 46 0 + i)) = true)) :=
  ⟨⟨st { base with xptTx := [(xptKey 0x7FFF 7 3, txOpen)] }, 0x7FFF, 7, 1, 0xFFFF, 2, packet 3 0 1, by decide +kernel⟩,
   ⟨st { chipLast base with xptIn := [packet 3 0 1, packet 2 0x100 32], xptRx := [(xptKey 0x7FFE 7 2, { base := 0xFFFF })] },
   packet 2 0x100 32, by decide +kernel⟩,
   ⟨st
   { chipLast base with xptIn := [packet 2 0x100 32, packetQueue], xptRx := [(xptKey 0x7FFE 7 3, { base := 0xFFFF, lowest := some 1 })] },
   packetQueue, by decide +kernel⟩,
   ⟨st { base with xptRx := [(xptKey 0x7FFF 7 3, { base := 0xFFFF, lowest := some 0 })] }, 0x7FFF, 7, 0, by decide +kernel⟩,
   ⟨st
   { (port5 base 4 {}).wr RIM_TOPO 0 (RIM_TOPO_SZ_M1.put 0 2) with xptRx := [(xptKey 2 7 3, { base := 0xFFFF, since := 1, got := [0, 64] })] },
   2, 7, 1, 5, by decide +kernel⟩,
   ⟨st
   { chipLast base with xptIn := [packetAck], xptTx := [(xptKey 0x7FFE 7 2, { next := 6, unacked := [(0xFFFE, 0, packet 2 0 32), (0xFFFF, 0, packet 2 0 32), (0, 0, packet 2 0 32), (1, 0, packet 2 0 32), (2, 0, packet 2 0 32), (3, 0, packet 2 0 32)] })] },
   packetAck, by decide +kernel⟩,
   ⟨st { base with endIn := [(32, [packet 3 0 1, packet 2 0x103FBFFFE0 32])] }, 32, packet 2 0x103FBFFFE0 32, by decide +kernel⟩,
   ⟨st { fanOfSeven base with endIn := [(0, [packet 2 (0x1000000000 + 31 * 0x2000000 + 0x1B40000 + 8191 * 16 + 15) 1])] }, 0,
   packet 2 (0x1000000000 + 31 * 0x2000000 + 0x1B40000 + 8191 * 16 + 15) 1, by decide +kernel⟩⟩

/-- The hypotheses of each clause of `Obligations.RimTableAndReset` can be met. -/
theorem witness_RimTableAndReset :
    (∃ (s : State), (s.dev.rimOwners (s.dev.fld RIM_TAB_SEL 0 RIM_TAB_SEL_INDEX)).any s.dev.confidential = false ∧ s.dev.rimEntry
    (s.dev.fld RIM_TAB_SEL 0 RIM_TAB_SEL_VERSION) (s.dev.fld RIM_TAB_SEL 0 RIM_TAB_SEL_INDEX) < 2 ^ 128)
    ∧ (∃ (s : State), (s.dev.rimOwners (s.dev.fld RIM_TAB_SEL 0 RIM_TAB_SEL_INDEX)).any s.dev.confidential = false ∧
    ((s.dev.rimOwners (s.dev.fld RIM_TAB_SEL 0 RIM_TAB_SEL_INDEX)).all fun c => s.dev.rimWritable c (s.dev.fld RIM_TAB_SEL 0
    RIM_TAB_SEL_VERSION)) = true)
    ∧ (∃ (s : State), (s.dev.rimOwners (s.dev.fld RIM_TAB_SEL 0 RIM_TAB_SEL_INDEX)).any s.dev.confidential = false ∧
    ((s.dev.rimOwners (s.dev.fld RIM_TAB_SEL 0 RIM_TAB_SEL_INDEX)).all fun c => s.dev.rimWritable c (s.dev.fld RIM_TAB_SEL 0
    RIM_TAB_SEL_VERSION)) = false)
    ∧ (∃ (who : Requester) (s : State), viaPf who = true ∧ (s.dev.rimOwners (s.dev.fld RIM_TAB_SEL 0 RIM_TAB_SEL_INDEX)).any
    s.dev.confidential = true)
    ∧ (∃ (x : W32), RIM_TAB_REGION_BASE.get (BitVec.setWidth 64 x) + RIM_TAB_REGION_COUNT.get (BitVec.setWidth 64 x) ≤ 16384)
    ∧ (∃ (x : W32), RIM_TAB_REGION_BASE.get (BitVec.setWidth 64 x) + RIM_TAB_REGION_COUNT.get (BitVec.setWidth 64 x) > 16384)
    ∧ (∃ (s : State), (∀ (c : Ctx), (s.dev.gen c.val).running = true → s.dev.flag USH_STATUS c.val USH_STATUS_PLACED = false)) :=
  ⟨⟨st { rimRegion base 1 0 with rimTab := [(32767, 2 ^ 128 - 1)], rimBad := [32767] }, by decide +kernel⟩,
   ⟨st { rimRegion base 1 255 with rimTab := [(32767, 2 ^ 128 - 1)], rimHeld := 0xABC }, by decide +kernel⟩,
   ⟨st { rimRegion base 1 127 with rimTab := [(32767, 2 ^ 128 - 1)], rimHeld := 0 }, by decide +kernel⟩,
   ⟨.pf, st { rimRegion base 1 255 |>.setF SEC_CTX_STATUS 7 SEC_CTX_STATUS_CONFIDENTIAL 1 with rimTab := [(32767, 2 ^ 128 - 1)] },
   by decide +kernel⟩,
   ⟨BitVec.ofNat 32 (RIM_TAB_REGION_COUNT.put (RIM_TAB_REGION_BASE.put 0xFFFFFFFFFFFFFFFF 16383) 1).toNat, by decide +kernel⟩,
   ⟨BitVec.ofNat 32 (RIM_TAB_REGION_COUNT.put (RIM_TAB_REGION_BASE.put 0 1) 16384).toNat, by decide +kernel⟩,
   ⟨st
   { base.setGen 7 { running := true } |>.setF USH_STATUS 7 USH_STATUS_PLACED 0 |>.setGen 6 { running := false } with rimTab := [(3, 1), (32767, 2 ^ 128 - 1)], pkIn := [packetQueue], swIn := [(7, [hostWord])], gwIn := [(3, [])], rimIn := [(7, [flitOne])], xptIn := [packetAck] },
   by decide +kernel⟩⟩

/-- The hypotheses of each clause of `Obligations.SensorPacketsAndHandshakes` can be met. -/
theorem witness_SensorPacketsAndHandshakes :
    (∃ (s : State) (n : Fin 4) (hdr : W32), s.dev.flag SNS_CSI_CTRL n.val SNS_CSI_CTRL_EN = true ∧ csiHeader hdr = none)
    ∧ (∃ (s : State) (n : Fin 4) (hdr : W32) (v : Nat) (fixed : Bool), s.dev.flag SNS_CSI_CTRL n.val SNS_CSI_CTRL_EN = true ∧
    csiHeader hdr = some (v, fixed) ∧ v % 64 < 16)
    ∧ (∃ (s : State) (n : Fin 4) (hdr : W32) (v : Nat) (fixed : Bool), s.dev.flag SNS_CSI_CTRL n.val SNS_CSI_CTRL_EN = true ∧
    csiHeader hdr = some (v, fixed) ∧ 16 ≤ v % 64 ∧ (v % 64 < 48 ∨ v / 2 ^ 24 ≠ 0))
    ∧ (∃ (s : State) (n : Fin 4) (hdr : W32) (bytes : List Byte) (v : Nat) (fixed : Bool), s.dev.flag SNS_CSI_CTRL n.val
    SNS_CSI_CTRL_EN = true ∧ csiHeader hdr = some (v, fixed) ∧ (s.dev.flag SNS_IN_CFG (4 * n.val + if v / 2 ^ 24 ≠ 0 then 0 else v
    / 64 % 4) SNS_IN_CFG_EN = true) ∧ v % 64 = 48 ∧ v / 2 ^ 24 = 0 ∧ ((s.dev.fld SNS_IN_CFG (4 * n.val + if v / 2 ^ 24 ≠ 0 then 0
    else v / 64 % 4) SNS_IN_CFG_DT_MASK).testBit 0 = true) ∧ (Tab.get (0, 0) s.dev.csi n.val).snd = 0 ∧ (s.dev.fld SNS_LAYOUT_A (4
    * n.val + if v / 2 ^ 24 ≠ 0 then 0 else v / 64 % 4) SNS_LAYOUT_A_WSIZE = 1) ∧ v / 256 % 65536 = 4 ∧ bytes.length = 6 ∧ crc 16
    4129 65535 0 true true (List.take 4 bytes) = at_ bytes 4 2 ∧ (s.dev.fld SNS_LAYOUT_A (4 * n.val + if v / 2 ^ 24 ≠ 0 then 0
    else v / 64 % 4) SNS_LAYOUT_A_TYPE_W ≠ 0) ∧ (s.dev.fld SNS_LAYOUT_A (4 * n.val + if v / 2 ^ 24 ≠ 0 then 0 else v / 64 % 4)
    SNS_LAYOUT_A_TB_TYPE ≠ s.dev.fld SNS_LAYOUT_A (4 * n.val + if v / 2 ^ 24 ≠ 0 then 0 else v / 64 % 4) SNS_LAYOUT_A_EV_TYPE) ∧
    (bitField (at_ bytes 0 4) (s.dev.fld SNS_LAYOUT_A (4 * n.val + if v / 2 ^ 24 ≠ 0 then 0 else v / 64 % 4)
    SNS_LAYOUT_A_TYPE_POS) (min 8 (s.dev.fld SNS_LAYOUT_A (4 * n.val + if v / 2 ^ 24 ≠ 0 then 0 else v / 64 % 4)
    SNS_LAYOUT_A_TYPE_W)) = s.dev.fld SNS_LAYOUT_A (4 * n.val + if v / 2 ^ 24 ≠ 0 then 0 else v / 64 % 4) SNS_LAYOUT_A_TB_TYPE))
    ∧ (∃ (s : State) (i : Fin 2), (Tab.get { } s.dev.aeri i.val).req = false ∧ (Tab.get { } s.dev.aeri i.val).ack = false ∧
    s.dev.snsFull (16 + i.val) = false ∧ s.dev.flag SNS_IN_CFG (16 + i.val) SNS_IN_CFG_EN = true)
    ∧ (∃ (s : State) (i : Fin 2), (Tab.get { } s.dev.aeri i.val).req = false ∧ (Tab.get { } s.dev.aeri i.val).ack = false ∧
    s.dev.snsFull (16 + i.val) = true)
    ∧ (∃ (s : State) (i : Fin 2) (k : Nat), (Tab.get { } s.dev.aeri i.val).held = some k ∧ s.dev.snsFull (16 + i.val) = false ∧
    s.dev.flag SNS_IN_CFG (16 + i.val) SNS_IN_CFG_EN = true)
    ∧ (∃ (s : State) (i : Fin 2), (Tab.get { } s.dev.aeri i.val).req = true ∧ (Tab.get { } s.dev.aeri i.val).ack = true) :=
  ⟨⟨st (csi base), 3, 3, by decide +kernel⟩,
   ⟨st (csi base), 3, csiWord 0xCF, 0xCF, false, by decide +kernel⟩,
   ⟨st (csi base), 3, csiWord 0xD0, 0xD0, false, by decide +kernel⟩,
   ⟨st (sensorLayout base), 3, csiWord 0x4F0, timeWord, 0x4F0, false, by decide +kernel⟩,
   ⟨st (aerInput base {} 1023), 1, by decide +kernel⟩,
   ⟨st (aerInput base {} 1024), 1, by decide +kernel⟩,
   ⟨st (aerInput base { req := true, held := some 0xFFFFFF } 1023), 1, 0xFFFFFF, by decide +kernel⟩,
   ⟨st (aerInput base { req := true, ack := true } 0), 1, by decide +kernel⟩⟩

/-- The hypotheses of each clause of `Obligations.SensorRegisterWrites` can be met. -/
theorem witness_SensorRegisterWrites :
    (∃ (s : State) (i : Fin 18) (v : W64), s.dev.flag SNS_IN_CFG i.val SNS_IN_CFG_EN = false ∧ SNS_IN_CFG_EN.get v = 1)
    ∧ (∃ (s : State) (n : Fin 4) (v : W32), s.dev.flag SNS_CSI_CTRL n.val SNS_CSI_CTRL_EN = false ∧ SNS_CSI_CTRL_EN.get
    (BitVec.setWidth 64 v) = 1)
    ∧ (∃ (w : W64), 8 ≤ CRC_CFG_WIDTH.get w ∧ CRC_CFG_WIDTH.get w ≤ 32)
    ∧ (∃ (w : W64), (CRC_CFG_WIDTH.get w < 8 ∨ 32 < CRC_CFG_WIDTH.get w)) :=
  ⟨⟨st { base.setF SNS_IN_CFG 17 SNS_IN_CFG_EN 0 with sns := [(17, snsInput)] }, 17, 0xFFFFFFFFFFFFFFFF, by decide +kernel⟩,
   ⟨st (base.setF SNS_CSI_CTRL 3 SNS_CSI_CTRL_EN 0), 3, 0xFFFFFFFF, by decide +kernel⟩,
   ⟨8, by decide +kernel⟩,
   ⟨7, by decide +kernel⟩⟩

/-- The hypotheses of each clause of `Obligations.EventRingsFollowTheirPointers` can be met. -/
theorem witness_EventRingsFollowTheirPointers :
    (∃ (c : Ctx) (v : W32) (s : State), HST_INJ_PTR_TAIL.get (BitVec.setWidth 64 v) < ringEntries (s.dev.fld HST_INJ_CTRL c.val
    HST_INJ_CTRL_SIZE))
    ∧ (∃ (c : Ctx) (v : W32) (s : State), ringEntries (s.dev.fld HST_INJ_CTRL c.val HST_INJ_CTRL_SIZE) ≤ HST_INJ_PTR_TAIL.get
    (BitVec.setWidth 64 v))
    ∧ (∃ (c : Ctx) (v : W32) (s : State), s.dev.flag HST_INJ_CTRL c.val HST_INJ_CTRL_EN = false ∧ HST_INJ_CTRL_EN.get
    (BitVec.setWidth 64 v) = 1)
    ∧ (∃ (c : Ctx) (s : State), s.dev.flag HST_INJ_CTRL c.val HST_INJ_CTRL_EN = true ∧ s.dev.fld HST_INJ_CTRL c.val
    HST_INJ_CTRL_SIZE ≠ 0 ∧ s.dev.injStopped.contains c.val = false ∧ s.dev.dmaOk (s.dev.fnOf c.val) = true ∧ Tab.get 0
    s.dev.injOut c.val = 0 ∧ s.dev.fld HST_INJ_PTR c.val HST_INJ_PTR_HEAD < ringEntries (s.dev.fld HST_INJ_CTRL c.val
    HST_INJ_CTRL_SIZE) ∧ s.dev.fld HST_INJ_PTR c.val HST_INJ_PTR_TAIL < ringEntries (s.dev.fld HST_INJ_CTRL c.val
    HST_INJ_CTRL_SIZE) ∧ s.dev.fld HST_INJ_PTR c.val HST_INJ_PTR_HEAD ≠ s.dev.fld HST_INJ_PTR c.val HST_INJ_PTR_TAIL)
    ∧ (∃ (c : Ctx) (s : State), 0 < Tab.get 0 s.dev.injOut c.val)
    ∧ (∃ (c : Ctx) (w : W64) (s : State) (bs : List Byte), Tab.get 0 s.dev.injOut c.val = 1 ∧ bs.length = 8 ∧ w = BitVec.ofNat 64
    (leNat bs) ∧ s.dev.fld HST_INJ_PTR c.val HST_INJ_PTR_HEAD < ringEntries (s.dev.fld HST_INJ_CTRL c.val HST_INJ_CTRL_SIZE) ∧
    (evKind w = 1 ∨ evKind w = 2 ∨ evKind w = 3) ∧ (s.dev.gen c.val).running = true)
    ∧ (∃ (c : Ctx) (w : W64) (s : State) (bs : List Byte), Tab.get 0 s.dev.injOut c.val = 1 ∧ bs.length = 8 ∧ w = BitVec.ofNat 64
    (leNat bs) ∧ s.dev.fld HST_INJ_PTR c.val HST_INJ_PTR_HEAD < ringEntries (s.dev.fld HST_INJ_CTRL c.val HST_INJ_CTRL_SIZE) ∧
    evKind w = 0)
    ∧ (∃ (c : Ctx) (j : Fin 4) (v : W32) (s : State), HST_OUT_PTR_HEAD.get (BitVec.setWidth 64 v) < ringEntries (s.dev.fld
    HST_OUT_CTRL (c.val * 4 + j.val) HST_OUT_CTRL_SIZE))
    ∧ (∃ (c : Ctx) (j : Fin 4) (v : W32) (s : State), ringEntries (s.dev.fld HST_OUT_CTRL (c.val * 4 + j.val) HST_OUT_CTRL_SIZE) ≤
    HST_OUT_PTR_HEAD.get (BitVec.setWidth 64 v))
    ∧ (∃ (c : Ctx) (j : Fin 4) (w : W64) (s : State), s.dev.flag HST_OUT_CTRL (c.val * 4 + j.val) HST_OUT_CTRL_EN = false ∧
    HST_OUT_CTRL_EN.get w = 1) :=
  ⟨⟨7, BitVec.ofNat 32 (HST_INJ_PTR_TAIL.put 0 65535).toNat, st (injRing base 1 31 5 6 0), by decide +kernel⟩,
   ⟨7, BitVec.ofNat 32 (HST_INJ_PTR_TAIL.put 0 64).toNat, st (injRing base 1 1 5 6 0), by decide +kernel⟩,
   ⟨7, 0xFFFFFFFF, st { injRing base 0 7 5 6 0 with injStopped := [7] }, by decide +kernel⟩,
   ⟨7, st { injRing base 1 16 65535 65534 0 with pcie := {} }, by decide +kernel⟩,
   ⟨7, st (injRing base 1 16 65535 0 512), by decide +kernel⟩,
   ⟨7, hostEvent, st ((injRing base 1 6 63 5 1).setGen 7 { running := true }), leBytes 8 hostEvent.toNat, by decide +kernel⟩,
   ⟨7, 5, st (injRing base 1 16 65535 0 1), leBytes 8 5, by decide +kernel⟩,
   ⟨7, 3, BitVec.ofNat 32 (HST_OUT_PTR_HEAD.put 0 63).toNat, st (outRing base 1 6), by decide +kernel⟩,
   ⟨7, 3, BitVec.ofNat 32 (HST_OUT_PTR_HEAD.put 0 64).toNat, st (outRing base 1 6), by decide +kernel⟩,
   ⟨7, 3, 0xFFFFFFFFFFFFFFFF, st (outRing base 0 6), by decide +kernel⟩⟩

/-- The hypotheses of each clause of `Obligations.SidebandPortsAnswer` can be met. -/
theorem witness_SidebandPortsAnswer :
    (∃ (s : State), s.dev.phase ≠ BootPhase.off)
    ∧ (∃ (s : State) (code : BitVec 8), s.dev.phase ≠ BootPhase.off ∧ smbListed code.toNat = false)
    ∧ (∃ (s : State) (b : Byte), s.dev.phase ≠ BootPhase.off ∧ b ≠ smbSendPec s.dev.smbAddr 240)
    ∧ (∃ (s : State) (pec' : Option Byte), s.dev.phase ≠ BootPhase.off ∧ pec' ∈ [none, some (smbSendPec s.dev.smbAddr 240)] ∧
    s.dev.hottest < s.dev.alertAt - 256 * ↑(max 1 (s.dev.fld PWR_THERM_CFG 0 PWR_THERM_CFG_HYST_C)))
    ∧ (∃ (s : State), s.dev.lifecycle ≠ 1)
    ∧ (∃ (s : State), s.dev.lifecycle ≠ 1)
    ∧ (∃ (s : State), s.dev.lifecycle ≠ 1)
    ∧ (∃ (s : State) (code : BitVec 8), 6 < code.toNat ∧ code.toNat ≠ 255 ∧ s.dev.dbgActive.testBit 3 = false)
    ∧ (∃ (s : State) (code : BitVec 8), 6 < code.toNat ∧ code.toNat ≠ 255 ∧ s.dev.dbgActive.testBit 3 = true) :=
  ⟨⟨st (sideband base), by decide +kernel⟩,
   ⟨st (sideband base), 0x12, by decide +kernel⟩,
   ⟨st (sideband base), smbSendPec 0x7F 0xF0 ^^^ 1, by decide +kernel⟩,
   ⟨st (cooling base (99*256-1)), none, by decide +kernel⟩,
   ⟨st (tapAt base 0), by decide +kernel⟩,
   ⟨st (tapAt base 2), by decide +kernel⟩,
   ⟨st (tapAt base 3), by decide +kernel⟩,
   ⟨st (debugScope base 7), 7, by decide +kernel⟩,
   ⟨st (debugScope base 8), 0xFE, by decide +kernel⟩⟩

/-- The hypotheses of each clause of `Obligations.DeployedPinsAreNotSeized` can be met. -/
theorem witness_DeployedPinsAreNotSeized :
    (∃ (s : State), s.dev.lifecycle = 1) :=
  ⟨st (tapAt base 1), by decide +kernel⟩

/-- The hypotheses of each clause of `Obligations.PcieEventsReachTheDevice` can be met. -/
theorem witness_PcieEventsReachTheDevice :
    (∃ (s : State), s.dev.pcie.perst = true ∧ (s.dev.phase = BootPhase.held ∨ s.dev.phase = BootPhase.off))
    ∧ (∃ (s : State), s.dev.pcie.perst = false ∧ s.dev.phase ≠ BootPhase.hibernate ∧ s.dev.phase ≠ BootPhase.off)
    ∧ (∃ (s : State), s.dev.awake = false)
    ∧ (∃ (s : State), s.dev.awake = false)
    ∧ (∃ (s : State), s.dev.awake = true)
    ∧ (∃ (s : State), s.dev.awake = true)
    ∧ (∃ (c : Ctx) (s : State), s.dev.vfOn c.val = false)
    ∧ (∃ (c : Ctx) (s : State), s.dev.vfOn c.val = true) :=
  ⟨⟨st { hostHeld base with phase := .held, pcie := { perst := true } }, by decide +kernel⟩,
   ⟨st { hostHeld base with phase := .held, pcie := { link := false } }, by decide +kernel⟩,
   ⟨st { hostHeld base with phase := .stopped }, by decide +kernel⟩,
   ⟨st { hostHeld base with phase := .held }, by decide +kernel⟩,
   ⟨st { hostHeld base with phase := .ready }, by decide +kernel⟩,
   ⟨st { hostHeld base with phase := .recovery }, by decide +kernel⟩,
   ⟨7, st { hostHeld base with pcie := { numVfs := 7 } }, by decide +kernel⟩,
   ⟨7, st
   ({ hostHeld base with phase := .ready, pcie := { numVfs := 8 }, descs := [(7, descGood)], injStopped := [7], outRings := [(31, { since := 4 })] }.setGen
   7 { running := true }), by decide +kernel⟩⟩

/-- The hypotheses of each clause of `Obligations.QueuesTakeCommandsAndGiveRecords` can be met. -/
theorem witness_QueuesTakeCommandsAndGiveRecords :
    (∃ (q : Fin 24) (v : W32) (s : State), HST_SQ_PTR_TAIL.get (BitVec.setWidth 64 v) < queueEntries (s.dev.fld HST_SQ_CTRL q.val
    HST_SQ_CTRL_SIZE))
    ∧ (∃ (q : Fin 24) (v : W32) (s : State), queueEntries (s.dev.fld HST_SQ_CTRL q.val HST_SQ_CTRL_SIZE) ≤ HST_SQ_PTR_TAIL.get
    (BitVec.setWidth 64 v))
    ∧ (∃ (q : Fin 24) (v : W32) (s : State), HST_CQ_PTR_HEAD.get (BitVec.setWidth 64 v) < queueEntries (s.dev.fld HST_CQ_CTRL
    q.val HST_CQ_CTRL_SIZE))
    ∧ (∃ (q : Fin 24) (v : W32) (s : State), queueEntries (s.dev.fld HST_CQ_CTRL q.val HST_CQ_CTRL_SIZE) ≤ HST_CQ_PTR_HEAD.get
    (BitVec.setWidth 64 v))
    ∧ (∃ (q : Fin 24) (v : W32) (s : State), s.dev.flag HST_SQ_CTRL q.val HST_SQ_CTRL_EN = false ∧ HST_SQ_CTRL_EN.get
    (BitVec.setWidth 64 v) = 1)
    ∧ (∃ (q : Fin 24) (w : W64) (s : State), s.dev.flag HST_CQ_CTRL q.val HST_CQ_CTRL_EN = false ∧ HST_CQ_CTRL_EN.get w = 1)
    ∧ (∃ (q : Fin 24) (s : State), s.dev.sqTakes q.val = true)
    ∧ (∃ (q : Fin 24) (s : State) (b : List Byte), s.dev.sqTakes q.val = true ∧ b.length = 64 ∧ fenceOk (s.dev.cmdsOf q.val) (at_
    b 1 1) = true ∧ at_ b 60 4 ≠ crc32c (List.take 60 b))
    ∧ (∃ (q : Fin 24) (s : State) (b : List Byte), s.dev.sqTakes q.val = true ∧ b.length = 64 ∧ fenceOk (s.dev.cmdsOf q.val) (at_
    b 1 1) = true ∧ at_ b 60 4 = crc32c (List.take 60 b) ∧ s.dev.flag HST_SQ_STATUS q.val HST_SQ_STATUS_ALIVE_VALID = true ∧
    s.dev.fld HST_SQ_STATUS q.val HST_SQ_STATUS_LAST_ALIVE = at_ b 5 1)
    ∧ (∃ (q : Fin 24) (s : State) (b : List Byte), s.dev.sqTakes q.val = true ∧ b.length = 64 ∧ fenceOk (s.dev.cmdsOf q.val) (at_
    b 1 1) = true ∧ at_ b 60 4 = crc32c (List.take 60 b) ∧ s.dev.flag HST_SQ_STATUS q.val HST_SQ_STATUS_ALIVE_VALID = false ∧
    s.dev.phase = BootPhase.ready ∧ at_ b 0 1 = 0 ∧ at_ b 6 2 = 0)
    ∧ (∃ (q : Fin 24) (s : State) (c : Cmd), (s.dev.cmdsOf q.val).head? = some c ∧ c.stage = 2 ∧ c.remote = none ∧ c.cq < 24 ∧ (∀
    (y : Cmd), y ∈ s.dev.cmds → y.wait = CmdWait.none) ∧ s.dev.cqOpen c.cq = true ∧ s.dev.cqStopped.contains c.cq = false ∧
    s.dev.cqFull c.cq = false ∧ s.dev.dmaOk (s.dev.queueFn c.cq) = true ∧ s.dev.hibernating = none)
    ∧ (∃ (q : Fin 24) (s : State), s.dev.fld HST_CQ_CTRL q.val HST_CQ_CTRL_TIMER_US ≠ 0 ∧ 0 < (Tab.get { } s.dev.cqs q.val).since)
    ∧ (∃ (s : State) (h : Nat) (b : List Byte) (popped : Dev), s.dev.phase = BootPhase.ready ∧ s.dev.popMessage 0 15 = some (h, b,
    popped) ∧ b.length = 64 ∧ s.dev.cmds = [] ∧ at_ b 60 4 ≠ crc32c (List.take 60 b))
    ∧ (∃ (s : State) (h : Nat) (b : List Byte) (popped : Dev), s.dev.phase = BootPhase.ready ∧ s.dev.popMessage 0 15 = some (h, b,
    popped) ∧ b.length = 64 ∧ s.dev.cmds = [] ∧ at_ b 60 4 = crc32c (List.take 60 b) ∧ s.dev.remoteAlive = [] ∧
    (popped.packetCheck
    { packetCmd s.dev.nextCmd 24 0 (if 48 ≤ mhSrc h ∧ mhSrc h ≤ 55 then some (mhSrc h - 48) else none) b with remote := some (mhChip h, mhSrc h, at_ b 56 1) }
    = none)) :=
  ⟨⟨23, sqTail 4095, st (sqAt base 23 1 31 3 4), by decide +kernel⟩,
   ⟨23, sqTail 16, st (sqAt base 23 1 4 3 4), by decide +kernel⟩,
   ⟨23, cqHead 4095, st (cqAt base 23 1 31 3 4), by decide +kernel⟩,
   ⟨23, cqHead 4095, st (cqAt base 23 1 11 3 4), by decide +kernel⟩,
   ⟨23, 0xFFFFFFFF, st (sqAt base 23 0 7 3 4), by decide +kernel⟩,
   ⟨23, 0xFFFFFFFFFFFFFFFF, st { cqAt base 23 0 7 3 4 with cqs := [(23, { phase := false, since := 5 })], cqStopped := [23] },
   by decide +kernel⟩,
   ⟨23, st (sqReady base), by decide +kernel⟩,
   ⟨23, st (sqReady base), packetOf 0 0 7 5 [] 1, by decide +kernel⟩,
   ⟨23, st ((sqReady base).setF HST_SQ_STATUS 23 HST_SQ_STATUS_ALIVE_VALID 1 |>.setF HST_SQ_STATUS 23 HST_SQ_STATUS_LAST_ALIVE 5),
   packetOf 0x77 0 7 5 [] 0, by decide +kernel⟩,
   ⟨23, st ((sqReady base).setF HST_SQ_STATUS 23 HST_SQ_STATUS_ALIVE_VALID 0), packetOf 0 1 7 255 [] 0, by decide +kernel⟩,
   ⟨23, st (recordsReady base), cmdEnded, by decide +kernel⟩,
   ⟨23, st ((recordsReady base).setF HST_CQ_CTRL 23 HST_CQ_CTRL_TIMER_US 1), by decide +kernel⟩,
   pop15_witness,
   remote_witness⟩

/-- The hypotheses of each clause of `Obligations.DeviceCommandsComplete` can be met. -/
theorem witness_DeviceCommandsComplete :
    (∃ (id : Nat) (x : Cmd) (s : State), Ready s.dev id 0 x)
    ∧ (∃ (id : Nat) (s : State), s.dev.cmdOf id = none)
    ∧ (∃ (id : Nat) (x : Cmd) (s : State), s.dev.cmdOf id = some x ∧ s.dev.mayRun x = false)
    ∧ (∃ (id : Nat) (x : Cmd) (s : State), Ready s.dev id 1 x)
    ∧ (∃ (id : Nat) (x : Cmd) (s : State), Ready s.dev id 2 x ∧ x.p 8 1 ≠ 4 ∧ x.p 8 1 ≠ 8)
    ∧ (∃ (id : Nat) (x : Cmd) (s : State), Ready s.dev id 2 x ∧ (x.p 8 1 = 4 ∨ x.p 8 1 = 8))
    ∧ (∃ (id : Nat) (x : Cmd) (s : State), Ready s.dev id 3 x ∧ x.p 8 1 ≠ 4 ∧ x.p 8 1 ≠ 8)
    ∧ (∃ (id : Nat) (x : Cmd) (s : State), Ready s.dev id 3 x ∧ (x.p 8 1 = 4 ∨ x.p 8 1 = 8))
    ∧ (∃ (id : Nat) (x : Cmd) (s : State), Ready s.dev id 4 x ∧ x.p 12 2 = 0)
    ∧ (∃ (id : Nat) (x : Cmd) (s : State), Ready s.dev id 4 x ∧ 512 < x.p 12 2)
    ∧ (∃ (id : Nat) (x : Cmd) (s : State), Ready s.dev id 4 x ∧ 1 ≤ x.p 12 2 ∧ x.p 12 2 ≤ 512 ∧ (x.p 14 1).testBit 0 = false ∧
    x.remote = none ∧ ((s.dev.started id).loads { fuses := s.fuses } x.who (x.p 8 4) (x.p 12 2)).snd.dmaOk x.fn = true ∧ x.p 0 8 %
    8 = 0) :=
  ⟨⟨5, nopCmd, st (held base nopCmd), by unfold Ready; decide +kernel⟩,
   ⟨7, st (held base nopCmd), by decide +kernel⟩,
   ⟨5, { nopCmd with stage := 1 }, st (held base { nopCmd with stage := 1 }), by decide +kernel⟩,
   ⟨5, identifyCmd, st (held base identifyCmd), by unfold Ready; decide +kernel⟩,
   ⟨5, readRegCmd 3 0, st (held base (readRegCmd 3 0)), by unfold Ready; decide +kernel⟩,
   ⟨5, readRegCmd 4 0xE0000, st (held base (readRegCmd 4 0xE0000)), by unfold Ready; decide +kernel⟩,
   ⟨5, writeRegCmd 16 0 5, st (held base (writeRegCmd 16 0 5)), by unfold Ready; decide +kernel⟩,
   ⟨5, writeRegCmd 4 0xE0000 0xFFFFFFFFFF, st (held base (writeRegCmd 4 0xE0000 0xFFFFFFFFFF)), by unfold Ready; decide +kernel⟩,
   ⟨5, readCountersCmd 0 0 0, st (held base (readCountersCmd 0 0 0)), by unfold Ready; decide +kernel⟩,
   ⟨5, readCountersCmd 513 0 0, st (held base (readCountersCmd 513 0 0)), by unfold Ready; decide +kernel⟩,
   ⟨5, readCountersCmd 2 0xE0000 0xFE, st { held base (readCountersCmd 2 0xE0000 0xFE) with pcie := {} },
   by unfold Ready; decide +kernel⟩⟩

/-- The hypotheses of each clause of `Obligations.ContextsRunByCommand` can be met. -/
theorem witness_ContextsRunByCommand :
    (∃ (id : Nat) (x : Cmd) (s : State), ReadyCtx s.dev id 18 x ∧ s.dev.flag USH_STATUS x.ctx USH_STATUS_PLACED = false)
    ∧ (∃ (id : Nat) (x : Cmd) (s : State), ReadyCtx s.dev id 18 x ∧ s.dev.flag USH_STATUS x.ctx USH_STATUS_PLACED = true ∧
    (s.dev.gen x.ctx).running = true)
    ∧ (∃ (id : Nat) (x : Cmd) (s : State), ReadyCtx s.dev id 18 x ∧ s.dev.flag USH_STATUS x.ctx USH_STATUS_PLACED = true ∧
    (s.dev.gen x.ctx).running = false ∧ Awake s.dev)
    ∧ (∃ (id : Nat) (x : Cmd) (s : State), ReadyCtx s.dev id 19 x ∧ (s.dev.gen x.ctx).running = false)
    ∧ (∃ (id : Nat) (x : Cmd) (s : State), ReadyCtx s.dev id 19 x ∧ (s.dev.gen x.ctx).running = true)
    ∧ (∃ (id : Nat) (x : Cmd) (s : State), ReadyCtx s.dev id 19 x ∧ (s.dev.gen x.ctx).running = true ∧ s.dev.migrs = [])
    ∧ (∃ (id : Nat) (x : Cmd) (s : State), ReadyCtx s.dev id 20 x ∧ 1 ≤ x.p 0 4 ∧ x.p 0 4 < 200)
    ∧ (∃ (id : Nat) (x : Cmd) (s : State), ReadyCtx s.dev id 20 x ∧ (x.p 0 4 = 0 ∨ 200 ≤ x.p 0 4) ∧ (x.p 8 1).testBit 0 = false)
    ∧ (∃ (id : Nat) (x : Cmd) (s : State), ReadyCtx s.dev id 21 x ∧ s.dev.fld CLP_PERIOD x.ctx CLP_PERIOD_PERIOD ≠ 0)
    ∧ (∃ (id : Nat) (x : Cmd) (s : State), ReadyCtx s.dev id 21 x ∧ s.dev.fld CLP_PERIOD x.ctx CLP_PERIOD_PERIOD = 0 ∧ (s.dev.gen
    x.ctx).running = false)
    ∧ (∃ (id : Nat) (x : Cmd) (s : State), ReadyCtx s.dev id 21 x ∧ s.dev.fld CLP_PERIOD x.ctx CLP_PERIOD_PERIOD = 0 ∧ (s.dev.gen
    x.ctx).running = true ∧ x.p 0 2 = 0)
    ∧ (∃ (id : Nat) (x : Cmd) (s : State), ReadyCtx s.dev id 21 x ∧ s.dev.fld CLP_PERIOD x.ctx CLP_PERIOD_PERIOD = 0 ∧ (s.dev.gen
    x.ctx).running = true ∧ x.p 0 2 ≠ 0) :=
  ⟨⟨5, startCmd, st (placed7 (heldOf7 base startCmd {}) 0), by unfold ReadyCtx Ready; decide +kernel⟩,
   ⟨5, startCmd, st (placed7 (heldOf7 base startCmd { running := true }) 1), by unfold ReadyCtx Ready; decide +kernel⟩,
   ⟨5, startCmd, st (placed7 (heldOf7 base startCmd {}) 1), by unfold ReadyCtx Awake Ready; decide +kernel⟩,
   ⟨5, stopCmd, st (heldOf7 base stopCmd {}), by unfold ReadyCtx Ready; decide +kernel⟩,
   ⟨5, stopCmd, st (heldOf7 base stopCmd { running := true }), by unfold ReadyCtx Ready; decide +kernel⟩,
   ⟨5, stopCmd, st (heldOf7 base stopCmd { running := true, upd := false, drained := false }),
   by unfold ReadyCtx Ready; decide +kernel⟩,
   ⟨5, tickPeriodCmd 1 0, st (heldOf7 base (tickPeriodCmd 1 0) {}), by unfold ReadyCtx Ready; decide +kernel⟩,
   ⟨5, tickPeriodCmd 200 2, st (heldOf7 base (tickPeriodCmd 200 2) {}), by unfold ReadyCtx Ready; decide +kernel⟩,
   ⟨5, stepCmd 1, st (period7 (heldOf7 base (stepCmd 1) {}) 200), by unfold ReadyCtx Ready; decide +kernel⟩,
   ⟨5, stepCmd 1, st (period7 (heldOf7 base (stepCmd 1) {}) 0), by unfold ReadyCtx Ready; decide +kernel⟩,
   ⟨5, stepCmd 0, st (period7 (heldOf7 base (stepCmd 0) { running := true }) 0), by unfold ReadyCtx Ready; decide +kernel⟩,
   ⟨5, stepCmd 0xFFFF, st (period7 (heldOf7 base (stepCmd 0xFFFF) { running := true, stepRemain := 1 }) 0),
   by unfold ReadyCtx Ready; decide +kernel⟩⟩

/-- The hypotheses of each clause of `Obligations.ContextCommandsAct` can be met. -/
theorem witness_ContextCommandsAct :
    (∃ (id : Nat) (x : Cmd) (s : State), ReadyCtx s.dev id 22 x ∧ x.p 24 1 ≤ 2 ∧ x.p 16 8 % 64 = 0 ∧ x.p 24 1 = 1 ∧ (s.dev.gen
    x.ctx).running = true)
    ∧ (∃ (id : Nat) (x : Cmd) (s : State), ReadyCtx s.dev id 22 x ∧ x.p 24 1 ≤ 2 ∧ x.p 16 8 = 0 ∧ x.p 24 1 ≠ 1)
    ∧ (∃ (id : Nat) (x : Cmd) (s : State), ReadyCtx s.dev id 23 x ∧ x.p 24 1 ≤ 2 ∧ x.p 16 8 = 64 ∧ (s.dev.gen x.ctx).running =
    true)
    ∧ (∃ (id : Nat) (x : Cmd) (s : State), ReadyCtx s.dev id 23 x ∧ x.p 24 1 ≤ 2 ∧ x.p 16 8 = 64 ∧ (s.dev.gen x.ctx).running =
    false ∧ s.dev.flag USH_STATUS x.ctx USH_STATUS_PLACED = false)
    ∧ (∃ (id : Nat) (x : Cmd) (data : Option (List Byte)) (bs : List Byte) (s : State), ReadyCtx s.dev id 23 x ∧ x.p 24 1 ≤ 2 ∧
    x.p 16 8 = 64 ∧ (s.dev.gen x.ctx).running = false ∧ s.dev.flag USH_STATUS x.ctx USH_STATUS_PLACED = true ∧ Awake s.dev ∧ (x.p
    25 1).testBit 0 = false ∧ Supplies s.dev x 0 64 data bs)
    ∧ (∃ (id : Nat) (x : Cmd) (s : State), ReadyCtx s.dev id 24 x ∧ x.p 8 4 = 0)
    ∧ (∃ (id : Nat) (x : Cmd) (data : Option (List Byte)) (bs : List Byte) (s : State), ReadyCtx s.dev id 24 x ∧ x.p 8 4 = 1 ∧
    Supplies s.dev x 0 8 data bs ∧ (s.dev.gen x.ctx).running = true ∧ (evKind (BitVec.ofNat 64 (leNat bs)) = 1 ∨ evKind
    (BitVec.ofNat 64 (leNat bs)) = 2 ∨ evKind (BitVec.ofNat 64 (leNat bs)) = 3))
    ∧ (∃ (id : Nat) (x : Cmd) (s : State), ReadyCtx s.dev id 25 x ∧ 3 < x.p 0 1)
    ∧ (∃ (id : Nat) (x : Cmd) (s : State), ReadyCtx s.dev id 25 x ∧ x.p 0 1 ≤ 3 ∧ x.p 8 8 % 4096 ≠ 0)
    ∧ (∃ (id : Nat) (x : Cmd) (s : State), ReadyCtx s.dev id 25 x ∧ x.p 0 1 ≤ 3 ∧ x.p 8 8 % 4096 = 0 ∧ x.p 1 1 ≤ 31)
    ∧ (∃ (id : Nat) (x : Cmd) (s : State), ReadyCtx s.dev id 48 x ∧ 3 < x.p 0 1)
    ∧ (∃ (id : Nat) (x : Cmd) (s : State), ReadyCtx s.dev id 48 x ∧ x.p 0 1 ≤ 3 ∧ ¬x.p 1 1 ∈ [0, 1, 2, 128, 255])
    ∧ (∃ (id : Nat) (x : Cmd) (s : State) (t : Tile), ReadyCtx s.dev id 48 x ∧ x.p 0 1 ≤ 3 ∧ x.p 1 1 ≤ 2 ∧ x.p 2 1 ≤ 3 ∧ (x.p 3
    1).testBit 0 = false ∧ Awake s.dev ∧ s.dev.tilesOf x.ctx = [t.val] ∧ (s.dev.tum t.val).sweep = none)
    ∧ (∃ (id : Nat) (x : Cmd) (s : State), ReadyCtx s.dev id 49 x ∧ 1 < x.p 2 1)
    ∧ (∃ (id : Nat) (x : Cmd) (s : State), ReadyCtx s.dev id 49 x ∧ x.p 2 1 = 0 ∧ (x.p 3 1).testBit 0 = false ∧ Awake s.dev)
    ∧ (∃ (id : Nat) (x : Cmd) (s : State), Ready s.dev id 88 x ∧ x.flags.testBit 1 = false) :=
  ⟨⟨5, snapshotCmd 1 64, st (heldOf7 base (snapshotCmd 1 64) { running := true }), by unfold ReadyCtx Ready; decide +kernel⟩,
   ⟨5, snapshotCmd 2 0, st (heldOf7 base (snapshotCmd 2 0) {}), by unfold ReadyCtx Ready; decide +kernel⟩,
   ⟨5, restoreCmd 2 1, st (heldOf7 base (restoreCmd 2 1) { running := true }), by unfold ReadyCtx Ready; decide +kernel⟩,
   ⟨5, restoreCmd 0 1, st (placed7 (heldOf7 base (restoreCmd 0 1) {}) 0), by unfold ReadyCtx Ready; decide +kernel⟩,
   ⟨5, restoreCmd 2 0, some (List.replicate 64 0xAB), List.replicate 64 0xAB, st
   { placed7 (heldOf7 base (restoreCmd 2 0) {}) 1 with pcie := {} }, by unfold ReadyCtx Supplies Awake Ready; decide +kernel⟩,
   ⟨5, injectCmd 0, st (heldOf7 base (injectCmd 0) {}), by unfold ReadyCtx Ready; decide +kernel⟩,
   ⟨5, injectCmd 1, some (leBytes 8 (evWord 3 4095 0xFFFFFFFF 1).toNat), leBytes 8 (evWord 3 4095 0xFFFFFFFF 1).toNat, st
   { heldOf7 base (injectCmd 1) { running := true } with pcie := {} }, by unfold ReadyCtx Supplies Ready; decide +kernel⟩,
   ⟨5, attachOutputCmd 4 31 1 0, st (heldOf7 base (attachOutputCmd 4 31 1 0) {}), by unfold ReadyCtx Ready; decide +kernel⟩,
   ⟨5, attachOutputCmd 3 31 1 4095, st (heldOf7 base (attachOutputCmd 3 31 1 4095) {}), by unfold ReadyCtx Ready; decide +kernel⟩,
   ⟨5, attachOutputCmd 3 31 255 0xFFFFFFFFFFFFF000, st (heldOf7 base (attachOutputCmd 3 31 255 0xFFFFFFFFFFFFF000) {}),
   by unfold ReadyCtx Ready; decide +kernel⟩,
   ⟨5, learnConfigCmd 4 0 0 0, st (heldOf7 base (learnConfigCmd 4 0 0 0) {}), by unfold ReadyCtx Ready; decide +kernel⟩,
   ⟨5, learnConfigCmd 3 3 0 0, st (heldOf7 base (learnConfigCmd 3 3 0 0) {}), by unfold ReadyCtx Ready; decide +kernel⟩,
   ⟨5, learnConfigCmd 3 2 3 0xFE, st (learnConfigOpen base 2), 31, by unfold ReadyCtx Awake Ready; decide +kernel⟩,
   ⟨5, epochCmd 2 0, st (heldOf7 base (epochCmd 2 0) {}), by unfold ReadyCtx Ready; decide +kernel⟩,
   ⟨5, epochCmd 0 0xFE, st (heldOf7 base (epochCmd 0 0xFE) {}), by unfold ReadyCtx Awake Ready; decide +kernel⟩,
   ⟨5, mqSendCmd, st (held base mqSendCmd), by unfold Ready; decide +kernel⟩⟩

/-- The hypotheses of each clause of `Obligations.UnitsRetireAndReturn` can be met. -/
theorem witness_UnitsRetireAndReturn :
    (∃ (id : Nat) (x : Cmd) (s : State) (off : Nat), Ready s.dev id 32 x ∧ x.unitOf.snd.snd = some off)
    ∧ (∃ (id : Nat) (x : Cmd) (s : State), Ready s.dev id 32 x ∧ x.unitOf.snd.snd = none ∧ Awake s.dev ∧ (s.dev.unit x.unitOf.fst
    x.unitOf.snd.fst).fst = 2)
    ∧ (∃ (id : Nat) (x : Cmd) (s : State), Ready s.dev id 32 x ∧ x.unitOf.snd.snd = none ∧ Awake s.dev ∧ x.unitOf.fst = 3 ∧
    (s.dev.unit x.unitOf.fst x.unitOf.snd.fst).fst = 0)
    ∧ (∃ (id : Nat) (x : Cmd) (s : State), Ready s.dev id 32 x ∧ x.unitOf.snd.snd = none ∧ Awake s.dev ∧ x.unitOf.fst = 3 ∧
    (s.dev.unit x.unitOf.fst x.unitOf.snd.fst).fst = 0)
    ∧ (∃ (id : Nat) (x : Cmd) (s : State), Ready s.dev id 33 x ∧ x.unitOf.snd.snd = none ∧ Awake s.dev ∧ ((s.dev.unit x.unitOf.fst
    x.unitOf.snd.fst).fst = 0 ∨ (s.dev.unit x.unitOf.fst x.unitOf.snd.fst).fst = 4))
    ∧ (∃ (id : Nat) (x : Cmd) (s : State), Ready s.dev id 33 x ∧ x.unitOf.snd.snd = none ∧ Awake s.dev ∧ (s.dev.unit x.unitOf.fst
    x.unitOf.snd.fst).fst = 1)
    ∧ (∃ (id : Nat) (x : Cmd) (s : State), Ready s.dev id 33 x ∧ x.unitOf.snd.snd = none ∧ Awake s.dev ∧ (s.dev.unit x.unitOf.fst
    x.unitOf.snd.fst).fst = 2 ∧ s.dev.beyond x.unitOf.fst x.unitOf.snd.fst = false ∧ x.unitOf.fst ≠ 5)
    ∧ (∃ (id : Nat) (x : Cmd) (s : State), Ready s.dev id 32 x ∧ x.unitOf.snd.snd = none ∧ Awake s.dev ∧ (s.dev.unit x.unitOf.fst
    x.unitOf.snd.fst).fst = 3 ∧ s.dev.cmds = [x] ∧ x.wait = CmdWait.none)
    ∧ (∃ (id : Nat) (x : Cmd) (s : State), Ready s.dev id 32 x ∧ x.unitOf.snd.snd = none ∧ Awake s.dev ∧ x.unitOf.fst = 4 ∧
    (s.dev.unit x.unitOf.fst x.unitOf.snd.fst).fst = 0 ∧ s.dev.fld MEM_STATUS 0 MEM_STATUS_SPARES ≠ 0)
    ∧ (∃ (id : Nat) (x : Cmd) (s : State) (ty : Fin 8) (ix : BitVec 48), (s.dev.unit ty.val ix.toNat).fst = 3 ∧ s.dev.cmds = [x] ∧
    x.id = id ∧ x.wait = CmdWait.test ty.val ix.toNat ∧ x.stage ≠ 2 ∧ (ty = 1 ∨ ty = 3))
    ∧ (∃ (id : Nat) (x : Cmd) (s : State) (ty : Fin 8) (ix : BitVec 48), (s.dev.unit ty.val ix.toNat).fst = 3 ∧ s.dev.cmds = [x] ∧
    x.id = id ∧ x.wait = CmdWait.test ty.val ix.toNat ∧ x.stage ≠ 2 ∧ ty ≠ 6)
    ∧ (∃ (s : State) (ty : Fin 8) (ix : BitVec 48), (s.dev.unit ty.val ix.toNat).fst = 3 ∧ (ty = 3 ∨ ty = 4))
    ∧ (∃ (s : State) (ty : Fin 8) (ix : BitVec 48), (s.dev.unit ty.val ix.toNat).fst = 3 ∧ (ty = 1 ∨ ty = 2))
    ∧ (∃ (s : State) (ty : Fin 8) (ix : BitVec 48), (s.dev.unit ty.val ix.toNat).fst = 3 ∧ ty ≠ 6) :=
  ⟨⟨5, unitCmd 0x20 1 32 0 0 0, st (heldInRun base (unitCmd 0x20 1 32 0 0 0)), 1, by unfold Ready; decide +kernel⟩,
   ⟨5, unitCmd 0x20 1 31 8 0 0, st (unitAt base (unitCmd 0x20 1 31 8 0 0) 2), by unfold Ready Awake; decide +kernel⟩,
   ⟨5, unitCmd 0x20 3 0 0 0 0x1000000400, st (unitAt base (unitCmd 0x20 3 0 0 0 0x1000000400) 0),
   by unfold Ready Awake; decide +kernel⟩,
   ⟨5, unitCmd 0x20 3 0 0 0 (rmSram + 2 ^ 23 - 1), st (unitAt base (unitCmd 0x20 3 0 0 0 (rmSram + 2 ^ 23 - 1)) 0),
   by unfold Ready Awake; decide +kernel⟩,
   ⟨5, unitCmd 0x21 2 31 0 0 0, st (unitAt base (unitCmd 0x21 2 31 0 0 0) 0), by unfold Ready Awake; decide +kernel⟩,
   ⟨5, unitCmd 0x21 5 0 0 0x15 0, st (unitAt base (unitCmd 0x21 5 0 0 0x15 0) 1), by unfold Ready Awake; decide +kernel⟩,
   ⟨5, unitCmd 0x21 1 31 8 0 0, st ((unitAt base (unitCmd 0x21 1 31 8 0 0) 2).wr SEC_LIC 0 (SEC_LIC_TILES.put 0 32)),
   by unfold Ready Awake; decide +kernel⟩,
   ⟨5, unitCmd 0x20 1 31 8 0 0, st (unitAt base (unitCmd 0x20 1 31 8 0 0) 3), by unfold Ready Awake; decide +kernel⟩,
   ⟨5, unitCmd 0x20 4 0 0 0 0x3000, st ((unitAt base (unitCmd 0x20 4 0 0 0 0x3000) 0).setF MEM_STATUS 0 MEM_STATUS_SPARES 1),
   by unfold Ready Awake; decide +kernel⟩,
   ⟨5, testCmd 0x21 1 31 8 0, st (unitAt base (testCmd 0x21 1 31 8 0) 3), 1, 287, by decide +kernel⟩,
   ⟨5, testCmd 0x21 4 0 0 0, st (unitAt base (testCmd 0x21 4 0 0 0) 3), 4, 0, by decide +kernel⟩,
   ⟨st { base.moveUnit 3 0x1000000000 3 0 with softRows := [0x1000000000] }, 3, 0x1000000000, by decide +kernel⟩,
   ⟨st (base.moveUnit 1 287 3 0), 1, 287, by decide +kernel⟩,
   ⟨st (base.moveUnit 1 287 3 0), 1, 287, by decide +kernel⟩⟩

/-- The hypotheses of each clause of `Obligations.PowerStatesChange` can be met. -/
theorem witness_PowerStatesChange :
    (∃ (id : Nat) (x : Cmd) (s : State), Ready s.dev id 56 x ∧ 3 < x.p 0 1)
    ∧ (∃ (id : Nat) (x : Cmd) (s : State), Ready s.dev id 56 x ∧ x.p 0 1 = 2 ∧ s.dev.fld PWR_STATUS 0 PWR_STATUS_STATE = 2)
    ∧ (∃ (id : Nat) (x : Cmd) (s : State), Ready s.dev id 56 x ∧ x.p 0 1 = 1 ∧ x.p 1 1 = 255 ∧ x.p 2 1 = 255 ∧ s.dev.fld
    PWR_STATUS 0 PWR_STATUS_STATE = 0)
    ∧ (∃ (id : Nat) (x : Cmd) (s : State) (c : Ctx), Ready s.dev id 56 x ∧ x.p 0 1 = 2 ∧ s.dev.fld PWR_STATUS 0 PWR_STATUS_STATE ≤
    1 ∧ (s.dev.gen c.val).running = true ∧ (∀ (k : Nat), k < c.val → (s.dev.gen k).running = false))
    ∧ (∃ (s : State) (wk : WakeInput), s.dev.phase = BootPhase.ready ∧ (s.dev.fires wk).snd = true ∧ (s.dev.fld PWR_WAKE_EN 0
    PWR_WAKE_EN_EN).testBit wk.source = false)
    ∧ (∃ (s : State) (wk : WakeInput), s.dev.phase = BootPhase.ready ∧ (s.dev.fires wk).snd = true ∧ (s.dev.fld PWR_WAKE_EN 0
    PWR_WAKE_EN_EN).testBit wk.source = true ∧ s.dev.fld PWR_STATUS 0 PWR_STATUS_STATE = 2 ∧ s.dev.napFrom.fst ≤ 1)
    ∧ (∃ (s : State) (wk : WakeInput), (s.dev.fires wk).snd = false)
    ∧ (∃ (s : State) (t : Tile), s.dev.fld PWR_STATUS 0 PWR_STATUS_STATE = 1 ∧ s.dev.gated.contains t.val = false ∧
    s.dev.halfStopped (halfOf t.val) = false ∧ (s.dev.tum t.val).sweep = none ∧ (s.dev.tum t.val).wt = none ∧ (∀ (e : Eng),
    (s.dev.eng t.val e.val).qX = [] ∧ (s.dev.eng t.val e.val).qO = [] ∧ (s.dev.eng t.val e.val).phase = none ∧ (s.dev.eng t.val
    e.val).gather = none))
    ∧ (∃ (v : W32), BitVec.getLsbD v 0 = true) :=
  ⟨⟨5, powerCmd 4 0 0, st (heldInPower base (powerCmd 4 0 0) 0), by unfold Ready; decide +kernel⟩,
   ⟨5, powerCmd 2 0xFF 0xFF, st (heldInPower base (powerCmd 2 0xFF 0xFF) 2), by unfold Ready; decide +kernel⟩,
   ⟨5, powerCmd 1 0xFF 0xFF, st (heldInPower base (powerCmd 1 0xFF 0xFF) 0), by unfold Ready; decide +kernel⟩,
   ⟨5, powerCmd 2 0xFF 0xFF, st ((heldInPower base (powerCmd 2 0xFF 0xFF) 1).setGen 7 { running := true }), 7,
   by unfold Ready; decide +kernel⟩,
   ⟨st (((heldInPower base (powerCmd 0 0 0) 2).setF PWR_WAKE_EN 0 PWR_WAKE_EN_EN 0).setF ELK_STATUS 5 ELK_STATUS_STATE 0), .signal
   5, by decide +kernel⟩,
   ⟨st
   { ((heldInPower base (powerCmd 0 0 0) 2).setF PWR_WAKE_EN 0 PWR_WAKE_EN_EN 0x3FFFF).setF PWR_GPIO_WAKE 0 PWR_GPIO_WAKE_MASK 0x8000 |>.setF PWR_GPIO_WAKE 0 PWR_GPIO_WAKE_EDGE 0 with napFrom := { base.napFrom with fst := 1 } },
   .gpio 15 false, by decide +kernel⟩,
   ⟨st ((heldInPower base (powerCmd 0 0 0) 2).setF PWR_WAKE_EN 0 PWR_WAKE_EN_EN 0x3FFFF |>.setF PWR_GPIO_WAKE 0 PWR_GPIO_WAKE_MASK
   0x7FFF), .gpio 15 true, by decide +kernel⟩,
   ⟨st { heldInPower base (powerCmd 0 0 0) 1 |>.setF PWR_STATUS 0 PWR_STATUS_EAST 3 with gated := [30] }, 31, by decide +kernel⟩,
   ⟨0xFFFFFFFF, by decide +kernel⟩⟩

/-- The hypotheses of each clause of `Obligations.TrustAndRecorderCommandsAct` can be met. -/
theorem witness_TrustAndRecorderCommandsAct :
    (∃ (id : Nat) (x : Cmd) (s : State), Ready s.dev id 64 x ∧ x.p 8 4 = 0)
    ∧ (∃ (id : Nat) (x : Cmd) (s : State), Ready s.dev id 64 x ∧ 2 ^ 20 < x.p 8 4)
    ∧ (∃ (id : Nat) (x : Cmd) (s : State), Ready s.dev id 64 x ∧ 1 ≤ x.p 8 4 ∧ x.p 8 4 ≤ 2 ^ 20 ∧ (x.p 12 4 + x.p 8 4 ≤ if
    s.dev.stageSlot = 2 then 2 ^ 20 else 2 ^ 24 - 4096) ∧ (s.dev.anySlot s.dev.stageSlot).state = 3)
    ∧ (∃ (id : Nat) (x : Cmd) (data : Option (List Byte)) (bs : List Byte) (s : State), Ready s.dev id 64 x ∧ 1 ≤ x.p 8 4 ∧ x.p 8
    4 ≤ 2 ^ 20 ∧ (x.p 12 4 + x.p 8 4 ≤ if s.dev.stageSlot = 2 then 2 ^ 20 else 2 ^ 24 - 4096) ∧ (s.dev.anySlot
    s.dev.stageSlot).state ≠ 3 ∧ Supplies s.dev x 0 (x.p 8 4) data bs ∧ x.p 16 1 % 2 = 0)
    ∧ (∃ (id : Nat) (x : Cmd) (s : State), Ready s.dev id 65 x ∧ (s.dev.anySlot s.dev.stageSlot).image = none)
    ∧ (∃ (id : Nat) (x : Cmd) (s : State) (i : FwImage), Ready s.dev id 65 x ∧ s.dev.stageSlot ≠ 2 ∧ (s.dev.anySlot
    s.dev.stageSlot).state = 1 ∧ (s.dev.anySlot s.dev.stageSlot).image = some i ∧ s.dev.svnMin ≤ i.svn ∧ x.p 0 1 % 2 = 0)
    ∧ (∃ (id : Nat) (x : Cmd) (s : State), Ready s.dev id 72 x ∧ x.p 8 4 = 0)
    ∧ (∃ (id : Nat) (x : Cmd) (s : State), Ready s.dev id 72 x ∧ 4096 < x.p 8 4)
    ∧ (∃ (id : Nat) (x : Cmd) (data : Option (List Byte)) (bs : List Byte) (s : State), Ready s.dev id 72 x ∧ 1 ≤ x.p 8 4 ∧ x.p 8
    4 ≤ 4096 ∧ Supplies s.dev x 0 (x.p 8 4) data bs)
    ∧ (∃ (id : Nat) (x : Cmd) (s : State), Ready s.dev id 73 x ∧ x.p 32 8 % 8 ≠ 0)
    ∧ (∃ (id : Nat) (x : Cmd) (s : State), Ready s.dev id 73 x ∧ x.p 32 8 % 8 = 0 ∧ 1048576 ≤ s.dev.fld SEC_ATTEST 0
    SEC_ATTEST_NEXT)
    ∧ (∃ (id : Nat) (x : Cmd) (s : State), Ready s.dev id 73 x ∧ x.p 32 8 % 8 = 0 ∧ s.dev.fld SEC_ATTEST 0 SEC_ATTEST_NEXT <
    1048576 ∧ s.dev.identity = true ∧ x.remote = none ∧ s.dev.dmaOk x.fn = true)
    ∧ (∃ (id : Nat) (x : Cmd) (s : State), Ready s.dev id 74 x ∧ x.remote = none ∧ s.dev.dmaOk x.fn = true ∧ x.p 0 8 % 8 = 0)
    ∧ (∃ (id : Nat) (x : Cmd) (data : Option (List Byte)) (bs : List Byte) (s : State), Ready s.dev id 75 x ∧ x.p 8 4 = 1164 ∧
    Supplies s.dev x 0 1164 data bs ∧ calGood bs = true)
    ∧ (∃ (id : Nat) (x : Cmd) (data : Option (List Byte)) (bs : List Byte) (s : State), Ready s.dev id 75 x ∧ x.p 8 4 = 1164 ∧
    Supplies s.dev x 0 1164 data bs ∧ calGood bs = false)
    ∧ (∃ (id : Nat) (x : Cmd) (s : State), Ready s.dev id 80 x ∧ x.p 10 2 = 0)
    ∧ (∃ (id : Nat) (x : Cmd) (s : State), Ready s.dev id 81 x) :=
  ⟨⟨5, fwStageCmd 0 0 0, st (heldInRun base (fwStageCmd 0 0 0)), by unfold Ready; decide +kernel⟩,
   ⟨5, fwStageCmd (2 ^ 20 + 1) 0 0, st (heldInRun base (fwStageCmd (2 ^ 20 + 1) 0 0)), by unfold Ready; decide +kernel⟩,
   ⟨5, fwStageCmd (2 ^ 20) (2 ^ 24 - 4096 - 2 ^ 20) 0, st (slotBAt base (fwStageCmd (2 ^ 20) (2 ^ 24 - 4096 - 2 ^ 20) 0) 3 none),
   by unfold Ready; decide +kernel⟩,
   ⟨5, fwStageCmd 3 (2 ^ 24 - 4099) 0xFE, some [1, 2, 0xFF], [1, 2, 0xFF], st (slotBAt base (fwStageCmd 3 (2 ^ 24 - 4099) 0xFE) 1
   (some image)), by unfold Ready Supplies; decide +kernel⟩,
   ⟨5, fwActivateCmd 0, st (slotBAt base (fwActivateCmd 0) 1 none), by unfold Ready; decide +kernel⟩,
   ⟨5, fwActivateCmd 0xFE, st { slotBAt base (fwActivateCmd 0xFE) 1 (some image) with svnMin := 3 }, image,
   by unfold Ready; decide +kernel⟩,
   ⟨5, licenceCmd 0, st (heldInRun base (licenceCmd 0)), by unfold Ready; decide +kernel⟩,
   ⟨5, licenceCmd 4097, st (heldInRun base (licenceCmd 4097)), by unfold Ready; decide +kernel⟩,
   ⟨5, licenceCmd 4096, some (List.replicate 4096 0), List.replicate 4096 0, st
   { heldInRun base (licenceCmd 4096) with pcie := {} }, by unfold Ready Supplies; decide +kernel⟩,
   ⟨5, attestCmd 4, st (heldInRun base (attestCmd 4)), by unfold Ready; decide +kernel⟩,
   ⟨5, attestCmd 0, st ((heldInRun base (attestCmd 0)).setF SEC_ATTEST 0 SEC_ATTEST_NEXT 1048576),
   by unfold Ready; decide +kernel⟩,
   ⟨5, attestCmd 8, st
   { (heldInRun base (attestCmd 8)).setF SEC_ATTEST 0 SEC_ATTEST_NEXT 1048575 with identity := true, pcie := {} },
   by unfold Ready; decide +kernel⟩,
   ⟨5, calReadCmd, st { heldInRun base calReadCmd with pcie := {} }, by unfold Ready; decide +kernel⟩,
   ⟨5, calWriteCmd, some (calSet 0), calSet 0, st { heldInRun base calWriteCmd with pcie := {} },
   by unfold Ready Supplies; decide +kernel⟩,
   ⟨5, calWriteCmd, some (calSet 1), calSet 1, st { heldInRun base calWriteCmd with pcie := {} },
   by unfold Ready Supplies; decide +kernel⟩,
   ⟨5, recorderReadCmd, st
   { heldInRun base recorderReadCmd with barker := { base.barker with log := List.replicate 2600 ⟨1, 1, 0, 0, 0, 0, 0, 0⟩ } },
   by unfold Ready; decide +kernel⟩,
   ⟨5, recorderClearCmd, st
   { heldInRun base recorderClearCmd with barker := { base.barker with log := List.replicate 2600 ⟨1, 1, 0, 0, 0, 0, 0, 0⟩ } },
   by unfold Ready; decide +kernel⟩⟩

/-- The hypotheses of each clause of `Obligations.MessagesMoveThroughQueues` can be met. -/
theorem witness_MessagesMoveThroughQueues :
    (∃ (a : Fin 64) (q : Fin 16) (s : State) (loc : Fin 33) (p : Packet), List.find? (fun p => p.cls == 3) (Tab.get [] s.dev.endIn
    loc.val) = some p ∧ s.dev.phase = BootPhase.ready ∧ p.via = 0 ∧ mhKind p.w2 = 0 ∧ mhLen p.w2 = 0 ∧ mhDst p.w2 = a.val ∧ mhDstQ
    p.w2 = q.val ∧ p.src ≠ s.dev.chipId ∧ s.dev.mqOpen a.val q.val = true ∧ Tab.get [] s.dev.staged a.val = [] ∧ (s.dev.mq a.val
    q.val).words + 1 ≤ ringBytes (s.dev.fld MQ_CFG (mqIx a.val q.val) MQ_CFG_SIZE) / 8 - 1 ∧ (s.dev.mq a.val q.val).tail + 8 ≤
    ringBytes (s.dev.fld MQ_CFG (mqIx a.val q.val) MQ_CFG_SIZE) ∧ (∀ (j : Nat), j < 8 → memMaps (s.dev.mqBase a.val q.val +
    (s.dev.mq a.val q.val).tail + j) = true))
    ∧ (∃ (a : Fin 64) (q : Fin 16) (s : State) (loc : Fin 33) (p : Packet), List.find? (fun p => p.cls == 3) (Tab.get []
    s.dev.endIn loc.val) = some p ∧ s.dev.phase = BootPhase.ready ∧ p.via = 0 ∧ mhKind p.w2 = 0 ∧ mhLen p.w2 = 0 ∧ mhDst p.w2 =
    a.val ∧ mhDstQ p.w2 = q.val ∧ p.src ≠ s.dev.chipId ∧ s.dev.mqOpen a.val q.val = false ∧ mhRet p.w2 = 0)
    ∧ (∃ (a : Fin 64) (k : Fin 8) (s : State) (x : Staged), (Tab.get [] s.dev.staged a.val)[k.val]? = some x ∧ ((List.take k.val
    (Tab.get [] s.dev.staged a.val)).any fun y => y.q == x.q) = true)
    ∧ (∃ (a : Fin 64) (k : Fin 8) (s : State) (x : Staged), (Tab.get [] s.dev.staged a.val)[k.val]? = some x ∧ s.dev.mqWrite x =
    none)
    ∧ (∃ (a : Fin 64) (k : Fin 8) (s : State) (x : Staged), (Tab.get [] s.dev.staged a.val)[k.val]? = some x ∧ x.src ≠
    s.dev.chipId ∧ mhRet x.hdr = 0 ∧ s.dev.mqWrite x = none)
    ∧ (∃ (a : Fin 64) (k : Fin 8) (s : State) (x : Staged), (Tab.get [] s.dev.staged a.val)[k.val]? = some x ∧ ((List.take k.val
    (Tab.get [] s.dev.staged a.val)).any fun y => y.q == x.q) = false ∧ mhDst x.hdr = a.val ∧ x.hdr < 2 ^ 64 ∧ (s.dev.mq a.val
    x.q).words + (1 + cdiv (mhLen x.hdr) 8) ≤ ringBytes (s.dev.fld MQ_CFG (mqIx a.val x.q) MQ_CFG_SIZE) / 8 - 1 ∧ (s.dev.mq a.val
    x.q).tail + 8 * (1 + cdiv (mhLen x.hdr) 8) ≤ ringBytes (s.dev.fld MQ_CFG (mqIx a.val x.q) MQ_CFG_SIZE) ∧ (∀ (j : Nat), j < 8 →
    memMaps (s.dev.mqBase a.val x.q + (s.dev.mq a.val x.q).tail + j) = true))
    ∧ (∃ (who : Requester) (a : Fin 64) (q : Fin 16) (s : State), s.dev.mqClosedOff who a.val = false ∧ q.val < agentQueues a.val
    ∧ (s.dev.mq a.val q.val).words = 0)
    ∧ (∃ (who : Requester) (a : Fin 64) (q : Fin 16) (s : State), s.dev.mqClosedOff who a.val = false ∧ q.val < agentQueues a.val
    ∧ 0 < (s.dev.mq a.val q.val).words ∧ 0 < (s.dev.mq a.val q.val).left)
    ∧ (∃ (a : Fin 64) (q : Fin 16), agentQueues a.val ≤ q.val)
    ∧ (∃ (who : Requester) (a : Fin 64) (q : Fin 16) (v : W32) (s : State), s.dev.mqClosedOff who a.val = false ∧ q.val <
    agentQueues a.val ∧ s.dev.fld MQ_CFG (mqIx a.val q.val) MQ_CFG_SIZE = 0 ∧ MQ_CFG_SIZE.get (BitVec.setWidth 64 v) ≠ 0 ∧
    s.dev.ringFits a.val q.val (MQ_CFG_SIZE.get (BitVec.setWidth 64 v)) (MQ_CFG_BASE.get (BitVec.setWidth 64 v)) = true)
    ∧ (∃ (who : Requester) (a : Fin 64) (q : Fin 16) (v : W32) (s : State), s.dev.mqClosedOff who a.val = false ∧ q.val <
    agentQueues a.val ∧ s.dev.fld MQ_CFG (mqIx a.val q.val) MQ_CFG_SIZE = 0 ∧ MQ_CFG_SIZE.get (BitVec.setWidth 64 v) ≠ 0 ∧
    s.dev.ringFits a.val q.val (MQ_CFG_SIZE.get (BitVec.setWidth 64 v)) (MQ_CFG_BASE.get (BitVec.setWidth 64 v)) = false) :=
  ⟨⟨0x37, 1, st { mqAt base 0x37 1 1 { tail := 1016, words := 126 } with endIn := [(0, [msgPacket (msgHeader 0 0x37 1 0)])] }, 0,
  msgPacket (msgHeader 0 0x37 1 0), by decide +kernel⟩,
   ⟨0x37, 1, st { mqAt base 0x37 1 0 {} with endIn := [(0, [msgPacket (msgHeader 0 0x37 1 0)])] }, 0, msgPacket (msgHeader 0 0x37
   1 0), by decide +kernel⟩,
   ⟨0x37, 7, st (stagedAt base (List.replicate 8 (stagedMsg 1 0))), stagedMsg 1 0, by decide +kernel⟩,
   ⟨0x37, 0, st (stagedAt base (List.replicate 8 (stagedMsg 1 0))), stagedMsg 1 0, by decide +kernel⟩,
   ⟨0x37, 0, st (stagedAt base (List.replicate 8 (stagedMsg 1 0))), stagedMsg 1 0, by decide +kernel⟩,
   ⟨0x37, 1, st (stagedTwo base 1016 126), stagedMsg 1 0, by decide +kernel⟩,
   ⟨.sq 0, 0, 15, st (mqAt base 0 15 1 { head := 8, tail := 8 }), by decide +kernel⟩,
   ⟨.sq 0, 0, 15, st (mqAt base 0 15 1 { head := 1016, tail := 8, words := 2, left := 2, msgs := 1 }), by decide +kernel⟩,
   ⟨0x3F, 2, by decide +kernel⟩,
   ⟨.sq 0, 0, 15, mqCfg 1 3, st ((List.range 16).foldl (fun d k => d.wr MQ_CFG k 0) base), by decide +kernel⟩,
   ⟨.sq 0, 0, 15, mqCfg 2 3, st ((List.range 16).foldl (fun d k => d.wr MQ_CFG k 0) base), by decide +kernel⟩⟩

/-- The hypotheses of each clause of `Obligations.ResetsAndRestartsBeginAndEnd` can be met. -/
theorem witness_ResetsAndRestartsBeginAndEnd :
    (∃ (t : Tile) (e : Eng) (s : State) (c : Nat), s.dev.holdsRunning 1 (engIx t.val e.val) = some c)
    ∧ (∃ (t : Tile) (e : Eng) (s : State), s.dev.holdsRunning 1 (engIx t.val e.val) = none)
    ∧ (∃ (t : Tile) (e : Eng) (s : State), (s.dev.eng t.val e.val).resetting = false)
    ∧ (∃ (t : Tile) (e : Eng) (s : State), (s.dev.eng t.val e.val).resetting = true)
    ∧ (∃ (t : Tile) (s : State) (c : Nat), s.dev.holdsRunning 2 t.val = some c)
    ∧ (∃ (t : Tile) (s : State), s.dev.holdsRunning 2 t.val = none ∧ s.dev.chained 1 1 1 = false ∧ s.dev.chained 1 0 0 = false)
    ∧ (∃ (s : State), s.dev.chained 1 0 0 = false)
    ∧ (∃ (t : Tile) (s : State), s.dev.fwTiles.head? ≠ some t.val)
    ∧ (∃ (t : Tile) (s : State) (u : Nat) (l : List Nat), s.dev.fwTiles = t.val :: u :: l ∧ u ≠ t.val ∧ s.dev.chained 1 0 0 =
    false)
    ∧ (∃ (s : State), s.dev.phase = BootPhase.ready ∧ s.dev.rmRestart = false)
    ∧ (∃ (s : State), s.dev.rmRestart = false)
    ∧ (∃ (s : State), s.dev.rmRestart = true ∧ s.dev.fwBack = none ∧ s.dev.fwTry = none)
    ∧ (∃ (s : State) (k : Nat) (id : Nat), s.dev.rmRestart = true ∧ s.dev.fwBack = none ∧ s.dev.fwTry = some (k, id))
    ∧ (∃ (s : State) (id : Nat) (st : Nat) (det : Nat) (x : Cmd), s.dev.rmRestart = true ∧ s.dev.fwBack = some (id, st, det) ∧
    s.dev.cmdOf id = some x ∧ x.stage ≠ 2) :=
  ⟨⟨31, 8, st (twoBlocks base), 7, by decide +kernel⟩,
   ⟨31, 8, st ({ twoBlocks base with blocks := [(7, [blockAt 31 7])], copies := [] }.setEng 31 8 engineBusy), by decide +kernel⟩,
   ⟨31, 8, st (base.setEng 31 8 engineBusy), by decide +kernel⟩,
   ⟨31, 8, st (base.setEng 31 8 { engineBusy with resetting := true }), by decide +kernel⟩,
   ⟨31, st (twoBlocks base), 7, by decide +kernel⟩,
   ⟨31, st (({ base with blocks := [(7, [blockAt 31 8])], copies := [] }.setEng 31 8 engineBusy).setGen 7 {}), by decide +kernel⟩,
   ⟨st base, by decide +kernel⟩,
   ⟨31, st { base with tcRestart := [31, 3, 31], fwTiles := [3, 31] }, by decide +kernel⟩,
   ⟨31, st { base with tcRestart := [31, 3, 31], fwTiles := [31, 4, 5] }, 4, [5], by decide +kernel⟩,
   ⟨st { base with cmds := cmdsHeld, phase := .ready, rmRestart := false }, by decide +kernel⟩,
   ⟨st { base with rmRestart := false }, by decide +kernel⟩,
   ⟨st { base with rmRestart := true, fwTry := none, fwBack := none, cmds := cmdsHeld }, by decide +kernel⟩,
   ⟨st { base with rmRestart := true, fwBack := none, fwTry := some (1, 6), cmds := cmdsHeld, slotB := { state := 3 } }, 1, 6,
   by decide +kernel⟩,
   ⟨st { base with rmRestart := true, fwTry := none, fwBack := some (6, 0x0301, 0x0108), cmds := cmdsHeld }, 6, 0x0301, 0x0108,
   { cmd 0x40 7 [] with id := 6, stage := 1 }, by decide +kernel⟩⟩

/-- The hypotheses of each clause of `Obligations.FaultsAreFoundAndRepaired` can be met. -/
theorem witness_FaultsAreFoundAndRepaired :
    (∃ (t : Tile) (e : Eng) (s : State), (s.dev.eng t.val e.val).watched = false)
    ∧ (∃ (t : Tile) (e : Eng) (s : State), (s.dev.eng t.val e.val).watched = true ∧ s.dev.flag FLT_CTRL 0 FLT_CTRL_AUTO_RETIRE =
    false)
    ∧ (∃ (s : State), s.dev.chained 1 0 3 = false)
    ∧ (∃ (s : State) (a : BitVec 36), a.toNat < usableBytes ∧ s.dev.flag FLT_CTRL 0 FLT_CTRL_AUTO_RETIRE = true ∧ (s.dev.unit 4
    (a.toNat / 4096 * 4096)).fst = 0)
    ∧ (∃ (c : Ctx) (s : State), s.dev.ctxReset.contains c.val = false)
    ∧ (∃ (c : Ctx) (s : State), s.dev.ctxReset.contains c.val = true)
    ∧ (∃ (c : Ctx) (s : State), s.dev.flag SEC_CTX_STATUS c.val SEC_CTX_STATUS_SCRUBBING = false)
    ∧ (∃ (c : Ctx) (s : State), s.dev.flag SEC_CTX_STATUS c.val SEC_CTX_STATUS_SCRUBBING = true)
    ∧ (∃ (s : State) (r : Fin 33), s.dev.soonest r.val = none ∧ s.dev.flag RAB_CTRL r.val RAB_CTRL_EN = false)
    ∧ (∃ (s : State) (r : Fin 33), r.val < 32 ∧ s.dev.halfStopped (halfOf r.val) = true)
    ∧ (∃ (s : State) (r : Fin 33) (k : Nat), ¬(r.val < 32 ∧ s.dev.halfStopped (halfOf r.val) = true) ∧ s.dev.soonest r.val = some
    k ∧ (k < if r.val < 32 then 7168 else 3072))
    ∧ (∃ (s : State) (r : Fin 33) (rows : List (Fin 4)) (spare : Bool), ¬(r.val < 32 ∧ s.dev.halfStopped (halfOf r.val) = true) ∧
    s.dev.soonest r.val = none ∧ s.dev.flag RAB_CTRL r.val RAB_CTRL_EN = true ∧ Awake s.dev ∧ (Tab.get 0 s.dev.rabNext r.val < if
    r.val < 32 then 7168 else 3072) ∧ (rows = [] ∨ spare = true))
    ∧ (∃ (s : State) (page : BitVec 48), (s.dev.unit 4 page.toNat).fst = 1 ∧ s.dev.fld MEM_STATUS 0 MEM_STATUS_SPARES ≠ 0)
    ∧ (∃ (t : Tile) (e : Eng) (s : State) (k : Fin 8) (r : Parked), (s.dev.eng t.val e.val).parked[k.val]? = some r ∧ r.issued =
    true ∧ r.landed = none ∧ (s.dev.eng t.val e.val).refetch = none) :=
  ⟨⟨31, 8, st (base.setEng 31 8 {}), by decide +kernel⟩,
   ⟨31, 8, st ({ base with copies := [] }.setEng 31 8 engineBusy |>.setF FLT_CTRL 0 FLT_CTRL_AUTO_RETIRE 0), by decide +kernel⟩,
   ⟨st base, by decide +kernel⟩,
   ⟨st ((base.moveUnit 4 0x3000 0 0).setF FLT_CTRL 0 FLT_CTRL_AUTO_RETIRE 1), 0x3FFF, by decide +kernel⟩,
   ⟨7, st { base with ctxReset := [6] }, by decide +kernel⟩,
   ⟨7, st { base with ctxReset := [7, 6, 7], inflight := [(flightKey 32 7 1 1, 5), (flightKey 31 6 0 0, 2)] }, by decide +kernel⟩,
   ⟨7, st (base.setF SEC_CTX_STATUS 7 SEC_CTX_STATUS_SCRUBBING 0), by decide +kernel⟩,
   ⟨7, st ((base.setF SEC_CTX_STATUS 7 SEC_CTX_STATUS_SCRUBBING 1).wr MEM_CTX 7 (MEM_CTX_BASE.put (MEM_CTX_SIZE.put 0 0) 100)),
   by decide +kernel⟩,
   ⟨st { base.setF RAB_CTRL 32 RAB_CTRL_EN 0 with testDue := [] }, 32, by decide +kernel⟩,
   ⟨st ((base.setF RAB_CTRL 31 RAB_CTRL_EN 1).setF PWR_STATUS 0 PWR_STATUS_EAST 4), 31, by decide +kernel⟩,
   ⟨st { (base.setF RAB_CTRL 32 RAB_CTRL_EN 0) with testDue := [rmSram + 4096 * 3071] }, 32, 3071, by decide +kernel⟩,
   ⟨st ({ base.setF RAB_CTRL 32 RAB_CTRL_EN 1 with testDue := [], phase := .ready, rabNext := [(32, 3071)] }.setF PWR_STATUS 0
   PWR_STATUS_STATE 1), 32, [0, 3], true, by unfold Awake; decide +kernel⟩,
   ⟨st ((base.moveUnit 4 0x3000 1 0).setF MEM_STATUS 0 MEM_STATUS_SPARES 1), 0x3000, by decide +kernel⟩,
   ⟨31, 8, st (base.setEng 31 8 { parked := List.replicate 8 (parkedAt 3) }), 7, parkedAt 3, by decide +kernel⟩⟩

/-- The hypotheses of each clause of `Obligations.TrustControlsAct` can be met. -/
theorem witness_TrustControlsAct :
    (∃ (v : W32), BitVec.getLsbD v 0 = false)
    ∧ (∃ (c : Ctx) (v : W32) (s : State), BitVec.getLsbD v 0 = true ∧ (s.dev.fld SEC_LIC 0 SEC_LIC_FEATURES).testBit 1 = true ∧
    s.dev.lifecycle ≠ 2 ∧ (s.dev.gen c.val).running = false)
    ∧ (∃ (c : Ctx) (v : W32) (s : State), BitVec.getLsbD v 0 = true ∧ ((s.dev.fld SEC_LIC 0 SEC_LIC_FEATURES).testBit 1 = false ∨
    s.dev.lifecycle = 2 ∨ (s.dev.gen c.val).running = true))
    ∧ (∃ (v : W32), BitVec.getLsbD v 0 = true)
    ∧ (∃ (v : W32), BitVec.getLsbD v 0 = false)
    ∧ (∃ (s : State), s.dev.dbgActive.testBit 0 = true)
    ∧ (∃ (s : State), s.dev.dbgActive.testBit 0 = true)
    ∧ (∃ (s : State), s.dev.dbgActive.testBit 0 = false)
    ∧ (∃ (s : State), s.dev.dbgActive.testBit 0 = false)
    ∧ (∃ (s : State), s.dev.dbgActive.testBit 1 = true)
    ∧ (∃ (s : State), s.dev.dbgActive.testBit 1 = true)
    ∧ (∃ (s : State), s.dev.dbgActive.testBit 1 = false)
    ∧ (∃ (s : State), s.dev.dbgActive.testBit 1 = false)
    ∧ (∃ (addr : BitVec 48) (n : Fin 65) (s : State), addr.toNat % 64 + n.val ≤ 64 ∧ n.val ≠ 0 ∧ s.dev.dbgActive.testBit 2 =
    false)
    ∧ (∃ (addr : BitVec 48) (n : Fin 65) (s : State), addr.toNat % 64 + n.val ≤ 64 ∧ n.val ≠ 0 ∧ s.dev.dbgActive.testBit 2 =
    false)
    ∧ (∃ (addr : BitVec 48) (n : Fin 65) (s : State), addr.toNat % 64 + n.val ≤ 64 ∧ n.val ≠ 0 ∧ s.dev.dbgActive.testBit 2 = true
    ∧ (∀ (k : Ctx), s.dev.confidential k.val = false) ∧ memMaps addr.toNat = true ∧ addr.toNat < regSpace ∧ s.dev.poison = []) :=
  ⟨⟨0xFFFFFFFE, by decide +kernel⟩,
   ⟨7, 0xFFFFFFFF, st (secured base 2 1 false), by decide +kernel⟩,
   ⟨7, 1, st (secured base 5 1 false), by decide +kernel⟩,
   ⟨1, by decide +kernel⟩,
   ⟨2, by decide +kernel⟩,
   ⟨st (debugAt base 1), by decide +kernel⟩,
   ⟨st { debugAt base 1 with dbgHalt := true }, by decide +kernel⟩,
   ⟨st (debugAt base 14), by decide +kernel⟩,
   ⟨st { debugAt base 14 with dbgHalt := true }, by decide +kernel⟩,
   ⟨st (debugAt base 2), by decide +kernel⟩,
   ⟨st { debugAt base 2 with dbgTiles := [31, 5, 31] }, by decide +kernel⟩,
   ⟨st (debugAt base 13), by decide +kernel⟩,
   ⟨st { debugAt base 0 with dbgTiles := [31] }, by decide +kernel⟩,
   ⟨0x103F, 1, st (debugAt base 11), by decide +kernel⟩,
   ⟨0x1000, 64, st (debugAt base 11), by decide +kernel⟩,
   ⟨0x1000000000, 64, st (debugAt base 4), by decide +kernel⟩⟩

/-- The hypotheses of each clause of `Obligations.ResetsLeadIntoBringUp` can be met. -/
theorem witness_ResetsLeadIntoBringUp :
    (∃ (s : State), (s.dev.phase = BootPhase.off ∨ s.dev.phase = BootPhase.held))
    ∧ (∃ (s : State), s.dev.phase ≠ BootPhase.off ∧ s.dev.phase ≠ BootPhase.held)
    ∧ (∃ (s : State), s.dev.awake = false)
    ∧ (∃ (s : State), s.dev.awake = true)
    ∧ (∃ (s : State), s.dev.phase = BootPhase.stopped)
    ∧ (∃ (s : State), s.dev.phase ≠ BootPhase.stopped)
    ∧ (∃ (s : State), s.dev.phase = BootPhase.held ∧ s.dev.tripped = false)
    ∧ (∃ (s : State), (s.dev.phase ≠ BootPhase.held ∨ s.dev.tripped = true))
    ∧ (∃ (s : State), s.dev.tripped = true ∧ s.dev.phase = BootPhase.held ∧ s.dev.hottest < s.dev.tripAt - 20 * 256)
    ∧ (∃ (s : State), s.dev.tripped = false)
    ∧ (∃ (s : State), s.dev.phase = BootPhase.ports)
    ∧ (∃ (s : State), s.dev.popMessage 0 14 = none)
    ∧ (∃ (s : State) (h : Nat) (b : List Byte) (popped : Dev), s.dev.popMessage 0 14 = some (h, b, popped) ∧ popped.phase ≠
    BootPhase.ready)
    ∧ (∃ (s : State), s.dev.phase ≠ BootPhase.net)
    ∧ (∃ (s : State) (n : NetBoot), s.dev.phase = BootPhase.net ∧ s.dev.netBoot = some n ∧ n.asked.isSome = true ∧ n.reply = none
    ∧ (∀ (p : Nat), p ∈ n.left → s.dev.portUp p = false))
    ∧ (∃ (s : State), s.dev.netImage = none)
    ∧ (∃ (s : State) (k : Nat) (len : Nat), s.dev.phase = BootPhase.ready ∧ s.dev.netImage = some (k, len) ∧ (s.dev.slotOf
    k).image ≠ some s.dev.fw)
    ∧ (∃ (s : State), s.dev.phase ≠ BootPhase.off ∧ s.dev.phase ≠ BootPhase.held)
    ∧ (∃ (s : State), s.dev.phase ≠ BootPhase.off ∧ s.dev.phase ≠ BootPhase.held)
    ∧ (∃ (s : State), s.dev.awake = false)
    ∧ (∃ (s : State), s.dev.awake = true) :=
  ⟨⟨st (waking base .held), by decide +kernel⟩,
   ⟨st (waking base .hibernate), by decide +kernel⟩,
   ⟨st (waking base .hibernate), by decide +kernel⟩,
   ⟨st (waking base .net), by decide +kernel⟩,
   ⟨st (waking base .stopped), by decide +kernel⟩,
   ⟨st (waking base .ready), by decide +kernel⟩,
   ⟨st { waking base .held with tripped := false }, by decide +kernel⟩,
   ⟨st { waking base .held with tripped := true }, by decide +kernel⟩,
   ⟨st ({ waking base .held with tripped := true }.setF PWR_THERM_STATUS 0 PWR_THERM_STATUS_TEMP 0x8000), by decide +kernel⟩,
   ⟨st { waking base .held with tripped := false }, by decide +kernel⟩,
   ⟨st (waking base .ports), by decide +kernel⟩,
   ⟨st { base with mqs := [] }, by decide +kernel⟩,
   pop14_witness,
   ⟨st (waking base .ready), by decide +kernel⟩,
   ⟨st ({ waking base .net with netBoot := some netBoot }.setF ELK_STATUS 5 ELK_STATUS_STATE 0), netBoot, by decide +kernel⟩,
   ⟨st { base with netImage := none }, by decide +kernel⟩,
   ⟨st { waking base .ready with netImage := some (1, 100), slotB := {}, slotA := { seq := 7 } }, 1, 100, by decide +kernel⟩,
   ⟨st (waking base .ports), by decide +kernel⟩,
   ⟨st (waking base .ready), by decide +kernel⟩,
   ⟨st (waking base .held), by decide +kernel⟩,
   ⟨st (waking base .ready), by decide +kernel⟩⟩

/-- The hypotheses of each clause of `Obligations.OneShotChannelsStopAtTheMatch` can be met. -/
theorem witness_OneShotChannelsStopAtTheMatch :
    (∃ (n : Fin 8) (s : State), s.dev.phase = BootPhase.ready ∧ s.dev.tmr = [] ∧ s.dev.fld PWR_WAKE_EN 0 PWR_WAKE_EN_EN = 0 ∧
    s.dev.flag TMR_CTRL n.val TMR_CTRL_EN = true)
    ∧ (∃ (n : Fin 8) (s : State), s.dev.phase = BootPhase.ready ∧ s.dev.tmr = [] ∧ s.dev.fld PWR_WAKE_EN 0 PWR_WAKE_EN_EN = 0 ∧
    s.dev.flag TMR_CTRL n.val TMR_CTRL_EN = false)
    ∧ (∃ (n : Fin 8) (s : State), s.dev.phase = BootPhase.ready ∧ s.dev.tmr = [] ∧ s.dev.fld PWR_WAKE_EN 0 PWR_WAKE_EN_EN = 0 ∧
    s.dev.flag TMR_CTRL n.val TMR_CTRL_EN = true ∧ ((timerStep (s.dev.fld TMR_PERIOD n.val TMR_PERIOD_PERIOD) (s.dev.fld TMR_COUNT
    n.val TMR_COUNT_COUNT) (s.dev.fld TMR_CMP n.val TMR_CMP_CMP) (if s.dev.tmrSlow = true then 100 else 1)).snd.fst = true) ∧
    s.dev.flag TMR_CTRL n.val TMR_CTRL_ONESHOT = false)
    ∧ (∃ (n : Fin 8) (s : State), s.dev.phase = BootPhase.ready ∧ s.dev.tmr = [] ∧ s.dev.fld PWR_WAKE_EN 0 PWR_WAKE_EN_EN = 0 ∧
    s.dev.flag TMR_CTRL n.val TMR_CTRL_EN = true ∧ ((timerStep (s.dev.fld TMR_PERIOD n.val TMR_PERIOD_PERIOD) (s.dev.fld TMR_COUNT
    n.val TMR_COUNT_COUNT) (s.dev.fld TMR_CMP n.val TMR_CMP_CMP) (if s.dev.tmrSlow = true then 100 else 1)).snd.fst = true) ∧
    s.dev.flag TMR_CTRL n.val TMR_CTRL_ONESHOT = true)
    ∧ (∃ (s : State) (v : W64), s.dev.phase = BootPhase.ready ∧ s.dev.tmr = [] ∧ s.dev.fld PWR_WAKE_EN 0 PWR_WAKE_EN_EN = 0 ∧
    s.dev.reaches Requester.pf = true ∧ BitVec.getLsbD v 0 = true) :=
  ⟨⟨7, st (timerAt base 1 0 0 0xFFFFFFFF 5), by decide +kernel⟩,
   ⟨7, st (timerAt base 0 1 10 9 10), by decide +kernel⟩,
   ⟨7, st (timerAt base 1 0 200 9 10), by decide +kernel⟩,
   ⟨7, st (timerAt base 1 1 200 9 10), by decide +kernel⟩,
   ⟨st { timerAt base 0 1 10 9 10 with pcie := {} }, 1, by decide +kernel⟩⟩

/-- The hypotheses of each clause of `Obligations.TimerWritesWaitForTheirClock` can be met. -/
theorem witness_TimerWritesWaitForTheirClock :
    (∃ (n : Fin 8) (v : W32) (s : State), s.dev.phase = BootPhase.ready ∧ s.dev.tmr = [(n.val, [(1, TmrWrite.period (BitVec.toNat
    v))])] ∧ (∀ (k : Fin 8), s.dev.flag TMR_CTRL k.val TMR_CTRL_EN = false))
    ∧ (∃ (v : W32), BitVec.getLsbD v 8 = false)
    ∧ (∃ (v : W32) (s : State) (k : Fin 8), BitVec.toNat v = 256 + 2 ^ k.val ∧ s.dev.fld TMR_PERIOD k.val TMR_PERIOD_PERIOD = 0)
    ∧ (∃ (v : W32) (s : State) (j : Fin 8) (k : Fin 8), j < k ∧ BitVec.toNat v = 256 + 2 ^ j.val + 2 ^ k.val ∧ s.dev.fld
    TMR_PERIOD j.val TMR_PERIOD_PERIOD ≠ 0 ∧ s.dev.fld TMR_PERIOD j.val TMR_PERIOD_PERIOD = s.dev.fld TMR_PERIOD k.val
    TMR_PERIOD_PERIOD) :=
  ⟨⟨7, 0xFFFFFFFF, st { timersOff base with phase := .ready, tmr := [(7, [(1, .period 0xFFFFFFFF)])] }, by decide +kernel⟩,
   ⟨0xFF, by decide +kernel⟩,
   ⟨0x180, st (base.setF TMR_PERIOD 7 TMR_PERIOD_PERIOD 0), 7, by decide +kernel⟩,
   ⟨0x181, st ((base.setF TMR_PERIOD 7 TMR_PERIOD_PERIOD 0xFFFFFFFF).setF TMR_PERIOD 0 TMR_PERIOD_PERIOD 0xFFFFFFFF), 0, 7,
   by decide +kernel⟩⟩

/-- The hypotheses of each clause of `Obligations.RecorderAndHeadcountAct` can be met. -/
theorem witness_RecorderAndHeadcountAct :
    (∃ (s : State), s.dev.rmRestart = true)
    ∧ (∃ (s : State) (r : BrkRec) (rest : List BrkRec), s.dev.rmRestart = false ∧ s.dev.barker.staged = r :: rest ∧ s.dev.flag
    BRK_STATUS 0 BRK_STATUS_FULL = false ∧ s.dev.barker.log.length < 8190)
    ∧ (∃ (s : State), s.dev.phase = BootPhase.off)
    ∧ (∃ (s : State), s.dev.phase ≠ BootPhase.off)
    ∧ (∃ (s : State), s.dev.phase ≠ BootPhase.off ∧ s.dev.fld SEC_DBG_STATUS 0 SEC_DBG_STATUS_SCOPE = 0)
    ∧ (∃ (s : State), s.dev.phase ≠ BootPhase.off ∧ s.dev.fld SEC_DBG_STATUS 0 SEC_DBG_STATUS_SCOPE ≠ 0 ∧ s.dev.fld BRK_OPTIME 0
    BRK_OPTIME_SECONDS + 1 < 2 ^ 40 ∧ s.dev.fld SEC_DBG_STATUS 0 SEC_DBG_STATUS_EXPIRES ≤ s.dev.fld BRK_OPTIME 0
    BRK_OPTIME_SECONDS + 1)
    ∧ (∃ (s : State), s.dev.flag HC_CTRL 0 HC_CTRL_EN = false)
    ∧ (∃ (s : State), s.dev.hcDump = none ∧ s.dev.flag HC_CTRL 0 HC_CTRL_EN = true)
    ∧ (∃ (v : W32) (s : State), s.dev.hcDump = none ∧ BitVec.getLsbD v 30 = true)
    ∧ (∃ (s : State), s.dev.hcDump ≠ none ∧ s.dev.chained 1 3 0 = false ∧ s.dev.flag HC_CTRL 0 HC_CTRL_EN = true)
    ∧ (∃ (v : W32) (s : State), s.dev.hcDump ≠ none ∧ s.dev.chained 1 3 0 = false ∧ BitVec.getLsbD v 30 = true)
    ∧ (∃ (s : State), s.dev.hcDump = none)
    ∧ (∃ (s : State) (tb : Nat) (sc : Nat), s.dev.hcDump = some (tb, sc) ∧ s.dev.flag HC_HDEST_CFG 0 HC_HDEST_CFG_EN = false)
    ∧ (∃ (s : State), s.dev.fld HC_CHAIN_SEL 0 HC_CHAIN_SEL_KIND = 1 ∧ s.dev.fld HC_CHAIN_SEL 0 HC_CHAIN_SEL_ARRAY = 0)
    ∧ (∃ (s : State) (place : Fin 33) (h : Fin 8), Tab.get [] s.dev.mirrors (place.val * 8 + h.val) = [])
    ∧ (∃ (s : State) (place : Fin 33) (h : Fin 8), Tab.get [] s.dev.mirrors (place.val * 8 + h.val) ≠ [])
    ∧ (∃ (s : State) (h : Fin 8) (w : W64), s.dev.flag HOM_SESS h.val HOM_SESS_EN = false ∧ HOM_SESS_EN.get w = 1) :=
  ⟨⟨st (recorderAt base true [] [record 5]), by decide +kernel⟩,
   ⟨st (recorderAt base false (List.replicate 8189 (record 1)) [record 5, record 6]), record 5, [record 6], by decide +kernel⟩,
   ⟨st { base with phase := .off }, by decide +kernel⟩,
   ⟨st (secondAt base (2 ^ 40 - 1) 0 0), by decide +kernel⟩,
   ⟨st (secondAt base (2 ^ 40 - 1) 0 0), by decide +kernel⟩,
   ⟨st (secondAt base (2 ^ 40 - 2) 15 (2 ^ 40 - 1)), by decide +kernel⟩,
   ⟨st (headcountAt base 0 none), by decide +kernel⟩,
   ⟨st (headcountAt base 1 none), by decide +kernel⟩,
   ⟨0x40000000, st (headcountAt base 0 none), by decide +kernel⟩,
   ⟨st (headcountAt base 1 (some (3, 4))), by decide +kernel⟩,
   ⟨0xFFFFFFFF, st (headcountAt base 0 (some (3, 4))), by decide +kernel⟩,
   ⟨st (headcountAt base 1 none), by decide +kernel⟩,
   ⟨st ((headcountAt base 1 (some (3, 4))).wr HC_SEQ 0 0xFFFFFFFFFFFFFFFE |>.setF HC_HDEST_CFG 0 HC_HDEST_CFG_EN 0), 3, 4,
   by decide +kernel⟩,
   ⟨st (chainSel base), by decide +kernel⟩,
   ⟨st { base with mirrors := [] }, 32, 7, by decide +kernel⟩,
   ⟨st { base with mirrors := [(32 * 8 + 7, (List.range 33).map mirror)] }, 32, 7, by decide +kernel⟩,
   ⟨st (base.setF HOM_SESS 7 HOM_SESS_EN 0), 7, 0xFFFFFFFFFFFFFFFF, by decide +kernel⟩⟩

/-- The hypotheses of each clause of `Obligations.MemoryAndTelemetryAct` can be met. -/
theorem witness_MemoryAndTelemetryAct :
    (∃ (s : State) (c : Ctx) (v : W64), s.dev.regionOk c.val (MEM_CTX.written (s.dev.rd MEM_CTX c.val) v (halfCover Half.whole)) =
    true)
    ∧ (∃ (s : State) (c : Ctx) (v : W64), s.dev.regionOk c.val (MEM_CTX.written (s.dev.rd MEM_CTX c.val) v (halfCover Half.whole))
    = false)
    ∧ (∃ (s : State) (off : BitVec 27) (bs : List Byte), off.toNat + bs.length ≤ flashBytes ∧ bs ≠ [] ∧ s.dev.flag
    MEM_FLASH_STATUS 0 MEM_FLASH_STATUS_BUSY = false)
    ∧ (∃ (s : State) (off : BitVec 27) (bs : List Byte), off.toNat + bs.length ≤ flashBytes ∧ bs ≠ [] ∧ s.dev.flag
    MEM_FLASH_STATUS 0 MEM_FLASH_STATUS_BUSY = true)
    ∧ (∃ (s : State) (v : W32), MEM_FLASH_CTRL_ERASE.get (BitVec.setWidth 64 v) = 1 ∧ MEM_FLASH_CTRL_SECTOR.get (BitVec.setWidth
    64 v) ≤ 1462 ∧ s.dev.flag MEM_FLASH_STATUS 0 MEM_FLASH_STATUS_BUSY = false)
    ∧ (∃ (s : State) (v : W32), MEM_FLASH_CTRL_ERASE.get (BitVec.setWidth 64 v) = 1 ∧ MEM_FLASH_CTRL_SECTOR.get (BitVec.setWidth
    64 v) ≤ 1462 ∧ s.dev.flag MEM_FLASH_STATUS 0 MEM_FLASH_STATUS_BUSY = true)
    ∧ (∃ (s : State) (off : BitVec 26) (n : Fin 65), s.dev.reaches Requester.pf = true ∧ 16777216 ≤ off.toNat ∧ off.toNat <
    67108864 ∧ 0 < n.val ∧ off.toNat % 64 + n.val ≤ 64 ∧ (∀ (c : Ctx), s.dev.confidential c.val = false) ∧ s.dev.poison = [] ∧
    s.dev.fld MEM_APER (off.toNat / 16777216 - 1) MEM_APER_BASE * 65536 + off.toNat % 16777216 + n.val ≤ usableBytes)
    ∧ (∃ (s : State) (off : BitVec 26) (n : Fin 65) (bs : List Byte), s.dev.reaches Requester.pf = true ∧ 16777216 ≤ off.toNat ∧
    off.toNat < 67108864 ∧ 0 < n.val ∧ off.toNat % 64 + n.val ≤ 64 ∧ (∀ (c : Ctx), s.dev.confidential c.val = false) ∧
    s.dev.poison = [] ∧ s.dev.fld MEM_APER (off.toNat / 16777216 - 1) MEM_APER_BASE * 65536 + off.toNat % 16777216 + n.val ≤
    usableBytes ∧ bs.length = n.val)
    ∧ (∃ (s : State) (off : BitVec 26) (n : Fin 65), s.dev.reaches Requester.pf = true ∧ 16777216 ≤ off.toNat ∧ off.toNat <
    67108864 ∧ 0 < n.val ∧ off.toNat % 64 + n.val ≤ 64 ∧ (∀ (c : Ctx), s.dev.confidential c.val = false) ∧ s.dev.poison = [] ∧
    s.dev.fld MEM_APER (off.toNat / 16777216 - 1) MEM_APER_BASE * 65536 + off.toNat % 16777216 + n.val ≤ usableBytes)
    ∧ (∃ (s : State) (raw : List W16), s.dev.phase = BootPhase.ready ∧ (∀ (n : Nat), n < 16 → BitVec.toInt (s.dev.sensed raw n) <
    s.dev.tripAt))
    ∧ (∃ (s : State) (raw : List W16), s.dev.phase = BootPhase.ready ∧ (∃ n, n < 16 ∧ s.dev.tripAt ≤ BitVec.toInt (s.dev.sensed
    raw n)) ∧ s.dev.tripReads = 7)
    ∧ (∃ (s : State), s.dev.hottest < s.dev.alertAt - 256 * ↑(max 1 (s.dev.fld PWR_THERM_CFG 0 PWR_THERM_CFG_HYST_C)))
    ∧ (∃ (s : State), s.dev.alertAt - 256 * ↑(max 1 (s.dev.fld PWR_THERM_CFG 0 PWR_THERM_CFG_HYST_C)) ≤ s.dev.hottest) :=
  ⟨⟨st ((memOpen base 0).wr MEM_CTX 6 (memCtx 0 8 0)), 7, memCtx 8 (usableBytes / 2 ^ 26 - 16 - 8) 3, by decide +kernel⟩,
   ⟨st ((memOpen base 0).wr MEM_CTX 6 (memCtx 0 8 0)), 7, memCtx 7 1 0, by decide +kernel⟩,
   ⟨st (flashAt (base.st (flashBase + flashBytes - 3) 2 0x0FF0) 0), BitVec.ofNat 27 (flashBytes - 3), [0x3C, 0xFF, 0],
   by decide +kernel⟩,
   ⟨st (flashAt base 1), BitVec.ofNat 27 (flashBytes - 3), [0x3C, 0xFF, 0], by decide +kernel⟩,
   ⟨st (flashAt (base.st (flashBase + 1462 * 65536) 2 0x0FF0) 0), flashErase 1462, by decide +kernel⟩,
   ⟨st (flashAt base 1), flashErase 1462, by decide +kernel⟩,
   ⟨st (apertureAt base ((usableBytes - 0x1000000) / 65536)), 0x3FFFFC0, 64, by decide +kernel⟩,
   ⟨st (apertureAt base ((usableBytes - 0x1000000) / 65536)), 0x3FFFFC0, 64, (List.range 64).map (BitVec.ofNat 8),
   by decide +kernel⟩,
   ⟨st ((apertureAt base 3).st 0x30001 1 7), 0x3000001, 1, by decide +kernel⟩,
   ⟨st (thermalAt base 90 110 7), (List.replicate 15 0x8000 ++ [BitVec.ofNat 16 (90 * 256)]), by decide +kernel⟩,
   ⟨st (thermalAt base 90 127 7), (List.replicate 15 0 ++ [BitVec.ofNat 16 (115 * 256)]), by decide +kernel⟩,
   ⟨st (coolAt base (99 * 256 - 1) 0), by decide +kernel⟩,
   ⟨st (coolAt base (99 * 256) 1), by decide +kernel⟩⟩

/-- The hypotheses of each clause of `Obligations.RegisterAccessesFollowTheirCodes` can be met. -/
theorem witness_RegisterAccessesFollowTheirCodes :
    (∃ (s : State) (c : Ctx), s.dev.reaches Requester.pf = true ∧ s.dev.confidential c.val = false)
    ∧ (∃ (s : State) (c : Ctx), s.dev.reaches Requester.pf = true ∧ s.dev.confidential c.val = false)
    ∧ (∃ (s : State), s.dev.reaches Requester.pf = true)
    ∧ (∃ (s : State), s.dev.reaches Requester.pf = true)
    ∧ (∃ (s : State), s.dev.reaches Requester.pf = false)
    ∧ (∃ (s : State), s.dev.reaches Requester.pf = false)
    ∧ (∃ (s : State), s.dev.reaches Requester.pf = true)
    ∧ (∃ (s : State), s.dev.reaches Requester.pf = true)
    ∧ (∃ (s : State) (h : W32), s.dev.reaches Requester.pf = true ∧ s.dev.latchOf Requester.pf = some
    { who := Requester.pf, reg := HC_SEQ.key 0, high := h })
    ∧ (∃ (s : State), s.dev.reaches Requester.pf = true ∧ s.dev.latchOf Requester.pf = none) :=
  ⟨⟨st (linkUp base), 7, by decide +kernel⟩,
   ⟨st (linkUp base), 0, by decide +kernel⟩,
   ⟨st ((linkUp base).wr CLK_STATUS 0 0xFFFFFFFF), by decide +kernel⟩,
   ⟨st (linkUp base), by decide +kernel⟩,
   ⟨st { base with pcie := { link := false } }, by decide +kernel⟩,
   ⟨st { base with pcie := { perst := true } }, by decide +kernel⟩,
   ⟨st (latchesAt base [⟨.pf, 5, 7⟩, ⟨.vf 7, 5, 7⟩]), by decide +kernel⟩,
   ⟨st (latchesAt base [⟨.pf, 5, 7⟩]), by decide +kernel⟩,
   ⟨st (latchesAt base [⟨.vf 7, 5, 7⟩, ⟨.pf, HC_SEQ.key 0, 0xFFFFFFFF⟩]), 0xFFFFFFFF, by decide +kernel⟩,
   ⟨st (latchesAt base [⟨.vf 7, 5, 7⟩]), by decide +kernel⟩⟩

/-- The hypothesis of the learning words' clause of `Obligations.RoutineWordsDecodeBack` can be met. -/
theorem witness_RoutineWordsDecodeBack : ∃ op : LrnOp, lrnPred op ≠ 4 := ⟨.fin 7, by decide⟩

/-- The hypotheses of each clause of `Obligations.StepsKeepFusesAndQueueOrder` can be met. -/
theorem witness_StepsKeepFusesAndQueueOrder :
    (∃ s t : State, step s = .next t) ∧ (∃ (s : State) (r : Refusal), step s = .refused r) :=
  ⟨⟨State.reset, State.reset, rfl⟩,
   ⟨{ st (debugScope base 8) with pending := [.privateTapInstruction 7] }, .privateTap, by rfl⟩⟩

end Sys2Proof.Tests
end

section
/-! The TAP (R364, R365): what each TAP instruction does to the device, and board test of a device in service. -/

namespace Sys2Proof.Machine

/-- A command that changes the device alone completes with what holds of the changed device. -/
theorem completes_of_exec_eq_run {i : Instr} {s : State} {f : Dev → Dev} {P : Dev → Prop}
    (hexec : exec i s = run f s) (hP : P (f s.dev)) : Completes i s P :=
  ⟨{ s with dev := f s.dev }, hexec.trans (run_eq f s), rfl, rfl, hP⟩

/-! ## What each TAP instruction means -/

section
variable (low : Bool) (s : State)

theorem exec_extest : exec (.extest low) s = run (fun d => d.tapPins 0x00 2 1 0 low) s := rfl

theorem exec_clamp : exec (.clamp low) s = run (fun d => d.tapPins 0x03 0 1 0 low) s := rfl

theorem exec_highz : exec (.highz low) s = run (fun d => d.tapPins 0x04 0 2 0 low) s := rfl

theorem exec_extestPulse : exec (.extestPulse low) s = run (fun d => d.tapPins 0x05 2 1 1 low) s := rfl

theorem exec_extestTrain : exec (.extestTrain low) s = run (fun d => d.tapPins 0x06 2 1 2 low) s := rfl

theorem exec_bypass : exec .bypass s = run (fun d => d.tapBypass 0xFF) s := rfl

end

/-! ## The two things an instruction that could seize the pins can do -/

/-- From `d` to `d'` only the TAP changes: it holds instruction `ir`, selects the bypass register and leaves the pins to the device. -/
def TapBypassed (d : Dev) (ir : Nat) (d' : Dev) : Prop :=
  d' = { d with tap := d'.tap } ∧ d'.tap.ir = ir ∧ d'.tap.dr = 0 ∧ d'.tap.pins = 0 ∧ d'.tap.pulse = 0
    ∧ d'.tap.data = [false] ∧ d'.tap.boundary = d.tap.boundary

/-- From `d` to `d'` only the TAP changes: it selects data register `dr` and puts the pins in mode `pins` with pulses `pulse`; the
boundary register keeps what was shifted into it. -/
def TapDrives (d : Dev) (dr pins pulse : Nat) (d' : Dev) : Prop :=
  d' = { d with tap := d'.tap } ∧ d'.tap.dr = dr ∧ d'.tap.pins = pins ∧ d'.tap.pulse = pulse
    ∧ d'.tap.boundary = d.tap.boundary

theorem Dev.tapBypass_bypassed (d : Dev) (ir : Nat) : TapBypassed d ir (d.tapBypass ir) :=
  ⟨rfl, rfl, rfl, rfl, rfl, rfl, rfl⟩

section
variable {d : Dev} {low : Bool} (ir dr pins pulse : Nat)

/-- In DEPLOYED with RESET_N high the instruction is BYPASS (R365). -/
theorem Dev.tapPins_eq_tapBypass (hdep : d.lifecycle = 1) (hhigh : low = false) :
    d.tapPins ir dr pins pulse low = d.tapBypass ir :=
  if_pos ⟨hdep, by simp [hhigh]⟩

/-- Outside DEPLOYED, or with RESET_N low, the instruction takes effect (R365). -/
theorem Dev.tapPins_drives (h : d.lifecycle ≠ 1 ∨ low = true) :
    TapDrives d dr pins pulse (d.tapPins ir dr pins pulse low) := by
  have hfree : ¬ (d.lifecycle = 1 ∧ !low) := by
    rintro ⟨hdep, hhigh⟩
    rcases h with hlife | hlow
    · exact hlife hdep
    · simp [hlow] at hhigh
  unfold Dev.tapPins
  rw [if_neg hfree]
  exact ⟨rfl, rfl, rfl, rfl, rfl⟩

end

section
variable {i : Instr} {s : State} {low : Bool} {ir dr pins pulse : Nat}
  (hexec : exec i s = run (fun d => d.tapPins ir dr pins pulse low) s)
include hexec

theorem completes_bypassed_of_deployed (hdep : s.dev.lifecycle = 1) (hhigh : low = false) :
    Completes i s (TapBypassed s.dev ir) :=
  completes_of_exec_eq_run hexec <| by
    rw [Dev.tapPins_eq_tapBypass ir dr pins pulse hdep hhigh]
    exact s.dev.tapBypass_bypassed ir

theorem completes_drives_of_free (h : s.dev.lifecycle ≠ 1 ∨ low = true) :
    Completes i s (TapDrives s.dev dr pins pulse) :=
  completes_of_exec_eq_run hexec (Dev.tapPins_drives ir dr pins pulse h)

end

/-- Settles O38: with RESET_N high each of the five instructions is BYPASS, with RESET_N low each takes effect. -/
theorem deployedPinsAreNotSeized : Obligations.DeployedPinsAreNotSeized := by
  intro s hdep
  have high {i : Instr} {ir dr pins pulse : Nat}
      (hexec : exec i s = run (fun d => d.tapPins ir dr pins pulse false) s) :
      Completes i s (TapBypassed s.dev ir) := completes_bypassed_of_deployed hexec hdep rfl
  have low {i : Instr} {ir dr pins pulse : Nat}
      (hexec : exec i s = run (fun d => d.tapPins ir dr pins pulse true) s) :
      Completes i s (TapDrives s.dev dr pins pulse) := completes_drives_of_free hexec (.inr rfl)
  exact ⟨completes_of_exec_eq_run (exec_bypass s) (s.dev.tapBypass_bypassed 0xFF),
    high (exec_extest false s), low (exec_extest true s),
    high (exec_clamp false s), low (exec_clamp true s),
    high (exec_highz false s), low (exec_highz true s),
    high (exec_extestPulse false s), low (exec_extestPulse true s),
    high (exec_extestTrain false s), low (exec_extestTrain true s)⟩

end Sys2Proof.Machine
end

section
/-! The timers (R498 to R502): what a timer clock leaves of each channel, and a write of a channel's control register. -/

namespace Sys2Proof.Machine

/-! ## What a change of some registers leaves -/

/-- From `d` to `d'` no register but those with the listed keys changes, nor the debug halt, nor the timer writes that wait. -/
structure ChangesRegs (keys : List Nat) (d d' : Dev) : Prop where
  regs : KeepsRegsBut keys d d'
  halt : d'.dbgHalt = d.dbgHalt
  tmr : d'.tmr = d.tmr

namespace ChangesRegs
variable {keys more : List Nat} {d d' d'' : Dev}

theorem refl (keys : List Nat) (d : Dev) : ChangesRegs keys d d := ⟨fun _ _ _ => rfl, rfl, rfl⟩

theorem trans (h : ChangesRegs keys d d') (h' : ChangesRegs keys d' d'') : ChangesRegs keys d d'' :=
  ⟨fun r i hk => (h'.regs r i hk).trans (h.regs r i hk), h'.halt.trans h.halt, h'.tmr.trans h.tmr⟩

theorem mono (h : ChangesRegs keys d d') (hsub : keys ⊆ more) : ChangesRegs more d d' :=
  ⟨fun r i hk => h.regs r i (fun hm => hk (hsub hm)), h.halt, h.tmr⟩

theorem wr (d : Dev) {r : Reg} {i : Nat} (hk : r.key i ∈ keys) (v : W64) : ChangesRegs keys d (d.wr r i v) where
  regs r' i' hk' := d.rd_wr_other r r' i i' v (ne_of_mem_of_not_mem hk hk').symm
  halt := d.wr_dbgHalt r i v
  tmr := d.wr_tmr r i v

theorem setF (d : Dev) {r : Reg} {i : Nat} (hk : r.key i ∈ keys) (f : Fld) (n : Nat) : ChangesRegs keys d (d.setF r i f n) :=
  wr d hk _

theorem msix (d : Dev) (fn vec : Nat) : ChangesRegs keys d (d.msix fn vec) := by
  obtain ⟨q, o, h⟩ := d.msix_frame fn vec
  rw [h]
  exact ⟨fun _ _ _ => rfl, rfl, rfl⟩

/-- What each step of a fold changes, the fold changes, as long as the steps keep what each of them needs. -/
theorem foldl {α : Type} {p : Dev → Prop} {f : Dev → α → Dev} (hp : ∀ {d d'}, ChangesRegs keys d d' → p d → p d') (l : List α)
    (hf : ∀ a ∈ l, ∀ d, p d → ChangesRegs keys d (f d a)) (hd : p d) : ChangesRegs keys d (l.foldl f d) := by
  induction l generalizing d with
  | nil => exact refl keys d
  | cons a l ih =>
    have first := hf a List.mem_cons_self d hd
    exact first.trans (ih (fun b hb => hf b (List.mem_cons_of_mem a hb)) (hp first hd))

theorem fld (h : ChangesRegs keys d d') {r : Reg} {i : Nat} (hk : r.key i ∉ keys) (f : Fld) : d'.fld r i f = d.fld r i f :=
  congrArg f.get (h.regs r i hk)

theorem flag (h : ChangesRegs keys d d') {r : Reg} {i : Nat} (hk : r.key i ∉ keys) (f : Fld) : d'.flag r i f = d.flag r i f :=
  congrArg (· != 0) (h.fld hk f)

theorem tmrSlow (h : ChangesRegs keys d d') (hk : CLK_STATUS.key 0 ∉ keys) : d'.tmrSlow = d.tmrSlow := by
  unfold Dev.tmrSlow
  rw [h.fld hk, h.halt]

end ChangesRegs

/-! ## One channel's share of a timer clock (R500, R501) -/

/-- The registers of channel `n` that its step can change. -/
def channelKeys (n : Nat) : List Nat := [TMR_CTRL.key n, TMR_COUNT.key n, TMR_STATUS.key n]

/-- What a timer clock does to channel `n`. -/
def Dev.tmrChannel (d : Dev) (n : Nat) : Dev := ((d.tmrDue n).tmrStep n).2.tmrShow n

/-- What R500's listing gives for channel `n` as it stands. -/
def Dev.tmrNext (d : Dev) (n : Nat) : Nat × Bool × Bool :=
  timerStep (d.fld TMR_PERIOD n TMR_PERIOD_PERIOD) (d.fld TMR_COUNT n TMR_COUNT_COUNT) (d.fld TMR_CMP n TMR_CMP_CMP)
    (if d.tmrSlow then 100 else 1)


/-- The registers that a channel's step reads or changes. -/
def channelRegs : List Reg := [TMR_CTRL, TMR_COUNT, TMR_PERIOD, TMR_CMP, TMR_STATUS]

section
variable {d : Dev} {n : Nat}

theorem Dev.tmrDue_of_none (h : d.tmr = []) (n : Nat) : d.tmrDue n = d := by
  cases d
  cases h
  rfl

/-- The device when channel `n` has counted on and flagged a wrap. -/
def Dev.tmrCounted (d : Dev) (n : Nat) : Dev :=
  let d' := d.setF TMR_COUNT n TMR_COUNT_COUNT (d.tmrNext n).1
  if (d.tmrNext n).2.2 then d'.setF TMR_STATUS n TMR_STATUS_OVF 1 else d'

/-- The device when channel `n` has counted on and matched. -/
def Dev.tmrMatched (d : Dev) (n : Nat) : Dev := (d.tmrCounted n).setF TMR_STATUS n TMR_STATUS_MATCH 1

theorem Dev.tmrCounted_changes (d : Dev) (n : Nat) :
    ChangesRegs [TMR_STATUS.key n] (d.setF TMR_COUNT n TMR_COUNT_COUNT (d.tmrNext n).1) (d.tmrCounted n) := by
  unfold Dev.tmrCounted
  split
  · exact .setF _ (List.mem_singleton_self _) _ _
  · exact .refl _ _

theorem Dev.tmrMatched_changes (d : Dev) (n : Nat) :
    ChangesRegs [TMR_STATUS.key n] (d.setF TMR_COUNT n TMR_COUNT_COUNT (d.tmrNext n).1) (d.tmrMatched n) :=
  (d.tmrCounted_changes n).trans (.setF _ (List.mem_singleton_self _) _ _)

theorem Dev.tmrShow_changes (d : Dev) (n : Nat) : ChangesRegs [TMR_STATUS.key n] d (d.tmrShow n) :=
  (ChangesRegs.setF d (List.mem_singleton_self _) _ _).trans (.setF _ (List.mem_singleton_self _) _ _)

theorem Dev.tmrShow_match (d : Dev) (n : Nat) :
    (d.tmrShow n).fld TMR_STATUS n TMR_STATUS_MATCH = d.fld TMR_STATUS n TMR_STATUS_MATCH := by
  unfold Dev.tmrShow
  dsimp only
  rw [Dev.fld_setF_other _ _ _ _ TMR_STATUS_PENDING _ (by decide) (by decide) (by decide),
    Dev.fld_setF_other _ _ _ _ TMR_STATUS_CMP_RANGE _ (by decide) (by decide) (by decide)]

theorem Dev.tmrStep_of_disabled (hen : d.flag TMR_CTRL n TMR_CTRL_EN = false) : d.tmrStep n = (false, d) := by
  unfold Dev.tmrStep
  rw [hen]
  rfl

theorem Dev.tmrStep_of_enabled (hen : d.flag TMR_CTRL n TMR_CTRL_EN = true) :
    d.tmrStep n = if (d.tmrNext n).2.1 then
        (true, if (d.tmrMatched n).flag TMR_CTRL n TMR_CTRL_ONESHOT then (d.tmrMatched n).setF TMR_CTRL n TMR_CTRL_EN 0 else d.tmrMatched n)
      else (false, d.tmrCounted n) := by
  unfold Dev.tmrStep
  rw [hen]
  rfl

/-- A step changes the channel's control, count and status alone. -/
theorem Dev.tmrStep_changes (d : Dev) (n : Nat) : ChangesRegs (channelKeys n) d (d.tmrStep n).2 := by
  have status : [TMR_STATUS.key n] ⊆ channelKeys n := by simp [channelKeys]
  have count : ChangesRegs (channelKeys n) d (d.setF TMR_COUNT n TMR_COUNT_COUNT (d.tmrNext n).1) :=
    .setF d (by simp [channelKeys]) _ _
  have counted := count.trans ((d.tmrCounted_changes n).mono status)
  have matched := count.trans ((d.tmrMatched_changes n).mono status)
  cases hen : d.flag TMR_CTRL n TMR_CTRL_EN with
  | false =>
    rw [Dev.tmrStep_of_disabled hen]
    exact .refl _ _
  | true =>
    rw [Dev.tmrStep_of_enabled hen]
    split
    · dsimp only
      split
      · exact matched.trans (.setF _ (by simp [channelKeys]) _ _)
      · exact matched
    · exact counted

/-- With no write due a timer clock changes the channel's control, count and status alone. -/
theorem Dev.tmrChannel_changes (h : d.tmr = []) (n : Nat) : ChangesRegs (channelKeys n) d (d.tmrChannel n) := by
  unfold Dev.tmrChannel
  rw [Dev.tmrDue_of_none h]
  exact (d.tmrStep_changes n).trans ((Dev.tmrShow_changes _ n).mono (by simp [channelKeys]))

end

/-! ## What a timer clock leaves in a channel that is enabled -/

theorem key_ne_of_id_ne {r r' : Reg} {n : Nat} (hn : n < 8) (h : r.id ≠ r'.id) : r.key n ≠ r'.key n :=
  Reg.key_ne r' r n n (by omega) (by omega) (.inl h)

section
variable {d : Dev} {n : Nat}

theorem Dev.tmrMatched_ctrl (hn : n < 8) (f : Fld) : (d.tmrMatched n).flag TMR_CTRL n f = d.flag TMR_CTRL n f := by
  rw [(d.tmrMatched_changes n).flag (by simpa using key_ne_of_id_ne hn (by decide))]
  exact congrArg (· != 0) (d.fld_setF_apart _ _ _ _ f _ _ (key_ne_of_id_ne hn (by decide)))

theorem Dev.tmrStep_of_stop (hn : n < 8) (hen : d.flag TMR_CTRL n TMR_CTRL_EN = true) (hit : (d.tmrNext n).2.1 = true)
    (one : d.flag TMR_CTRL n TMR_CTRL_ONESHOT = true) : (d.tmrStep n).2 = (d.tmrMatched n).setF TMR_CTRL n TMR_CTRL_EN 0 := by
  rw [Dev.tmrStep_of_enabled hen, if_pos hit, Dev.tmrMatched_ctrl hn, if_pos one]

theorem Dev.tmrStep_of_match (hn : n < 8) (hen : d.flag TMR_CTRL n TMR_CTRL_EN = true) (hit : (d.tmrNext n).2.1 = true)
    (one : d.flag TMR_CTRL n TMR_CTRL_ONESHOT = false) : (d.tmrStep n).2 = d.tmrMatched n := by
  rw [Dev.tmrStep_of_enabled hen, if_pos hit, Dev.tmrMatched_ctrl hn, one]
  rfl

/-- Apart from the count, the step of an enabled channel touches its control and status alone. -/
theorem Dev.tmrStep_flags (hn : n < 8) (hen : d.flag TMR_CTRL n TMR_CTRL_EN = true) :
    ChangesRegs [TMR_CTRL.key n, TMR_STATUS.key n] (d.setF TMR_COUNT n TMR_COUNT_COUNT (d.tmrNext n).1) (d.tmrStep n).2 := by
  have matched := (d.tmrMatched_changes n).mono (List.subset_cons_self (TMR_CTRL.key n) _)
  cases hit : (d.tmrNext n).2.1 with
  | false =>
    rw [Dev.tmrStep_of_enabled hen, hit]
    exact (d.tmrCounted_changes n).mono (List.subset_cons_self _ _)
  | true =>
    cases one : d.flag TMR_CTRL n TMR_CTRL_ONESHOT with
    | false => rw [Dev.tmrStep_of_match hn hen hit one]; exact matched
    | true => rw [Dev.tmrStep_of_stop hn hen hit one]; exact matched.trans (.setF _ List.mem_cons_self _ _)

/-- The count is that of R500's step. -/
theorem Dev.tmrStep_count (hn : n < 8) (hen : d.flag TMR_CTRL n TMR_CTRL_EN = true) :
    (d.tmrStep n).2.fld TMR_COUNT n TMR_COUNT_COUNT = (d.tmrNext n).1 % 2 ^ 32 := by
  have apart : TMR_COUNT.key n ∉ [TMR_CTRL.key n, TMR_STATUS.key n] := by
    simp [key_ne_of_id_ne hn (show TMR_COUNT.id ≠ TMR_CTRL.id by decide), key_ne_of_id_ne hn (show TMR_COUNT.id ≠ TMR_STATUS.id by decide)]
  rw [(Dev.tmrStep_flags hn hen).fld apart]
  exact d.fld_setF_same _ _ _ _ (by decide)

/-- A match sets MATCH (R507). -/
theorem Dev.tmrStep_match (hn : n < 8) (hen : d.flag TMR_CTRL n TMR_CTRL_EN = true) (hit : (d.tmrNext n).2.1 = true) :
    (d.tmrStep n).2.fld TMR_STATUS n TMR_STATUS_MATCH = 1 := by
  have matched : (d.tmrMatched n).fld TMR_STATUS n TMR_STATUS_MATCH = 1 := Dev.fld_setF_same _ _ _ _ _ (by decide)
  cases one : d.flag TMR_CTRL n TMR_CTRL_ONESHOT with
  | false => rw [Dev.tmrStep_of_match hn hen hit one, matched]
  | true => rw [Dev.tmrStep_of_stop hn hen hit one, Dev.fld_setF_apart _ _ _ _ _ _ _ _ (key_ne_of_id_ne hn (by decide)), matched]

/-- A match with ONESHOT 0 leaves EN, and with ONESHOT 1 clears it (R501). -/
theorem Dev.tmrStep_enable (hn : n < 8) (hen : d.flag TMR_CTRL n TMR_CTRL_EN = true) (hit : (d.tmrNext n).2.1 = true) :
    (d.tmrStep n).2.flag TMR_CTRL n TMR_CTRL_EN = !d.flag TMR_CTRL n TMR_CTRL_ONESHOT := by
  cases one : d.flag TMR_CTRL n TMR_CTRL_ONESHOT with
  | false => rw [Dev.tmrStep_of_match hn hen hit one, Dev.tmrMatched_ctrl hn, hen]; rfl
  | true =>
    rw [Dev.tmrStep_of_stop hn hen hit one]
    exact congrArg (· != 0) (Dev.fld_setF_same _ _ _ _ _ (by decide))

end

/-! ## A timer clock of the eight channels -/

/-- From `d` to `d'` nothing changes that channel `n` holds or its step reads. -/
structure LeavesChannel (n : Nat) (d d' : Dev) : Prop where
  regs : ∀ r ∈ channelRegs, d'.rd r n = d.rd r n
  slow : d'.tmrSlow = d.tmrSlow

section
variable {n : Nat} {keys : List Nat} {d d' d'' : Dev}

theorem LeavesChannel.trans (h : LeavesChannel n d d') (h' : LeavesChannel n d' d'') : LeavesChannel n d d'' :=
  ⟨fun r hr => (h'.regs r hr).trans (h.regs r hr), h'.slow.trans h.slow⟩

theorem ChangesRegs.leavesChannel (h : ChangesRegs keys d d') (hreg : ∀ r ∈ channelRegs, r.key n ∉ keys)
    (hclk : CLK_STATUS.key 0 ∉ keys) : LeavesChannel n d d' :=
  ⟨fun r hr => h.regs r n (hreg r hr), h.tmrSlow hclk⟩

theorem LeavesChannel.fld (h : LeavesChannel n d d') {r : Reg} (hr : r ∈ channelRegs) (f : Fld) : d'.fld r n f = d.fld r n f :=
  congrArg f.get (h.regs r hr)

theorem LeavesChannel.flag (h : LeavesChannel n d d') {r : Reg} (hr : r ∈ channelRegs) (f : Fld) : d'.flag r n f = d.flag r n f :=
  congrArg (· != 0) (h.fld hr f)

theorem LeavesChannel.tmrNext (h : LeavesChannel n d d') : d'.tmrNext n = d.tmrNext n := by
  unfold Dev.tmrNext
  rw [h.fld (by simp [channelRegs]), h.fld (by simp [channelRegs]), h.fld (by simp [channelRegs]), h.slow]

/-- A key of another register, or of a channel not in the list, is none of those that the channels of a list change. -/
theorem key_notMem_channels {l : List Nat} (hl : ∀ k ∈ l, k < 8) {r : Reg} {i : Nat} (hi : i < 8)
    (h : i ∉ l ∨ r.id ∉ [TMR_CTRL.id, TMR_COUNT.id, TMR_STATUS.id]) : r.key i ∉ l.flatMap channelKeys := by
  intro hm
  obtain ⟨k, hk, hm⟩ := List.mem_flatMap.1 hm
  have hk8 := hl k hk
  have apart (q : Reg) (hq : q.id ∈ [TMR_CTRL.id, TMR_COUNT.id, TMR_STATUS.id]) : r.key i ≠ q.key k :=
    Reg.key_ne q r k i (by omega) (by omega) (h.symm.imp (fun hn he => hn (he ▸ hq)) (fun hn he => hn (he ▸ hk)))
  simp only [channelKeys, List.mem_cons, List.not_mem_nil, or_false] at hm
  rcases hm with hm | hm | hm
  · exact apart TMR_CTRL (by simp) hm
  · exact apart TMR_COUNT (by simp) hm
  · exact apart TMR_STATUS (by simp) hm

/-- With no write due the channels of a list change their own registers alone. -/
theorem channels_change (h : d.tmr = []) (l : List Nat) : ChangesRegs (l.flatMap channelKeys) d (l.foldl Dev.tmrChannel d) := by
  refine ChangesRegs.foldl (p := fun d => d.tmr = []) (fun hc hp => hc.tmr.trans hp) l (fun k hk d hd => ?_) h
  exact (Dev.tmrChannel_changes hd k).mono (fun _ hm => List.mem_flatMap.2 ⟨k, hk, hm⟩)

theorem channels_leave (h : d.tmr = []) {l : List Nat} (hl : ∀ k ∈ l, k < 8) (hn : n < 8) (hnl : n ∉ l) :
    LeavesChannel n d (l.foldl Dev.tmrChannel d) :=
  (channels_change h l).leavesChannel (fun _ _ => key_notMem_channels hl hn (.inl hnl))
    (key_notMem_channels hl (by omega) (.inr (by decide)))

end

/-! ## The flags signalled -/

/-- The registers that show what the channels have flagged: interrupts and wake causes (R507, R508). -/
def signalKeys : List Nat := [TMR_INT_STATUS.key 0, PWR_WAKE_CAUSE.key 0]

theorem key_notMem_signals {r : Reg} {i : Nat} (hi : i < 8) (h : r.id ∉ [TMR_INT_STATUS.id, PWR_WAKE_CAUSE.id]) :
    r.key i ∉ signalKeys := by
  simp only [List.mem_cons, List.not_mem_nil, or_false, not_or] at h
  simp only [signalKeys, List.mem_cons, List.not_mem_nil, or_false, not_or]
  exact ⟨Reg.key_ne _ r 0 i (by omega) (by omega) (.inl h.1), Reg.key_ne _ r 0 i (by omega) (by omega) (.inl h.2)⟩

theorem Dev.tmrInt_changes (d : Dev) : ChangesRegs signalKeys d d.tmrInt := by
  unfold Dev.tmrInt
  dsimp only
  have shown (n : Nat) : ChangesRegs signalKeys d (d.setF TMR_INT_STATUS 0 TMR_INT_STATUS_CHAN n) :=
    .setF d (by simp [signalKeys]) _ _
  split
  · exact (shown _).trans (.msix _ _ _)
  · exact shown _

/-- A wake source that is not enabled only sets its PENDING bit (R489). -/
theorem Dev.wake_changes_of_disabled {d : Dev} (h : d.fld PWR_WAKE_EN 0 PWR_WAKE_EN_EN = 0) (f : Fuses) (n : Nat) (x : BootFind) :
    ChangesRegs signalKeys d (d.wake f n x) := by
  unfold Dev.wake
  rw [h, Nat.zero_testBit]
  exact .setF d (by simp [signalKeys]) _ _

theorem wakes_change {d : Dev} (h : d.fld PWR_WAKE_EN 0 PWR_WAKE_EN_EN = 0) (f : Fuses) (x : BootFind) (hits : List Nat) :
    ChangesRegs signalKeys d (hits.foldl (fun d n => d.wake f (2 + n) x) d) := by
  have wakeEn : PWR_WAKE_EN.key 0 ∉ signalKeys := key_notMem_signals (by decide) (by decide)
  exact .foldl (p := fun d => d.fld PWR_WAKE_EN 0 PWR_WAKE_EN_EN = 0) (fun hc hp => (hc.fld wakeEn _).trans hp) hits
    (fun n _ d hd => Dev.wake_changes_of_disabled hd f (2 + n) x) h

/-! ## TIMER_STEP -/

/-- The matches collected, and the device, when one more channel has had its share of the clock. -/
def tmrRound (acc : List Nat × Dev) (n : Nat) : List Nat × Dev :=
  let step := (acc.2.tmrDue n).tmrStep n
  (if step.1 then acc.1 ++ [n] else acc.1, step.2.tmrShow n)

theorem exec_timerStep_ready {s : State} (hphase : s.dev.phase = .ready) (x : BootFind) :
    ∃ hits : List Nat, exec (.timerStep x) s = .next { s with
      dev := hits.foldl (fun d n => d.wake s.fuses (2 + n) x) ((List.range 8).foldl Dev.tmrChannel s.dev).tmrInt } := by
  refine ⟨((List.range 8).foldl tmrRound ([], s.dev)).1, ?_⟩
  have round : (List.range 8).foldl Dev.tmrChannel s.dev = ((List.range 8).foldl tmrRound ([], s.dev)).2 :=
    List.foldl_hom Prod.snd (init := ([], s.dev)) (fun _ _ => rfl)
  have on : ¬ (s.dev.phase = .off ∨ (s.dev.phase = .held ∧ !s.dev.tripped)) := by simp [hphase]
  change execTimerStep x s = _
  unfold execTimerStep
  rw [runF_eq, if_neg on, round]
  rfl

/-- With no write due and no wake source enabled, channel `n` holds after the clock what its share of the clock leaves in a device
where it stood as before. -/
theorem exec_timerStep_channel {s : State} (hphase : s.dev.phase = .ready) (htmr : s.dev.tmr = [])
    (hwake : s.dev.fld PWR_WAKE_EN 0 PWR_WAKE_EN_EN = 0) (x : BootFind) {n : Nat} (hn : n < 8) :
    ∃ d d', exec (.timerStep x) s = .next { s with dev := d' } ∧ d.tmr = [] ∧ LeavesChannel n s.dev d
      ∧ LeavesChannel n (d.tmrChannel n) d' := by
  obtain ⟨hits, hexec⟩ := exec_timerStep_ready hphase x
  obtain ⟨before, after, hrange⟩ := List.append_of_mem (List.mem_range.2 hn)
  have below : ∀ k ∈ before ++ n :: after, k < 8 := fun k hk => List.mem_range.1 (hrange ▸ hk)
  obtain ⟨hbefore, hafter⟩ : n ∉ before ∧ n ∉ after := by
    have nodup := hrange ▸ List.nodup_range (n := 8)
    grind
  have idle := (channels_change htmr before).tmr.trans htmr
  refine ⟨before.foldl Dev.tmrChannel s.dev, _, hexec, idle, channels_leave htmr (fun k hk => below k (by simp [hk])) hn hbefore, ?_⟩
  have rest := channels_leave ((Dev.tmrChannel_changes idle n).tmr.trans idle) (l := after) (fun k hk => below k (by simp [hk])) hn hafter
  have all : (List.range 8).foldl Dev.tmrChannel s.dev = after.foldl Dev.tmrChannel ((before.foldl Dev.tmrChannel s.dev).tmrChannel n) := by
    rw [hrange, List.foldl_append, List.foldl_cons]
  have wakeEn : ((List.range 8).foldl Dev.tmrChannel s.dev).tmrInt.fld PWR_WAKE_EN 0 PWR_WAKE_EN_EN = 0 := by
    rw [(Dev.tmrInt_changes _).fld (key_notMem_signals (by decide) (by decide)),
      (channels_change htmr (List.range 8)).fld (key_notMem_channels (fun k => List.mem_range.1) (by decide) (.inr (by decide))), hwake]
  have signals := (Dev.tmrInt_changes _).trans (wakes_change wakeEn s.fuses x hits)
  rw [all] at signals ⊢
  exact rest.trans (signals.leavesChannel (fun r hr => key_notMem_signals hn (by revert r; decide))
    (key_notMem_signals (by decide) (by decide)))

/-! ## A write of TMR_CTRL (R511) -/

/-- The four bytes of channel `n`'s control register are that register whole (R511). -/
theorem reach_tmrCtrl : ∀ n : Fin 8, reach none (0x40000 + n.val * 0x40) 4 = .ok [⟨TMR_CTRL, n.val, .whole, 0⟩]
  | 0 | 1 | 2 | 3 | 4 | 5 | 6 | 7 => rfl

theorem inTiles_tmrCtrl : ∀ n : Fin 8, inTiles TMR_CTRL n.val = false := by
  decide

theorem Dev.closedOff_tmrCtrl (d : Dev) (who : Requester) (n : Nat) : d.closedOff who TMR_CTRL n = false := by
  have unlisted : d.closedOff who TMR_CTRL n = (viaPf who && false) := rfl
  rw [unlisted, Bool.and_false]

theorem Dev.writeReg_tmrCtrl (d : Dev) (w : WEnv) (who : Requester) (n : Fin 8) (h : Half) (v : W64) :
    d.writeReg w who TMR_CTRL n.val h v = (d.store TMR_CTRL n.val h v).tmrInt := by
  unfold Dev.writeReg
  rw [inTiles_tmrCtrl, if_neg (by simp)]
  rfl

/-- EN holds what a whole write of the register brings. -/
theorem TMR_CTRL_written_EN (old v : W64) :
    (TMR_CTRL.written old v (halfCover .whole)).getLsbD 0 = v.getLsbD 0 := by
  simp [Reg.written, TMR_CTRL, TMR_CTRL_IE_OVF, TMR_CTRL_IE_MATCH, TMR_CTRL_ONESHOT, TMR_CTRL_EN, halfCover, Fld.mask]

theorem Dev.regStore_tmrCtrl (d : Dev) (w : WEnv) (n : Fin 8) (v : Nat) :
    d.regStore w .pf (0x40000 + n.val * 0x40) 4 v = (d.store TMR_CTRL n.val .whole (BitVec.ofNat 64 (v % 2 ^ 32))).tmrInt := by
  have value : (⟨TMR_CTRL, n.val, .whole, 0⟩ : Part).value v = BitVec.ofNat 64 (v % 2 ^ 32) := by simp [Part.value, TMR_CTRL]
  simp [Dev.regStore, windowOf, reach_tmrCtrl, Dev.closedOff_tmrCtrl, Dev.writeReg_tmrCtrl, value]

theorem exec_write_tmrCtrl {s : State} (hreach : s.dev.reaches .pf = true) (n : Fin 8) (v : W64) (now : Nat) (x : BootFind) :
    exec (.registerWrite .pf (BitVec.ofNat 26 (0x40000 + n.val * 0x40)) 4 v false now x) s = .next { s with
      dev := (s.dev.store TMR_CTRL n.val .whole (BitVec.ofNat 64 (v.toNat % 2 ^ 32))).tmrInt } := by
  have offset : (BitVec.ofNat 26 (0x40000 + n.val * 0x40)).toNat = 0x40000 + n.val * 0x40 := by
    rw [BitVec.toNat_ofNat]; omega
  have block : inBlocks .pf (0x40000 + n.val * 0x40) = true := by simp [inBlocks, windowOf]; omega
  have bytes : (4 : Fin 9).val = 4 := rfl
  have value : v.toNat % 256 ^ 4 % 2 ^ 32 = v.toNat % 2 ^ 32 := Nat.mod_mod _ _
  change execRegisterWrite .pf _ 4 v false now x s = _
  unfold execRegisterWrite
  rw [runF_eq, offset, if_pos ⟨hreach, block⟩, if_neg Bool.false_ne_true, bytes, Dev.regStore_tmrCtrl, value]

/-- A whole write with EN = 1 enables the channel and leaves its count. -/
theorem Dev.store_tmrCtrl_enables (d : Dev) {n : Nat} (hn : n < 8) {v : W64} (hv : v.getLsbD 0 = true) :
    (d.store TMR_CTRL n .whole v).tmrInt.flag TMR_CTRL n TMR_CTRL_EN = true
    ∧ (d.store TMR_CTRL n .whole v).tmrInt.fld TMR_COUNT n TMR_COUNT_COUNT = d.fld TMR_COUNT n TMR_COUNT_COUNT := by
  have signals := (d.store TMR_CTRL n .whole v).tmrInt_changes
  have stored : ChangesRegs [TMR_CTRL.key n] d (d.store TMR_CTRL n .whole v) := .wr d (List.mem_singleton_self _) _
  constructor
  · rw [signals.flag (key_notMem_signals hn (by decide))]
    have bit : ((d.store TMR_CTRL n .whole v).fld TMR_CTRL n TMR_CTRL_EN).testBit 0 = true := by
      unfold Dev.fld Dev.store
      rw [Fld.get_bit, Dev.rd_wr_same, TMR_CTRL_EN, TMR_CTRL_written_EN, hv]
      rfl
    exact bne_iff_ne.2 (fun h0 => by rw [h0] at bit; simp at bit)
  · rw [signals.fld (key_notMem_signals hn (by decide)),
      stored.fld (by simpa using key_ne_of_id_ne hn (show TMR_COUNT.id ≠ TMR_CTRL.id by decide))]

/-! ## One-shot channels (R501) -/

section
variable {s : State} {n : Nat} (hphase : s.dev.phase = .ready) (htmr : s.dev.tmr = [])
  (hwake : s.dev.fld PWR_WAKE_EN 0 PWR_WAKE_EN_EN = 0) (hn : n < 8) (x : BootFind)
include hphase htmr hwake hn

/-- What holds of the channel after its step holds after the clock: CMP_RANGE and PENDING follow, and nothing else. -/
theorem completes_timerStep {P : Dev → Prop} (hP : ∀ d d', LeavesChannel n s.dev d →
    (∀ f, d'.fld TMR_COUNT n f = (d.tmrStep n).2.fld TMR_COUNT n f) → (∀ f, d'.flag TMR_CTRL n f = (d.tmrStep n).2.flag TMR_CTRL n f) →
    d'.fld TMR_STATUS n TMR_STATUS_MATCH = (d.tmrStep n).2.fld TMR_STATUS n TMR_STATUS_MATCH → P d') :
    Completes (.timerStep x) s P := by
  obtain ⟨d, d', hexec, idle, before, after⟩ := exec_timerStep_channel hphase htmr hwake x hn
  have share : d.tmrChannel n = (d.tmrStep n).2.tmrShow n := by
    unfold Dev.tmrChannel
    rw [Dev.tmrDue_of_none idle]
  rw [share] at after
  have shown := (d.tmrStep n).2.tmrShow_changes n
  refine ⟨_, hexec, rfl, rfl, hP d d' before (fun f => ?_) (fun f => ?_) ?_⟩
  · rw [after.fld (by simp [channelRegs]), shown.fld (by simpa using key_ne_of_id_ne hn (by decide))]
  · rw [after.flag (by simp [channelRegs]), shown.flag (by simpa using key_ne_of_id_ne hn (by decide))]
  · rw [after.fld (by simp [channelRegs]), Dev.tmrShow_match]

/-- A channel that is not enabled holds its count (R500). -/
theorem timerStep_holds_of_disabled (hen : s.dev.flag TMR_CTRL n TMR_CTRL_EN = false) :
    Completes (.timerStep x) s (fun d => d.fld TMR_COUNT n TMR_COUNT_COUNT = s.dev.fld TMR_COUNT n TMR_COUNT_COUNT
      ∧ d.flag TMR_CTRL n TMR_CTRL_EN = false) := by
  refine completes_timerStep hphase htmr hwake hn x (fun d d' same count ctrl _ => ?_)
  have off := (same.flag (by simp [channelRegs]) _).trans hen
  rw [Dev.tmrStep_of_disabled off] at count ctrl
  exact ⟨(count _).trans (same.fld (by simp [channelRegs]) _), (ctrl _).trans off⟩

/-- An enabled channel takes R500's step. -/
theorem timerStep_counts_of_enabled (hen : s.dev.flag TMR_CTRL n TMR_CTRL_EN = true) :
    Completes (.timerStep x) s (fun d => d.fld TMR_COUNT n TMR_COUNT_COUNT = (s.dev.tmrNext n).1 % 2 ^ 32) := by
  refine completes_timerStep hphase htmr hwake hn x (fun d d' same count _ _ => ?_)
  rw [count, Dev.tmrStep_count hn ((same.flag (by simp [channelRegs]) _).trans hen), same.tmrNext]

/-- A match sets MATCH, holds the count that it reached, and leaves EN unless ONESHOT is 1. -/
theorem timerStep_matches (hen : s.dev.flag TMR_CTRL n TMR_CTRL_EN = true) (hit : (s.dev.tmrNext n).2.1 = true) :
    Completes (.timerStep x) s (fun d => d.flag TMR_CTRL n TMR_CTRL_EN = (!s.dev.flag TMR_CTRL n TMR_CTRL_ONESHOT)
      ∧ d.fld TMR_STATUS n TMR_STATUS_MATCH = 1 ∧ d.fld TMR_COUNT n TMR_COUNT_COUNT = (s.dev.tmrNext n).1 % 2 ^ 32) := by
  refine completes_timerStep hphase htmr hwake hn x (fun d d' same count ctrl status => ?_)
  have on := (same.flag (by simp [channelRegs]) _).trans hen
  have hit' : (d.tmrNext n).2.1 = true := by rw [same.tmrNext, hit]
  refine ⟨?_, ?_, ?_⟩
  · rw [ctrl, Dev.tmrStep_enable hn on hit', same.flag (by simp [channelRegs])]
  · rw [status, Dev.tmrStep_match hn on hit']
  · rw [count, Dev.tmrStep_count hn on, same.tmrNext]

end

/-- Settles O52: the channel's share of the clock clears EN at a match exactly when ONESHOT is 1, and no other share touches it. -/
theorem oneShotChannelsStopAtTheMatch : Obligations.OneShotChannelsStopAtTheMatch := by
  intro n x s hphase htmr hwake r en one
  refine ⟨timerStep_counts_of_enabled hphase htmr hwake n.isLt x, timerStep_holds_of_disabled hphase htmr hwake n.isLt x,
    fun hen hit hone => ?_, fun hen hit hone => ?_, fun now v hreach hv => ?_⟩
  · have matched := timerStep_matches hphase htmr hwake n.isLt x hen hit
    rw [show s.dev.flag TMR_CTRL n TMR_CTRL_ONESHOT = false from hone] at matched
    exact matched
  · have matched := timerStep_matches hphase htmr hwake n.isLt x hen hit
    rw [show s.dev.flag TMR_CTRL n TMR_CTRL_ONESHOT = true from hone] at matched
    exact matched
  · have bit : (BitVec.ofNat 64 (v.toNat % 2 ^ 32)).getLsbD 0 = true := by
      rw [BitVec.getLsbD_ofNat, Nat.testBit_mod_two_pow, BitVec.testBit_toNat, hv]
      rfl
    exact ⟨_, exec_write_tmrCtrl hreach n v now x, rfl, rfl, Dev.store_tmrCtrl_enables s.dev n.isLt bit⟩

end Sys2Proof.Machine
end
